-- ==== Sys2Proof/Word.lean ====
section
/-!
DEFINITION. The word and byte types of the OS-6420 (R6: little-endian throughout) and their plainest arithmetic.
-/
namespace Sys2Proof

/-- A 32-bit control and status register value (R472). -/
abbrev Word := BitVec 32
/-- One byte of storage. -/
abbrev Byte := BitVec 8

end Sys2Proof
end

