-- ==== Sys2Proof/Syntax.lean ====
section
/-!
DEFINITION. The commands of the block: one constructor per row of the table of operations and events, with the
operands the row needs. An operand carries what the outside world brings: the contents of a frame, flit or request, a
measured value, the outcome of a physical process.
-/
namespace Sys2Proof

/-- The access paths of R474. -/
inductive Path where
  | partner (n : Nat)
  | mgmt
  | hw
  | jtag
  deriving DecidableEq, Repr

/-- A request packet as it arrives: its port, VC and header fields (R122), and the operand bytes (R125). For an
ENQUEUE the packet bytes arrive in the data flits. -/
structure ReqHdr where
  port : Nat := 0
  vc : Nat := 0
  tc : Nat := 0
  np : Bool := false
  fence : Bool := false
  dropLate : Bool := false
  tag : Nat := 0
  addr : Nat := 0
  mod : Nat := 0
  len : Nat := 0
  dline : Nat := 0
  plen : Nat := 0
  data : List Byte := []
  deriving DecidableEq, Repr

/-- What one training of a vertical link measured and fixed (R236). -/
structure LinkRes where
  eye : Nat := 64
  deskew : Nat := 0
  vref : Nat := 0
  /-- The link failed outright (R436). -/
  dead : Bool := false
  deriving DecidableEq, Repr

/-- What a sense of both copies of an OTP word at both margins gave (R456). -/
structure OtpSense where
  aLo : Word := 0
  aHi : Word := 0
  bLo : Word := 0
  bHi : Word := 0
  deriving DecidableEq, Repr

/-- Bits of a stored SRAM byte that an upset has inverted: the array (as R253 codes SPACE), the byte's place, the mask
of codeword positions. -/
structure SramUpset where
  space : Nat := 1
  place : Nat := 0
  mask : Nat := 0
  deriving DecidableEq, Repr

/-- What a self-test run finds (R442): the tests that fail beyond what grafts mend, by bit, the links (channel, link),
trunk signals (tier, signal), rows (channel, bank, row) and columns (repair-map entries of R455) that fail, and the
16 bytes of detail. -/
structure TestRes where
  fail : Nat := 0
  links : List (Nat × Nat) := []
  trunk : List (Nat × Nat) := []
  rows : List (Nat × Nat × Nat) := []
  cols : List Nat := []
  detail : List Byte := []
  deriving DecidableEq, Repr

/-- Bits of an OTP word that a burn leaves unburned in copies A and B (R463): word `64 * r + w`, or `2048 + r` for the
lock fuses of a region, bit 0 write lock, bit 1 read lock. -/
structure BurnMiss where
  word : Nat := 0
  a : Word := 0
  b : Word := 0
  deriving DecidableEq, Repr

/-- What the ROM loader meets outside the device as it boots (R491): the straps, the REFCLK measured in kHz, whether the
flash identifies itself, the hottest layer in 1/16 °C, the self-test of this boot, and the
OTP words with a copy near its threshold, each with a bit for copy A and one for B (R456). -/
structure BootEnv where
  straps : Nat := 0
  khz : Nat := 156250
  flashOk : Bool := true
  temp : Int := 0
  test : TestRes := {}
  otpUnst : List (Nat × Nat) := []
  deriving DecidableEq, Repr

/-- The commands. -/
inductive Instr where
  /-- R38. PWRGD rises and the keep-alive ring starts. -/
  | pwrgdRise
  /-- R40. PWRGD falls; lanes stop, ERR_N and THERM_N are released and DRAM gets self-refresh entry within 2 µs. -/
  | pwrgdFall
  /-- R38. RESET_N rises, the straps are sampled and the device enters BOOT. -/
  | resetNRise (b : BootEnv)
  /-- R39. A RESET_N low of 1 µs or more while PWRGD is high resets the chip as CRST. -/
  | resetNLow (ns : Nat) (b : BootEnv)
  /-- R37. A monitored rail leaves tolerance while PWRGD is high; FS010 is raised and logged. -/
  | railOutOfTolerance (rail : Nat) (dir : Nat)
  /-- R37. VPROG exceeds 0.3 V outside a programming step; FS011 is raised and fuse programming is ignored. -/
  | vprogHigh
  /-- R37. VPROG has been back within 0–0.3 V for 1 ms, so fuse programming is accepted again. -/
  | vprogSettled
  /-- R35. Once its work rate suits the new value, the device publishes a new VDD_CORE request. -/
  | vcoreRequestPublish (mv : Nat)
  /-- R45. A write to LANE.OCT_CFG sets the octet clause, or is refused unless every lane of the octet is OFF. -/
  | octCfgWrite (p : Path) (v : Word)
  /-- R497. The octet PLL locks and fixes the transmit frame grid. -/
  | octetPllLock (o : Nat)
  /-- R59. The octet PLL loses lock; its lanes go to DETECT and FS063 is raised. -/
  | octetPllLoss (o : Nat)
  /-- R59. LANE_CTRL.ENABLE is set; the lane leaves OFF for DETECT, or fails with cause 0x05. -/
  | laneEnable (l : Nat)
  /-- R59. LANE_CTRL.ENABLE is cleared; the lane goes to OFF with its transmitter idle. -/
  | laneDisable (l : Nat)
  /-- R59. A request moves the lane from ACTIVE to QUIET. -/
  | laneReqQuiet (l : Nat)
  /-- R59. A request moves the lane to DEEP. -/
  | laneReqDeep (l : Nat)
  /-- R61. A request returns the lane from QUIET or DEEP to service. -/
  | laneReqActive (l : Nat)
  /-- R59. A RETRAIN write retrains an ACTIVE lane or restarts a FAIL lane. -/
  | laneRetrain (l : Nat)
  /-- R66. A write to TX_FIR sets the transmitter taps when FIR_MANUAL is 1 and the taps meet R50. -/
  | txFirWrite (p : Path) (v : Word)
  /-- R59. Each 1 ms receiver-detect pulse looks for the far-end termination. -/
  | detectPulse (l : Nat) (sensed : Bool)
  /-- R54. A training frame is received; its control word is checked and any new request is applied. -/
  | trainingFrameReceived (l : Nat) (ctl : Word) (inv : Word) (inverted : Bool) (adapted : Bool)
  /-- R59. The TRAIN timer expires and the lane enters FAIL. -/
  | trainTimerExpiry (l : Nat)
  /-- R48. A lane frame is decoded and its payload is passed to the link layer, marked bad if uncorrectable: `symErrs` symbols of the
  codeword in error, and its 5,140 message bits as they arrive, scrambled (R46): the 20 bits in the control field's place, and the 5,120 in
  that of the payload. -/
  | laneFrameReceived (l : Nat) (symErrs : Nat) (ctl : Nat) (payload : Nat)
  /-- R59. The LOCK timer expires; the lane goes to TRAIN or to FAIL. -/
  | lockTimerExpiry (l : Nat)
  /-- R59. The CAPX timer expires and the lane enters FAIL. -/
  | capxTimerExpiry (l : Nat)
  /-- R59. Signal is lost for 1 µs on an ACTIVE lane; the lane goes to DETECT and the link layer is told. -/
  | lossOfSignal (l : Nat)
  /-- R59. After 10 ms in FAIL the lane retries DETECT, or waits and raises FS060. -/
  | failRetryTimer (l : Nat)
  /-- R63. A lane error window ends and its uncorrectable and corrected counts restart. -/
  | errWindowEnd (l : Nat)
  /-- R52. After 1 µs in QUIET or DEEP the lane's calibration gap is announced. -/
  | laneGapAnnounce (l : Nat)
  /-- R61. A DEEP exit that has not reached ACTIVE within 100 µs retrains the lane. -/
  | deepExitTimeout (l : Nat)
  /-- R69. PORT_CFG.ENABLE is set; the port enables its lanes and enters BOND. -/
  | portEnable (n : Nat)
  /-- R97. PORT_CFG.ENABLE is cleared; the port goes OFF and is lost unless fresh. -/
  | portDisable (n : Nat)
  /-- R69. A PORT_CFG write configures an OFF port, or is refused and sets CFG_REFUSED. -/
  | portCfgWrite (p : Path) (v : Word)
  /-- R70. BOND_MS expires; the port moves to NEG with enough lanes, else to FAIL. -/
  | bondTimerExpiry (n : Nat)
  /-- R74. A valid hello block is received and the generation is negotiated: the block that lane index `i` of the port holds. -/
  | helloReceived (n : Nat) (i : Nat)
  /-- R74. No valid ACKED hello arrives within BOND_MS of NEG; the port fails with cause 0x05. -/
  | negTimerExpiry (n : Nat)
  /-- R87. A data flit is checked by CRC and sequence, then accepted, discarded or NAKed: flit `j` of the frame set (R72). -/
  | dataFlitReceived (n : Nat) (j : Nat)
  /-- R81. A STATUS flit acknowledges flits, returns credits or requests a replay: flit `j` of the frame set (R72). -/
  | statusFlitReceived (n : Nat) (j : Nat)
  /-- R97. An INIT flit sets grants and resume state, and the port enters UP when both sides are DONE: flit `j` of the frame set (R72). -/
  | initFlitReceived (n : Nat) (j : Nat)
  /-- R91. A LANEMAP flit starts or advances a restripe or a planned change: flit `j` of the frame set (R72); in RESTRIPE each lane
  is read on its own, and slot `j / w` of lane index `j mod w` of a port of width `w` is meant. -/
  | lanemapFlitReceived (n : Nat) (j : Nat)
  /-- R85. At each flit slot the transmitter picks a STATUS, a replay, a new data flit or an idle flit. -/
  | transmitFlitSlot (n : Nat)
  /-- R86. The 100 ns or 1 µs STATUS deadline falls due. -/
  | statusDue (n : Nat)
  /-- R87. REPLAY_NS passes with the expected flit missing, and the NAK is sent again. -/
  | nakRepeatTimer (n : Nat)
  /-- R88. ACK_SEQ has not advanced for REPLAY_NS, so the sender replays from the oldest unacknowledged flit. -/
  | replayTimeout (n : Nat)
  /-- R91. The agreed EFF_FCNT is reached; striping switches, the port goes UP or HOLD and a NAK is sent. -/
  | restripeEffFcnt (n : Nat)
  /-- R97. No mask agreement comes within 64 frames, so the port enters HOLD. -/
  | restripeTimeout (n : Nat)
  /-- R93. HOLD_MS expires; the port is lost, FS072 is raised and the partner manager is told. -/
  | holdTimerExpiry (n : Nat)
  /-- R92. The ROTATE_MS timer starts a rotation of the standby lane on an N+1 port. -/
  | portRotation (n : Nat)
  /-- R71. One second in FAIL passes and the port retries BOND. -/
  | portFailRetry (n : Nat)
  /-- R110. The LEAVE timer expires and the partner departs abruptly. -/
  | leaveTimerExpiry (k : Nat)
  /-- R110. A LEAVING partner has no work outstanding and departs in order. -/
  | leavingQuiesced (k : Nat)
  /-- R113. Every term has been returned and the census check passes; the number goes FREE and waiting ports are retried. -/
  | reclaimComplete (k : Nat)
  /-- R114. RECLAIM_MS expires and FS082 is raised while reclamation continues. -/
  | reclaimTimerExpiry (k : Nat)
  /-- R125. A request that reads one 64-byte unit. -/
  | read (h : ReqHdr)
  /-- R125. A request that writes one 64-byte unit. -/
  | write (h : ReqHdr)
  /-- R125. A request that writes selected bytes of a unit. -/
  | writeMask (h : ReqHdr)
  /-- R152. A request that reads up to 1,024 units, returned in fragments. -/
  | readLong (h : ReqHdr)
  /-- R126. An atomic add that returns the old value. -/
  | atomAdd (h : ReqHdr)
  /-- R126. An atomic swap that returns the old value. -/
  | atomSwap (h : ReqHdr)
  /-- R126. An atomic compare-and-swap that returns the old value. -/
  | atomCas (h : ReqHdr)
  /-- R126. An atomic AND that returns the old value. -/
  | atomAnd (h : ReqHdr)
  /-- R126. An atomic OR that returns the old value. -/
  | atomOr (h : ReqHdr)
  /-- R126. An atomic XOR that returns the old value. -/
  | atomXor (h : ReqHdr)
  /-- R204. An exact-match lookup over the two candidate buckets. -/
  | emLookup (h : ReqHdr)
  /-- R208. A longest-prefix walk of a trie. -/
  | lpmLookup (h : ReqHdr)
  /-- R205. An insert, or replacement, of an exact-match entry. -/
  | emInsert (h : ReqHdr)
  /-- R205. A delete of an exact-match entry. -/
  | emDelete (h : ReqHdr)
  /-- R211. An update of a packet and byte counter pair. -/
  | count (h : ReqHdr)
  /-- R213. A two-rate three-colour policer update. -/
  | police (h : ReqHdr)
  /-- R140. A transaction that reads one CSR. -/
  | csrRead (h : ReqHdr)
  /-- R140. A transaction that writes one CSR. -/
  | csrWrite (h : ReqHdr)
  /-- R173. An enqueue of a packet, decided at its stamp. -/
  | enqueue (h : ReqHdr)
  /-- R177. A dequeue of a packet or of cells, which parks when the queue is empty. -/
  | dequeue (h : ReqHdr)
  /-- R172. A request that returns the queue status record. -/
  | qstatus (h : ReqHdr)
  /-- R277. A claim of a transfer channel. -/
  | xferClaim (h : ReqHdr)
  /-- R277. A start of a descriptor chain on an IDLE channel. -/
  | xferStart (h : ReqHdr)
  /-- R290. The doorbell that makes a channel re-read its link in CHAIN_WAIT. -/
  | xferAppend (h : ReqHdr)
  /-- R292. A stop of a running transfer channel. -/
  | xferStop (h : ReqHdr)
  /-- R292. A release of a transfer channel back to FREE. -/
  | xferRelease (h : ReqHdr)
  /-- R302. A partner's mailbox command packet on VC3, taken into a slot. -/
  | mboxCmd (n : Nat) (plen : Nat) (img : List Byte)
  /-- R124. A request with an unknown OPC is answered UNSUP. -/
  | unknownOpcodeRequest (opc : Nat) (h : ReqHdr)
  /-- R143. Once staging is reserved for a fragment, its memory accesses are issued. -/
  | fragmentIssue (id : Nat)
  /-- R142. The oldest ready fragment begins once credit for all its flits is held. -/
  | fragmentBegin (n : Nat) (vc : Nat)
  /-- R175. When every cell write and spilled unit has landed, the packet is linked and a parked dequeue is served. -/
  | enqueueLink (q : Nat)
  /-- R181. A parked dequeue passes its park end and is answered EMPTY. -/
  | parkEnd (id : Nat)
  /-- R186. One queued cell or middle unit is moved out of a shrinking or DEGRADED band. -/
  | cellMove (q : Nat)
  /-- R194. A table request takes a free context of its home channel. -/
  | tableOperationStart (id : Nat)
  /-- R197. A channel's gate issues the first ready step by the order of R265. -/
  | slalomGate (e : Nat) (len : Nat)
  /-- R195. A step's data return, and the next step becomes ready or a result is formed. -/
  | stepDataReturn (id : Nat)
  /-- R215. A source completes and claims a collector slot, or holds its completion until one frees. -/
  | resultComplete (src : Nat)
  /-- R216. The result collector starts an arbitration pass and delivers completions. -/
  | collectorPass
  /-- R263. At each epoch start capacity is computed and budgets are rescaled. -/
  | epochStart
  /-- R273. EVT_GAP_US ends and the RESCALE changes held back are reported. -/
  | rescaleGapEnd (o : Nat)
  /-- R266. The regulation unit hands a DRAM access with its PRI to a channel queue that has a free entry. -/
  | accessHandover (c : Nat)
  /-- R224. At each command slot the controller chooses a refresh, an access or background work. -/
  | controllerCommandSlot (c : Nat) (upset : Nat)
  /-- R226. The oldest write waits WR_AGE_NS and a write drain begins. -/
  | writeAgeExpiry (c : Nat)
  /-- R228. The refresh interval elapses and the refresh debt rises. -/
  | refreshDue (c : Nat)
  /-- R229. A catch-up pass ends and the band interval applies. -/
  | catchupEnd (c : Nat)
  /-- R229. A layer held below its band for HOLD_MS moves to a lower band. -/
  | bandDown (layer : Nat)
  /-- R232. A layer acknowledges SRE or SRX on its returning strobe. -/
  | srAck (c : Nat)
  /-- R234. There is no acknowledgement within 10 µs; FS121 is raised and SRE is repeated or the channel fails. -/
  | srAckTimeout (c : Nat)
  /-- R232. A paced PULSE makes a self-refreshing layer refresh its next group. -/
  | pulse (c : Nat)
  /-- R235. Both queues are empty for IDLE_NS and an idle gap is announced. -/
  | idleGap (c : Nat)
  /-- R235. No idle gap comes within PERIOD_US, so the controller forces a gap. -/
  | forcedGap (c : Nat)
  /-- R236. Periodic or triggered training of the vertical links runs in a gap. -/
  | linkTraining (c : Nat) (res : List LinkRes)
  /-- R243. A MARK_WIN_MS window ends and the per-pin correction counts restart. -/
  | markWindowEnd (c : Nat)
  /-- R249. A grooming pass outruns its period; a BEHIND flag is set and FS137 is raised. -/
  | groomPeriodEnd (c : Nat)
  /-- R252. A CE_WIN_MS window ends and the corrected counts restart. -/
  | ceWindowEnd (c : Nat)
  /-- R254. Setting INJ_CFG.ARM arms a check-bit injection on the next write to the target. -/
  | injArm (p : Path) (v : Word)
  /-- R254. A write of INJ_CFG with ARM 0 disarms the injection. -/
  | injDisarm (p : Path) (v : Word)
  /-- R253. A read of the last word of an error-log entry frees it. -/
  | elogEntryRead (p : Path) (n : Nat)
  /-- R280. A fetched descriptor is checked and begins, or ends the chain. -/
  | descFetch (x : Nat)
  /-- R288. A descriptor's link read returns; the next descriptor is fetched or the channel enters CHAIN_WAIT. -/
  | linkReadReturn (x : Nat)
  /-- R290. One µs after entering CHAIN_WAIT the channel re-reads its link. -/
  | chainWaitReread (x : Nat)
  /-- R287. Every write of a descriptor has landed, so XFER_DONE is posted in chain order. -/
  | descComplete (x : Nat)
  /-- R292. The last access of a DRAINING channel completes and XFER_END is posted. -/
  | xferDrainComplete (x : Nat)
  /-- R296. Firmware starts evacuating a DEGRADED channel on XC31. -/
  | evacuationStart (c : Nat)
  /-- R160. A copied block switches indivisibly to its new place. -/
  | blockSwitch
  /-- R437. The retirement conditions hold; the channel is RETIRED, totals change and FS183 is raised. -/
  | channelRetirement (c : Nat)
  /-- R434. A ROW_WIN_MS window ends and the row correction counts restart. -/
  | rowWindowEnd (c : Nat)
  /-- R441. Firmware writes the repair record within 100 ms of a graft, failure or retirement. -/
  | repairRecordWrite (ok : Bool)
  /-- R446. Each second the stress of links and subarrays accrues, and FS185 is raised at the limit. -/
  | wearUpdate
  /-- R447. The wear record is written to the next flash sector once an hour. -/
  | wearRecordWrite (ok : Bool)
  /-- R302. A doorbell write through the slot windows posts a command. -/
  | cmdDbRing (p : Path) (v : Word)
  /-- R305. Writing RSP_ACK frees a DONE slot pair of owner 64 or 65. -/
  | rspAckWrite (p : Path) (v : Word)
  /-- R311. A write of EVQ_POP frees the head event of the caller's queue. -/
  | evqPop (p : Path) (v : Word)
  /-- R306. Firmware starts a POSTED command in stamp order once its conditions are met. -/
  | commandStart (o : Nat) (i : Nat)
  /-- R305. A POSTED command passes EXPIRE_MS without starting and is answered EXPIRED. -/
  | commandExpire (o : Nat) (i : Nat)
  /-- R306. A command runs past its limit and FS164 is raised. -/
  | commandLimitExceeded (o : Nat) (i : Nat)
  /-- R300. The watchdog expires; Heartwood is reset and FS161 is raised. -/
  | watchdogExpiry
  /-- R300. The lockstep cores disagree; both stop and FS160 is raised. -/
  | lockstepMismatch
  /-- R315. The RUNNING commands complete and firmware hands off to the staged image. -/
  | activationSwitch (ok : Bool)
  /-- R315. The 100 ms wait ends and activation is refused. -/
  | activationWaitTimeout
  /-- R316. The firmware confirm deadline passes and firmware reverts to the old image. -/
  | fwRevert (ok : Bool)
  /-- R324. A command that returns device, version and life-cycle information. -/
  | sysInfo (o : Nat) (i : Nat)
  /-- R324. A command that returns the mode, the hold code and the availability conditions. -/
  | sysStatus (o : Nat) (i : Nat)
  /-- R325. A command that reads the VDD_CORE request. -/
  | sysVcoreRead (o : Nat) (i : Nat)
  /-- R325. A command that reports the VDD_CORE value in force. -/
  | sysVcoreReport (o : Nat) (i : Nat)
  /-- R325. A command that applies a block reset. -/
  | sysBrst (o : Nat) (i : Nat)
  /-- R325. A command that schedules a chip reset 100 µs after its response. -/
  | sysCrst (o : Nat) (i : Nat)
  /-- R325. The 100 µs delay ends and CRST is applied. -/
  | crstApply (b : BootEnv)
  /-- R327. A command that makes a mode transition. -/
  | modeSet (o : Nat) (i : Nat)
  /-- R372. Every admitted request completes, so a waiting transition proceeds. -/
  | modeDrainComplete
  /-- R327. A transition passes WAIT_MS and the device returns to its starting mode. -/
  | modeTimeout
  /-- R327. A command that runs the shut-down test, writes its record and enters RETAIN. -/
  | shutdown (o : Nat) (i : Nat) (t : TestRes) (ok : Bool)
  /-- R329. A command that opens a staging session. -/
  | cfgBegin (o : Nat) (i : Nat)
  /-- R329. A command that writes bytes of the staged image. -/
  | cfgWrite (o : Nat) (i : Nat)
  /-- R329. A command that checks the staged image. -/
  | cfgEnd (o : Nat) (i : Nat)
  /-- R328. A command that reads bytes of a generation slot. -/
  | cfgRead (o : Nat) (i : Nat)
  /-- R328. A command that reports the generation slots and the deadline. -/
  | cfgStatus (o : Nat) (i : Nat)
  /-- R361. A command that commits the staged generation. -/
  | cfgCommit (o : Nat) (i : Nat) (ok : Bool)
  /-- R364. A command that confirms a pending commit. -/
  | cfgConfirm (o : Nat) (i : Nat)
  /-- R365. A command that rolls back to the PREVIOUS generation. -/
  | cfgRollback (o : Nat) (i : Nat)
  /-- R364. The confirm deadline passes and the generation is rolled back. -/
  | autoRollback
  /-- R331. A command that returns partner state bitmaps. -/
  | partnerList (o : Nat) (i : Nat)
  /-- R332. A command by which a partner leaves in order. -/
  | partnerLeave (o : Nat) (i : Nat)
  /-- R332. A command that evicts a partner abruptly. -/
  | partnerEvict (o : Nat) (i : Nat)
  /-- R331. A command that returns a partner's state. -/
  | partnerInfo (o : Nat) (i : Nat)
  /-- R331. A command that returns a port's state. -/
  | portInfo (o : Nat) (i : Nat)
  /-- R332. A command that retrains every lane of a port. -/
  | portRetrain (o : Nat) (i : Nat)
  /-- R333. A command that returns a lane's state and counters. -/
  | laneInfo (o : Nat) (i : Nat)
  /-- R333. A command that runs a PRBS test on a lane. -/
  | lanePrbs (o : Nat) (i : Nat)
  /-- R333. DURATION_MS ends; the generator and checker stop and the result is returned. -/
  | lanePrbsEnd (l : Nat)
  /-- R335. A command that inserts a table entry. -/
  | tableInsert (o : Nat) (i : Nat)
  /-- R335. A command that deletes a table entry. -/
  | tableDelete (o : Nat) (i : Nat)
  /-- R335. A command that looks up a table. -/
  | tableLookup (o : Nat) (i : Nat)
  /-- R335. A command that scans EM buckets. -/
  | tableScan (o : Nat) (i : Nat)
  /-- R184. A command that empties one queue. -/
  | queueFlush (o : Nat) (i : Nat)
  /-- R188. A command that recovers frozen queues in DRAIN. -/
  | queueRecover (o : Nat) (i : Nat)
  /-- R337. A command that returns a queue record. -/
  | queueInfo (o : Nat) (i : Nat)
  /-- R337. A command that clears a queue's OVERRUN bit. -/
  | queueClrOvr (o : Nat) (i : Nat)
  /-- R338. A command that returns capacity and budget figures. -/
  | regCapacity (o : Nat) (i : Nat)
  /-- R338. A command that returns the budgets of a CHIPID. -/
  | regBudgets (o : Nat) (i : Nat)
  /-- R338. A command that runs the admission test on STAGED without effect. -/
  | regTry (o : Nat) (i : Nat)
  /-- R339. A command that takes a counter snapshot. -/
  | telemSnap (o : Nat) (i : Nat)
  /-- R339. A command that returns every sensor reading. -/
  | telemTemps (o : Nat) (i : Nat)
  /-- R339. A command that reads telemetry records. -/
  | telemRead (o : Nat) (i : Nat)
  /-- R340. A command that returns a fault source's state. -/
  | faultRead (o : Nat) (i : Nat)
  /-- R341. A command that clears a held source and stops its escalation. -/
  | faultClear (o : Nat) (i : Nat)
  /-- R341. A command that sets a source's reactions and escalation time. -/
  | faultReact (o : Nat) (i : Nat)
  /-- R341. A command that raises a source as if it had been detected. -/
  | faultRaise (o : Nat) (i : Nat)
  /-- R341. A command that drives or releases ERR_N. -/
  | errCtrl (o : Nat) (i : Nat)
  /-- R342. A command that returns a channel's graft and evacuation state. -/
  | graftInfo (o : Nat) (i : Nat)
  /-- R343. A command that grafts a link, soft or by fuse. -/
  | graftLink (o : Nat) (i : Nat) (miss : List BurnMiss)
  /-- R343. A command that degrades a channel for retirement. -/
  | channelRetire (o : Nat) (i : Nat)
  /-- R343. A command that runs chosen self-tests. -/
  | selftestRun (o : Nat) (i : Nat) (t : TestRes) (miss : List BurnMiss)
  /-- R342. A command that reports the shut-down test record. -/
  | sdtInfo (o : Nat) (i : Nat)
  /-- R345. A command that reads OTP words. -/
  | otpRead (o : Nat) (i : Nat)
  /-- R461. A command that writes OTP shadow registers. -/
  | otpShadow (o : Nat) (i : Nat)
  /-- R463. A command that burns the shadowed OTP words. -/
  | otpProgram (o : Nat) (i : Nat) (miss : List BurnMiss)
  /-- R464. A command that burns region lock fuses. -/
  | otpLock (o : Nat) (i : Nat) (miss : List BurnMiss)
  /-- R467. A command that advances the life-cycle state. -/
  | lcAdvance (o : Nat) (i : Nat) (miss : List BurnMiss)
  /-- R347. A command that opens a firmware update session. -/
  | fwBegin (o : Nat) (i : Nat)
  /-- R347. A command that writes firmware image bytes. -/
  | fwWrite (o : Nat) (i : Nat)
  /-- R347. A command that verifies the written image. -/
  | fwVerify (o : Nat) (i : Nat)
  /-- R315. A command that activates the verified image hitlessly. -/
  | fwActivate (o : Nat) (i : Nat)
  /-- R316. A command that confirms the image on trial. -/
  | fwConfirm (o : Nat) (i : Nat)
  /-- R346. A command that returns the image state. -/
  | fwStatus (o : Nat) (i : Nat)
  /-- R349. A mailbox command that reads CSRs. -/
  | cmdCsrRead (o : Nat) (i : Nat)
  /-- R349. A mailbox command that writes CSRs. -/
  | cmdCsrWrite (o : Nat) (i : Nat)
  /-- R349. A mailbox command that does an indivisible read-modify-write of a CSR. -/
  | csrRmw (o : Nat) (i : Nat)
  /-- R366. The verified firmware starts, MAINT is entered and the generation slots are established. -/
  | firmwareStart
  /-- R490. Once the previous entry has been answered, the next boot list entry is posted to mailbox 65. -/
  | bootListEntry
  /-- R492. A 10 ms REFCLK measurement during a REFCLK_RANGE hold. -/
  | refclkRecheck (khz : Nat) (b : BootEnv)
  /-- R492. A 100 ms flash identification retry during a FLASH hold. -/
  | flashRetry (ok : Bool) (b : BootEnv)
  /-- R492. A 10 ms temperature check during a HEAT hold. -/
  | heatRecheck (b : BootEnv)
  /-- R384. REFCLK is missing or off frequency, so a clock hold begins. -/
  | clockMonitorTrip
  /-- R386. REFCLK stays valid for RETURN_US; PLLs relock and channels resume. -/
  | refclkReturn (b : BootEnv)
  /-- R386. Every channel has left SELFREF; the hold ends and the HOLD timers restart. -/
  | clockHoldEnd
  /-- R383. The keep-alive ring reports settled with its period. -/
  | ringSettle (period : Nat)
  /-- R385. The ring has not settled within 1 ms; FS022 is raised or BOOT holds. -/
  | ringSettleTimeout
  /-- R383. The ring period is remeasured every 10 µs. -/
  | ringRemeasure (period : Nat)
  /-- R378. A time-base, Heartwood or management PLL loses lock; its island switches to REFCLK and FS023 is raised. -/
  | pllUnlock (k : Nat)
  /-- R387. A glitch-free switch sees no old-clock edge in 64 cycles and releases by force. -/
  | switchForcedRelease (k : Nat)
  /-- R380. A doorbell or fault restarts Heartwood in RETAIN. -/
  | heartwoodWake
  /-- R380. The management island stops after 1 ms without bus activity. -/
  | mgmtIslandIdle
  /-- R390. A GATE_CFG write changes the gating policy or enables. -/
  | gateCfgWrite (p : Path) (v : Word)
  /-- R392. A sensor completes a conversion. -/
  | sensorConversion (i : Nat) (t : Int)
  /-- R393. A sensor completes no conversion for 30 µs and is judged broken. -/
  | sensorTimeout (i : Nat)
  /-- R394. Each 10 µs cycle forms the layer temperatures and judges suspects, rise, band, throttle and alarm. -/
  | thermalEvaluation (pow : List Nat)
  /-- R397. RISE_HOLD_MS passes after the last trip and the cap ends. -/
  | riseHoldExpiry
  /-- R406. A pending domain starts a calibration step inside its gap. -/
  | calStepStart (dom : Nat)
  /-- R406. A calibration step finishes, and a run that succeeds takes effect. -/
  | calStepFinish (dom : Nat) (ok : Bool)
  /-- R407. A step passes STEP_US; the calibration is bad and FS045 is raised at the third. -/
  | calStepTimeout (dom : Nat)
  /-- R416. The escalation timer of a held source expires and BRST or CRST is taken. -/
  | escalationExpiry (n : Nat)
  /-- R417. Writing 1 to a HELD bit clears the source and stops escalation. -/
  | heldClearWrite (p : Path) (n : Nat) (v : Word)
  /-- R419. A REACT_n write sets reactions, or is refused. -/
  | reactWrite (p : Path) (n : Nat) (v : Word)
  /-- R418. A write of FAULT.ERR_CTRL.DRIVE drives or releases ERR_N. -/
  | errDriveWrite (p : Path) (v : Word)
  /-- R418. The 1 µs minimum ERR_N pulse ends and a pending release takes effect. -/
  | errPulseEnd
  /-- R428. Arming CHK_INJ injects into the census, lockstep or flit CRC checker. -/
  | chkInjArm (p : Path) (v : Word)
  /-- R426. A read of word 15 of a fault log entry frees it. -/
  | faultLogRead (p : Path) (n : Nat)
  /-- R427. The census checks a law; a mismatch raises FS001 and takes a snapshot. -/
  | censusCheck (law : Nat) (k : Nat) (vc : Nat)
  /-- R460. An OTP re-sense sweep starts on a trigger or after the sweep before it. -/
  | otpSweepStart
  /-- R456. A word read judges both copies at both margins. -/
  | otpWordRead (w : Nat) (r : OtpSense)
  /-- R460. A sweep ends. -/
  | otpSweepEnd
  /-- R462. Writing OPEN opens the programming window in MAINT. -/
  | progWindowOpen (p : Path) (v : Word)
  /-- R462. A write of 0 to OPEN closes the programming window. -/
  | progWindowClose (p : Path) (v : Word)
  /-- R462. PROG_S ends and the programming window closes. -/
  | progWindowExpiry
  /-- R479. A management write frame makes its CSR writes after its PEC check. -/
  | mgmtWriteFrame (bytes : List Byte)
  /-- R479. A management read frame returns CSR values. -/
  | mgmtReadFrame (bytes : List Byte) (count : Nat)
  /-- R479. The I3C CCC that assigns a dynamic address. -/
  | entdaa (da : Nat)
  /-- R479. The I3C CCC that sets a dynamic address from the static one. -/
  | setdasa (da : Nat)
  /-- R479. The I3C CCC that changes the dynamic address. -/
  | setnewda (da : Nat)
  /-- R479. The I3C CCC that resets the dynamic address. -/
  | rstdaa
  /-- R479. The I3C CCC that returns the provisional ID. -/
  | getpid
  /-- R479. The I3C CCC that returns the BCR. -/
  | getbcr
  /-- R479. The I3C CCC that returns the DCR. -/
  | getdcr
  /-- R479. The I3C CCC that returns the status. -/
  | getstatus
  /-- R479. The I3C CCC that enables events, accepted without effect. -/
  | enec
  /-- R479. The I3C CCC that disables events, accepted without effect. -/
  | disec
  /-- R480. A JTAG Update-DR of CSR_ACC starts a register access. -/
  | csrAcc (a : Nat) (v : Word) (wr : Bool)
  /-- R474. TRST_N low resets the JTAG select copies. -/
  | trstNLow
  /-- R477. A write to the set alias ORs into a register. -/
  | setAliasWrite (p : Path) (a : Nat) (v : Word)
  /-- R477. A write to the clear alias clears bits of a register. -/
  | clearAliasWrite (p : Path) (a : Nat) (v : Word)
  /-- R477. A write to the toggle alias XORs into a register. -/
  | toggleAliasWrite (p : Path) (a : Nat) (v : Word)
  /-- R476. A select register write sets only the caller's copy. -/
  | selectWrite (p : Path) (blk : Nat) (v : Word)
  /-- R478. A read of a _LO register latches the high half for the path. -/
  | loReadLatch (p : Path) (a : Nat)
  /-- R8. A non-partner read of an RC field returns it and clears it. -/
  | rcFieldRead (p : Path) (a : Nat)
  /-- R483. Writing TELEM.SNAP.GO takes an indivisible counter snapshot. -/
  | snapGo (p : Path) (v : Word)
  /-- R8. A write to any register without a row of its own acts by its access codes and range rules. -/
  | registerWrite (p : Path) (a : Nat) (v : Word)
  /-- R59. A lane in QUIET or DEEP detects far-end signal and leaves for ACTIVE or LOCK. -/
  | farEndSignalDetected (l : Nat)
  /-- R65. The PRBS checker of an OFF or waiting FAIL lane takes received bits, locks after 64 error-free bits, unlocks after 64 errors in 1,024 and counts bit errors. -/
  | prbsBitsReceived (l : Nat) (errs : List Bool)
  /-- R232. A DRAM layer in self-refresh that has had no PULSE for 1 µs refreshes one group every 15.259 ns on its own timer and advances the shared pointer. -/
  | layerOwnTimerRefresh (c : Nat)
  /-- R235. LEN_NS after a forced gap began, the gap ends, its announcement is withdrawn and the controller resumes issuing. -/
  | forcedGapEnd (c : Nat)
  /-- R414. 10 µs after a CRST reaction is taken, the chip reset is made. -/
  | faultCrstDelay (b : BootEnv)
  /-- R378. A time-base, Heartwood or management PLL locks; the glitch-free switch returns its island to the PLL, and at the first time-base lock DT starts counting. -/
  | islandPllLock (k : Nat)
  /-- R38. With RESET_N already high, t1 + 1 ms passes after the ring has settled, and the device samples the straps and enters BOOT as if RESET_N had risen. -/
  | powerupT2Reached (b : BootEnv)
  /-- R248. SRAM grooming reads the next bytes of the arrays of R245 at its own pace within SRAM_PASS_S, rewrites corrected bytes and can freeze a queue. -/
  | sramGroomRead (upset : List SramUpset)
  deriving DecidableEq, Repr

end Sys2Proof
end

