-- ==== Sys2Proof/Config.lean ====
section
/-!
DEFINITION. What an implementation fixes, and the free values: constants without a body, so no proof can see them.
-/
namespace Sys2Proof

/-- A free natural number, one for each index: every value the manual leaves open draws the next index
(`freeIx` of the state). -/
opaque Config.freeNat : Nat → Nat

/-- Bytes of the queue manager's cell-write buffers (R84): the manual does not give their size. -/
opaque Config.cellBuf : Nat

/-- SHA-384 of a byte string (FIPS 180-4, named by R313; the standard's text lies outside the manual, 00_scope). -/
opaque Config.sha384 : List Byte → List Byte

/-- ECDSA P-384 verification under FIPS 186-4 (R313): public key, signature, digest of the signed bytes. -/
opaque Config.ecdsaP384Ok : List Byte → List Byte → List Byte → Bool

/-- A life-cycle signature verifies under the key with a given SHA-384 digest (R345): digest of the key, signature, digest of
the message. The command carries no public key, and the manual does not say where it is taken from. -/
opaque Config.lcSigOk : List Byte → List Byte → List Byte → Bool

/-- HMAC-SHA-256 of a byte string under a key (R443). -/
opaque Config.hmac256 : List Byte → List Byte → List Byte

/-- S(region, word) of R465: the per-device sequence that scrambles secrets. -/
opaque Config.scramble : Nat → Nat → Word

/-- The 30 check symbols of RS(544,514) over a message of 5,140 bits (R46, R48; the code is that of IEEE 802.3 Clause 91, whose text lies
outside the manual). -/
opaque Config.rsCheck : Nat → Nat

/-- The 5,312 pattern bits of a training frame: PRBS13Q in PAM4 octets, PRBS31 in NRZ octets (IEEE 802.3). -/
opaque Config.trainPattern : Bool → Nat

/-- AF(T) of R446, 2^((T - 95) / 10), in units of 2^-32, for a temperature in 1/16 °C: the manual gives no rounding. -/
opaque Config.wearAf : Int → Nat

end Sys2Proof
end

