-- ==== Sys2Proof/Machine/Operands.lean ====
section
/-!
DEFINITION. Bit fields, byte strings and sizes: every operand form the manual gives (R4 to R7). All multi-byte
fields are little-endian.
-/
namespace Sys2Proof.Machine

/-- Bits [lo + w - 1 : lo] of `x` (R7). -/
def bits (x lo w : Nat) : Nat := x / 2 ^ lo % 2 ^ w

/-- Bit `i` of `x`. -/
def bit (x i : Nat) : Bool := x.testBit i

/-- 1 for true, 0 for false. -/
def b2n (b : Bool) : Nat := if b then 1 else 0

/-- Field [lo + w - 1 : lo] of a register value. -/
def fld (v : Word) (lo w : Nat) : Nat := bits v.toNat lo w

/-- A register value from a natural number. -/
def word (n : Nat) : Word := BitVec.ofNat 32 n

/-- A byte from a natural number. -/
def byte (n : Nat) : Byte := BitVec.ofNat 8 n

/-- `n` bytes of `v`, least significant first (R6). -/
def leBytes : Nat → Nat → List Byte
  | 0, _ => []
  | n + 1, v => byte v :: leBytes n (v / 256)

/-- The little-endian value of a byte string. -/
def leNat : List Byte → Nat
  | [] => 0
  | b :: t => b.toNat + 256 * leNat t

/-- `n` bytes of a string from offset `o`, zero beyond its end. -/
def slice (bs : List Byte) (o n : Nat) : List Byte :=
  let t := (bs.drop o).take n
  t ++ List.replicate (n - t.length) 0

/-- The little-endian field of `n` bytes at offset `o`. -/
def leAt (bs : List Byte) (o n : Nat) : Nat := leNat (slice bs o n)

/-- A string padded with zero to `n` bytes, or cut to them. -/
def padTo (n : Nat) (bs : List Byte) : List Byte := slice bs 0 n

/-- `bs` with `new` written over it at offset `o`, within its length. -/
def overlay (bs : List Byte) (o : Nat) (new : List Byte) : List Byte :=
  bs.take o ++ (new.take (bs.length - o)) ++ bs.drop (o + new.length)

/-- Every byte is zero. -/
def allZero (bs : List Byte) : Bool := bs.all (· == 0)

/-- The quotient rounded up. -/
def ceilDiv (a b : Nat) : Nat := (a + b - 1) / b

/-- The numbers whose bit is set, below `n`. -/
def bitList (x n : Nat) : List Nat := (List.range n).filter (bit x)

/-- The mask of a list of bit numbers. -/
def maskOf (l : List Nat) : Nat := l.foldl (fun m i => m ||| 2 ^ i) 0

/-- How many bits of `x` are set, below `n`. -/
def popCount (x n : Nat) : Nat := (bitList x n).length

/-- Clear the bits of `m` in `x`. -/
def clearBits (x m : Nat) : Nat := x - (x &&& m)

/-- A signed value of `w` bits read from a natural number. -/
def toSigned (w x : Nat) : Int := if x % 2 ^ w < 2 ^ (w - 1) then (x % 2 ^ w : Nat) else (x % 2 ^ w : Nat) - (2 ^ w : Nat)

/-- A signed value coded in `w` bits, two's complement. -/
def ofSigned (w : Nat) (x : Int) : Nat := (x % (2 ^ w : Nat)).toNat

end Sys2Proof.Machine
end

