-- ==== Sys2Proof/Machine/Flags.lean ====
section
/-!
DEFINITION. Checks computed over data: the CRC-32 of R78, the CRC-32C of R203, the CRC-8 of R479, the Hamming code of
R245 and the pin-symbol code of R241.
-/
namespace Sys2Proof.Machine

/-- One bit step of a reflected CRC with reflected polynomial `poly`. -/
def crcBit (poly c : Nat) : Nat := if c % 2 = 1 then (c / 2) ^^^ poly else c / 2

/-- One byte step of a reflected CRC. -/
def crcByte (poly c : Nat) (b : Byte) : Nat :=
  let s := crcBit poly
  s (s (s (s (s (s (s (s (c ^^^ b.toNat))))))))

/-- A reflected CRC over a byte string from register value `c`. -/
def crcRun (poly : Nat) (c : Nat) (bs : List Byte) : Nat := bs.foldl (crcByte poly) c

/-- The CRC-32 of IEEE 802.3 (R78): polynomial 0x04C1_1DB7 reflected, initial value and final complement all ones. -/
def crc32 (bs : List Byte) : Nat := (crcRun 0xEDB88320 0xFFFFFFFF bs) ^^^ 0xFFFFFFFF

/-- The CRC-32C of R203 from seed `s`: polynomial 0x1EDC_6F41 reflected, no final complement. -/
def crc32c (s : Nat) (bs : List Byte) : Nat := crcRun 0x82F63B78 s bs

/-- One bit step of the CRC-8 of R479, polynomial 0x07, most significant bit first. -/
def pecBit (c : Nat) : Nat := if c ≥ 128 then (c * 2 % 256) ^^^ 7 else c * 2

/-- The PEC of a byte string (R479), initial value 0. -/
def pec (bs : List Byte) : Nat :=
  bs.foldl (fun c b => pecBit (pecBit (pecBit (pecBit (pecBit (pecBit (pecBit (pecBit (c ^^^ b.toNat))))))))) 0

/-- The parity of the bits of `x` selected by `m`, below bit 16. -/
def parity (x m : Nat) : Nat := popCount (x &&& m) 16 % 2

/-- Check bits c0 to c4 of a data byte (R245), c0 least significant. -/
def hamCheck (d : Nat) : Nat :=
  let c0 := parity d 0x5B
  let c1 := parity d 0x6D
  let c2 := parity d 0x8E
  let c3 := parity d 0xF0
  let c4 := (parity d 0xFF + c0 + c1 + c2 + c3) % 2
  c0 + 2 * c1 + 4 * c2 + 8 * c3 + 16 * c4

/-- Outcome of decoding a stored unit or byte. -/
inductive Decode where
  | good
  | corrected
  | bad
  deriving DecidableEq, Repr

/-- Hamming positions of d0 to d7 (3, 5, 6, 7, 9, 10, 11, 12) and of c0 to c3 (1, 2, 4, 8); c4 is position 0 (R245,
R253). -/
def hamPosData (i : Nat) : Nat := [3, 5, 6, 7, 9, 10, 11, 12].getD i 0

/-- Decode of an SRAM byte whose codeword positions `e` (a 13-bit mask) are inverted: one error is corrected, with its
position; two are detected; of more the manual promises nothing (R245). The syndrome of one error is its position. -/
def hamDecode (e : Nat) : Option (Decode × Nat) :=
  match bitList e 13 with
  | [] => some (.good, 0)
  | [p] => some (.corrected, p)
  | [_, _] => some (.bad, 0)
  | _ => none

/-- The syndrome of a received codeword: the exclusive or of the positions whose bits are set, c4 left out (R245). -/
def hamSyndrome (d chk : Nat) : Nat :=
  (bitList d 8).foldl (fun a i => a ^^^ hamPosData i) 0 ^^^
  (bitList chk 4).foldl (fun a i => a ^^^ 2 ^ i) 0

/-- Outcome of decoding a DRAM unit with the pins of mask `e` in error and `m` marked pins (R242): corrected up to the
guarantee, detected up to the guarantee, and none beyond it, where the manual promises nothing. -/
def rsOutcome (e : Nat) (marked : List Nat) : Option Decode :=
  let m := marked.length
  let un := (bitList e 36).filter (fun p => !marked.contains p)
  let er := (bitList e 36).filter (fun p => marked.contains p)
  if un.isEmpty && er.isEmpty then some .good
  else if m = 0 then
    (if un.length ≤ 1 then some .corrected else if un.length ≤ 3 then some .bad else none)
  else if m = 1 then
    (if un.length ≤ 1 then some .corrected else if un.length ≤ 2 then some .bad else none)
  else
    (if un.length = 0 then some .corrected else if un.length ≤ 2 then some .bad else none)

/-- Multiplication by x in GF(2^16) with x^16 + x^12 + x^3 + x + 1 (R241). -/
def gfX (a : Nat) : Nat := if a ≥ 32768 then (a * 2 % 65536) ^^^ 0x100B else a * 2

/-- Multiplication in GF(2^16), by the bits of `b` below `n`. -/
def gfMulN : Nat → Nat → Nat → Nat
  | 0, _, _ => 0
  | n + 1, a, b => (if b % 2 = 1 then a else 0) ^^^ gfMulN n (gfX a) (b / 2)

/-- Multiplication in GF(2^16). -/
def gfMul (a b : Nat) : Nat := gfMulN 16 a b

/-- Coefficients, lowest first, of (x + 1)(x + α)(x + α²)(x + α³) without the leading one (R241). -/
def rsGen : List Nat :=
  [0, 1, 2, 3].foldl
    (fun g i =>
      let r := 2 ^ i
      -- multiply the monic polynomial by (x + r)
      let g' := g ++ [1]
      (List.range (g.length + 1)).map (fun k => (if k = 0 then 0 else g'.getD (k - 1) 0) ^^^ gfMul r (g'.getD k 0)))
    []

/-- One step of the systematic division: the four check symbols after data symbol `s`. -/
def rsStep (chk : List Nat) (s : Nat) : List Nat :=
  let f := s ^^^ chk.getD 3 0
  (List.range 4).map (fun k => (if k = 0 then 0 else chk.getD (k - 1) 0) ^^^ gfMul f (rsGen.getD k 0))

/-- The symbol of data pin `p` of a 64-byte unit: bit b is data bit p of beat b (R241). -/
def pinSymbol (u : List Byte) (p : Nat) : Nat :=
  maskOf ((List.range 16).filter (fun b => bit ((u.getD (4 * b + p / 8) 0).toNat) (p % 8)))

/-- Check symbols of pins 32 to 35 of a unit (R241): data pin 31 is the highest coefficient. -/
def rsCheck (u : List Byte) : List Nat :=
  (List.range 32).foldl (fun c i => rsStep c (pinSymbol u (31 - i))) [0, 0, 0, 0]

end Sys2Proof.Machine
end

