-- ==== Sys2Proof/Machine/Regs.lean ====
section
/-!
DEFINITION. The register map (R472): blocks, the registers that hold a value of their own with their writable masks
and reset values, taken from the register tables of the chapters (R66, R100, R118, R190, R219, R239, R256, R275, R298,
R318, R370, R389, R410, R430, R450, R470, R486, R487).
-/
namespace Sys2Proof.Machine

/-- Base of the CSR range (R146, R472). -/
def csrBase : Nat := 0x1800000000

/-- CSR block numbers (R472). -/
def bGlobal : Nat := 0x00
def bClock : Nat := 0x01
def bThermal : Nat := 0x02
def bFault : Nat := 0x03
def bOtp : Nat := 0x04
def bTelem : Nat := 0x05
def bLane : Nat := 0x08
def bPort : Nat := 0x09
def bPartner : Nat := 0x0A
def bQm : Nat := 0x10
def bSlalom : Nat := 0x18
def bDram : Nat := 0x20
def bGraft : Nat := 0x21
def bEcc : Nat := 0x28
def bXfer : Nat := 0x30
def bReg : Nat := 0x38
def bMbox : Nat := 0x40
def bConfig : Nat := 0x41

/-- A register that holds a value of its own: masks of its RW and W1C fields, and its reset value. -/
structure RegInfo where
  blk : Nat
  off : Nat
  rw : Nat := 0
  w1c : Nat := 0
  reset : Nat := 0
  deriving DecidableEq, Repr

/-- Stored registers of the link blocks. -/
def regsLink : List RegInfo := [
  ⟨0x08, 0x10, 0xF, 0, 0⟩,
  ⟨0x08, 0x14, 0, 4, 0⟩,
  ⟨0x08, 0x20, 0x778F, 0, 4⟩,
  ⟨0x08, 0x28, 0, 0xF, 0⟩,
  ⟨0x08, 0x60, 0xFFFFFFFF, 0, 4 + 1000 * 65536⟩,
  ⟨0x08, 0x64, 0xFFFFFFFF, 0, 4096⟩,
  ⟨0x08, 0x70, 0xFFFFFFFF, 0, 100 + 500 * 65536⟩,
  ⟨0x08, 0x74, 0xFFFF, 0, 1000⟩,
  ⟨0x09, 0x10, 0xFFFF, 0, 0xB40⟩,
  ⟨0x09, 0x1C, 0, 0xFF, 0⟩,
  ⟨0x09, 0x20, 0xFFFFFFFF, 0, 0⟩,
  ⟨0x09, 0x24, 0xFFFF, 0, 0⟩,
  ⟨0x09, 0x30, 0xFFFFF, 0, 2000 + 4 * 65536⟩,
  ⟨0x09, 0x34, 0xFFFFFFFF, 0, 50 + 20 * 65536⟩,
  ⟨0x09, 0x38, 0xFFFF, 0, 200⟩,
  ⟨0x0A, 0x38, 0, 0x3F, 0⟩,
  ⟨0x0A, 0x100, 0xFFFFFFFF, 0, 10 + 5 * 65536⟩]

/-- Stored registers of the memory and service blocks. -/
def regsMem : List RegInfo := [
  ⟨0x10, 0x150, 0, 0xF, 0⟩,
  ⟨0x18, 0x14, 0, 7, 0⟩,
  ⟨0x20, 0x14, 0, 0x7F, 0⟩,
  ⟨0x20, 0x30, 0x3F3FFFFF, 0, 10 + 32 * 256 + 24 * 65536 + 8 * 16777216⟩,
  ⟨0x20, 0x34, 0xFFFF, 0, 500⟩,
  ⟨0x20, 0x38, 0xFF07, 0, 2 + 10 * 256⟩,
  ⟨0x20, 0x3C, 0x1FF, 0, 256⟩,
  ⟨0x20, 0x40, 0x03FF03FF, 0, 100 + 400 * 65536⟩,
  ⟨0x20, 0x44, 0xFFFF, 0, 1000⟩,
  ⟨0x20, 0x48, 0x3FFFFF, 0, 1000 + 16 * 65536⟩,
  ⟨0x28, 0x10, 0xFFFFFFFF, 0, 60 + 600 * 65536⟩,
  ⟨0x28, 0x14, 0xFFFF00FF, 0, 4 + 1000 * 65536⟩,
  ⟨0x28, 0x18, 0xFFFFFFFF, 0, 256 + 1000 * 65536⟩,
  ⟨0x28, 0x30, 0xFF3F, 0, 0⟩,
  ⟨0x28, 0x34, 0xFFFFFFFF, 0, 0⟩,
  ⟨0x28, 0x38, 0xFF, 0, 0⟩,
  ⟨0x28, 0x3C, 0, 1, 0⟩,
  ⟨0x28, 0x40, 0, 0x3F, 0⟩,
  ⟨0x38, 0x10, 0x77700, 0, 4 * 256 + 5 * 4096 + 6 * 65536⟩,
  ⟨0x38, 0x14, 0xFFFFFFFF, 0, 2000 + 100 * 65536⟩,
  ⟨0x38, 0x50, 0, 7, 0⟩,
  ⟨0x30, 0x24, 0, 0x1F, 0⟩,
  ⟨0x30, 0x100, 0x7F, 0, 64⟩]

/-- Stored registers of the system blocks. -/
def regsSys : List RegInfo := [
  ⟨0x00, 0x30, 0, 3, 0⟩,
  ⟨0x00, 0x50, 0, 0x70000, 0⟩,
  ⟨0x00, 0x60, 0xFFFFFFFF, 0, 0⟩,
  ⟨0x00, 0x64, 0xFFFFFFFF, 0, 0⟩,
  ⟨0x00, 0x68, 0xFFFFFFFF, 0, 0⟩,
  ⟨0x00, 0x6C, 0xFFFFFFFF, 0, 0⟩,
  ⟨0x01, 0x14, 0, 0x700, 0⟩,
  ⟨0x01, 0x18, 0x3FFF7FFF, 0, 100 + 5 * 1024 + 100 * 65536⟩,
  ⟨0x01, 0x30, 0x7771, 0, 0x7110⟩,
  ⟨0x01, 0x60, 0, 0x3F, 0⟩,
  ⟨0x02, 0x10, 0xFFFFFFFF, 0, 100 + 110 * 256 + 110 * 65536 + 118 * 16777216⟩,
  ⟨0x02, 0x14, 0x03FF7F1F, 0, 3 + 1 * 256 + 10 * 65536⟩,
  ⟨0x02, 0x18, 0x03FF001F, 0, 4 + 50 * 65536⟩,
  ⟨0x02, 0x1C, 0x1F0F1F, 0, 6 + 3 * 256 + 5 * 65536⟩,
  ⟨0x02, 0x30, 0, 0x3F, 0⟩,
  ⟨0x03, 0x10, 0xFFFF, 0, 1000⟩,
  ⟨0x03, 0x44, 0, 0xF, 0⟩,
  ⟨0x03, 0x50, 0x8000FF73, 0, 0⟩,
  ⟨0x04, 0x14, 0xFF01, 0, 10 * 256⟩,
  ⟨0x04, 0x40, 0, 0x3F, 0⟩,
  ⟨0x05, 0x50, 0, 1, 0⟩,
  ⟨0x21, 0x300, 0xFFFFFFFF, 0, 3 + 90 * 256 + 1000 * 65536⟩,
  ⟨0x21, 0x320, 0, 0x7F, 0⟩,
  ⟨0x40, 0x10, 0xFFFFF3FF, 0, 100 + 600 * 4096⟩,
  ⟨0x40, 0x114, 0, 3, 0⟩,
  ⟨0x41, 0x40, 0, 0x3F, 0⟩]

/-- Every register that holds a value of its own, but for the per-source REACT_n. -/
def regTable : List RegInfo := regsLink ++ regsMem ++ regsSys

/-- Fault classes (R412): 0 corrected, 1 uncorrected-contained, 2 fatal; 3 a source no chapter defines. -/
def faultClass (n : Nat) : Nat :=
  if [1, 43, 136, 160].contains n then 2
  else if [10, 20, 22, 45, 60, 63, 72, 73, 74, 80, 83, 91, 101, 121, 131, 133, 135, 161, 163, 171,
      181, 182, 187, 191, 192, 193, 194].contains n then 1
  else if [2, 11, 21, 23, 40, 42, 44, 46, 61, 62, 70, 71, 75, 81, 82, 90, 92, 100, 102, 110, 111, 120,
      122, 130, 132, 134, 137, 140, 150, 162, 164, 165, 170, 172, 180, 183, 184, 185, 186, 190].contains n then 0
  else 3

/-- A source that some chapter defines (R421). -/
def faultDefined (n : Nat) : Bool := faultClass n != 3

/-- Default reaction set, coded as R414: EVT 1, NMI 2, BRST 4, CRST 8, PIN 16 (R422). -/
def reactDefault (n : Nat) : Nat :=
  if n = 10 then 19
  else if n = 20 ∨ n = 182 then 17
  else if [22, 45, 101, 121, 135, 181].contains n then 3
  else if n = 43 then 17
  else if faultClass n = 2 then 25
  else if faultClass n = 3 then 0
  else 1

/-- Reset value of REACT_n (R422, R430): the default set, and 10 ms for every source; CLASS is read live. -/
def reactReset (n : Nat) : Nat := reactDefault n + 10 * 65536

/-- The entry of the register table for a block and offset. -/
def regInfo (blk off : Nat) : Option RegInfo :=
  regTable.find? (fun r => r.blk == blk && r.off == off)

/-- Key of a register: instance, block, offset. -/
def regKey (inst blk off : Nat) : Nat := inst * 0x1000000 + blk * 0x10000 + off

/-- Reset value of a stored register, by block and offset. -/
def regResetAt (blk off : Nat) : Nat :=
  if blk = bFault ∧ 0x400 ≤ off ∧ off < 0x800 then reactReset ((off - 0x400) / 4)
  else match regInfo blk off with
    | some r => r.reset
    | none => 0

/-- Reset value of a stored register, by key. -/
def regReset (k : Nat) : Word := BitVec.ofNat 32 (regResetAt (k / 0x10000 % 256) (k % 0x10000))

end Sys2Proof.Machine
end

