-- ==== Sys2Proof/Machine/StateFault.lean ====
section
/-!
DEFINITION. State of the fault collector, the mailboxes and the telemetry store (19_faults, 14_heartwood_mailboxes,
22_registers), as plain data.
-/
namespace Sys2Proof.Machine

/-- A fault detail (R424). -/
structure Detail where
  kind : Nat := 0
  step : Nat := 0
  injected : Bool := false
  inst : Nat := 0
  wide : Nat := 0
  a : Nat := 0
  b : Nat := 0
  c : Nat := 0
  d : Nat := 0
  deriving DecidableEq, Repr

/-- One fault source (R412 to R417). -/
structure Source where
  raises : Nat := 0
  lastDt : Nat := 0
  detail : Detail := {}
  held : Bool := false
  brst : Bool := false
  /-- DT at which the escalation timer expires. -/
  esc : Option Nat := none
  /-- DT of the last raise that was not suppressed (R425). -/
  lastPost : Option Nat := none
  deriving DecidableEq, Repr

/-- One entry of the fault log (R426). -/
structure LogEntry where
  dt : Nat := 0
  source : Nat := 0
  cls : Nat := 0
  taken : Nat := 0
  mode : Nat := 0
  raises : Nat := 0
  detail : Detail := {}
  unread : Bool := false
  deriving DecidableEq, Repr

/-- The fault collector. -/
structure FaultU where
  src : Tab Source := []
  log : Tab LogEntry := []
  logNext : Nat := 0
  logOvf : Bool := false
  /-- ERR_N is driven low; end of its minimum pulse; a release waits for that end; cause (R418). -/
  errLow : Bool := false
  errMin : Option Nat := none
  errRel : Bool := false
  errCause : Nat := 0
  /-- A CRST reaction taken: DT of the reset and its source (R414). -/
  crst : Option (Nat × Nat) := none
  /-- Traps to Heartwood not yet recorded by firmware (R414). -/
  nmi : List Nat := []
  /-- Checker injections armed (R428): census law, lockstep, flit CRC of a port. -/
  injLaw : Option Nat := none
  injLock : Bool := false
  injPort : Option Nat := none
  /-- Block resets that wait for a stopped island (R379, R416): 0 octet, 1 channel, 2 Heartwood, and the instance. -/
  brstWait : List (Nat × Nat) := []
  /-- DT and source of the raise that came last, for the order of raises at one DT (R413). -/
  last : Option (Nat × Nat) := none
  deriving DecidableEq, Repr

/-- States of a slot pair (R305). -/
inductive PairSt where
  | free | posted | running | done
  deriving DecidableEq, Repr

/-- One slot pair: command and response slot images (R303 to R305). -/
structure Pair where
  st : PairSt := .free
  cmd : List Byte := []
  stamp : Nat := 0
  ord : Nat := 0
  resp : List Byte := []
  /-- DT at which firmware started it; the limit was already reported (R306). -/
  start : Nat := 0
  ovr : Bool := false
  /-- The owner entered RECLAIM: the response is discarded (R112). -/
  drop : Bool := false
  /-- Port on which the command arrived (R106). -/
  port : Option Nat := none
  /-- Its effect is made, and its answer waits for the end of what it began. -/
  wait : Bool := false
  /-- Status and result that an engine has given for a table command (R335); figures of a command that goes on in steps. -/
  eng : Option (Nat × List Byte) := none
  work : List Nat := []
  deriving DecidableEq, Repr

/-- One queued event (R310). -/
structure Event where
  type : Nat := 0
  eseq : Nat := 0
  dt : Nat := 0
  body : List Byte := []
  deriving DecidableEq, Repr

/-- A SLOT_BUSY answer held (R307): SLOT, SEQ and OPCODE of the rejected command, and its port. -/
structure Reject where
  slot : Nat := 0
  seq : Nat := 0
  opcode : Nat := 0
  port : Nat := 0
  deriving DecidableEq, Repr

/-- One mailbox beside its slot pairs (R307, R311). -/
structure Mbox where
  evq : List Event := []
  eseq : Nat := 0
  lost : Nat := 0
  rejects : List Reject := []
  deriving DecidableEq, Repr

/-- Activation in progress (R315, R316). -/
inductive ActSt where
  | none | waiting | reverting
  deriving DecidableEq, Repr

/-- Heartwood and the mailboxes. -/
structure MboxU where
  /-- Slot pair `i` of owner `o` at key `8 * o + i`. -/
  pair : Tab Pair := []
  mb : Tab Mbox := []
  /-- HW_STATUS.FW_STATE: 0 ROM, 1 running, 2 paused, 3 restarting, 4 held after FS160 (R318). -/
  fwState : Nat := 0
  /-- Image running: false A, true B. -/
  image : Bool := false
  trial : Bool := false
  ver : Nat := 0
  /-- DT by which firmware must service the watchdog (R300). -/
  wdog : Option Nat := none
  /-- Update session: owner, bytes expected, bytes written, verified (R347). -/
  updOpen : Option Nat := none
  updLen : Nat := 0
  updBytes : Tab Byte := []
  updOk : Bool := false
  /-- Activation: state, the pair that asked, its 100 ms limit; trial confirm deadline, old version, activating owner. -/
  act : ActSt := .none
  actPair : Nat := 0
  actBy : Option Nat := none
  confirmBy : Option Nat := none
  oldVer : Nat := 0
  actOwner : Nat := 0
  deriving DecidableEq, Repr

/-- One telemetry record beside INDEX and KIND (R485): its DT and the 16 bytes from offset 16; `bad` when its SRAM
bytes are uncorrectable (R246). -/
structure TeleRec where
  index : Nat := 0
  dt : Nat := 0
  bytes : List Byte := []
  bad : Bool := false
  deriving DecidableEq, Repr

/-- The telemetry store and the counter snapshot (R483, R484). -/
structure TelemU where
  /-- Record of kind `k` in ring slot `i` at key `65536 * k + i`. -/
  ring : Tab TeleRec := []
  next : Tab Nat := []
  /-- Counters at the last snapshot, by the key of their _LO register. -/
  ctrHold : Tab Nat := []
  /-- Audit registers at the last snapshot, by register key. -/
  audHold : Tab Nat := []
  /-- Mutual-exclusion elements: unit times 2^32 plus instance, to the DT of the last happening, plus 1, who it was, and its AUX (R259). -/
  arb : Tab (Nat × Nat × Nat) := []
  snapSeq : Nat := 0
  snapDt : Nat := 0
  snapSrc : Nat := 0
  deriving DecidableEq, Repr

end Sys2Proof.Machine
end

