-- ==== Sys2Proof/Machine/StateLink.lean ====
section
/-!
DEFINITION. State of the lanes, octets, ports and partners (03_lanes, 04_cherek_link, 05_partners), as plain data.
Every field's default is its value after chip reset.
-/
namespace Sys2Proof.Machine

/-- The lane states of R59, in the order LANE_STATUS.STATE codes them (R66). -/
inductive LaneSt where
  | off | detect | train | lock | capx | active | quiet | deep | fail
  deriving DecidableEq, Repr

/-- Transmitter taps in 1/64 of full swing (R50). -/
structure Taps where
  pre2 : Int := 0
  pre1 : Int := 0
  main : Int := 0
  post1 : Int := 0
  deriving DecidableEq, Repr

/-- A LANE_PRBS command under way: slot pair, its end, bits checked, PRBS_ERR as it began, lock lost (R333). -/
structure PrbsJob where
  pair : Nat := 0
  by_ : Nat := 0
  bits : Nat := 0
  err0 : Nat := 0
  lost : Bool := false
  deriving DecidableEq, Repr

/-- What a receiver has adapted (R50, R51): its CTLE peaking in steps of 0.5 dB, its FFE and DFE taps. -/
structure RxEq where
  ctle : Nat := 0
  ffe : List Nat := []
  dfe : List Nat := []
  deriving DecidableEq, Repr

/-- One lane (R47 to R65). Times are DT deadlines; `none` is a timer that does not run. -/
structure Lane where
  st : LaneSt := .off
  failCount : Nat := 0
  failCause : Nat := 0
  /-- 8 consecutive failures: the lane waits in FAIL (R59). -/
  waiting : Bool := false
  /-- TRAIN, LOCK or CAPX timer, or the 10 ms of FAIL, or the next receiver-detect pulse in DETECT. -/
  timer : Option Nat := none
  /-- LOCK was entered from DEEP. -/
  fromDeep : Bool := false
  /-- End of the 100 µs of a DEEP exit (R61). -/
  deepBy : Option Nat := none
  /-- Consecutive pulses on which the far-end termination was sensed. -/
  pulses : Nat := 0
  /-- Consecutive decodable codewords in LOCK. -/
  goodCw : Nat := 0
  farLidx : Nat := 0
  farBkey : Nat := 0
  farQuiet : Bool := false
  farDeep : Bool := false
  rxpolInv : Bool := false
  /-- The far end asked for FEC in the capability exchange (R48). -/
  farFec : Bool := false
  /-- Consecutive frames whose LIDX differs from the one exchanged (R58). -/
  lidxMiss : Nat := 0
  /-- Consecutive uncorrectable codewords (R59). -/
  uncorrRun : Nat := 0
  /-- End of the error window in progress (R63). -/
  winEnd : Option Nat := none
  winUncorr : Nat := 0
  winCorr : Nat := 0
  /-- UNCORR_LIMIT and CORR_LIMIT in force for the window in progress (R67). -/
  limU : Nat := 0
  limC : Nat := 0
  taps : Taps := {}
  /-- SEQ, CMD and TAP of this receiver's last request, and whether it awaits its ECHO (R53, R54). -/
  reqSeq : Nat := 0
  reqCmd : Nat := 0
  reqTap : Nat := 0
  reqOpen : Bool := false
  /-- SEQ of the last far request applied, with its outcome (ECHO, STAT). -/
  echo : Nat := 0
  stat : Nat := 0
  /-- STAT of the far transmitter's answer to this receiver's last request. -/
  farStat : Nat := 0
  rxReadyOut : Bool := false
  rxReadyIn : Bool := false
  /-- The receiver's adapted values: following in TRAIN and ACTIVE, frozen in QUIET; and those stored over DEEP (R51). -/
  eq : Option RxEq := none
  eqStored : Option RxEq := none
  /-- LSIG sent in two frames from frame number `lsigAt` on (R59). -/
  lsig : Nat := 0
  lsigAt : Nat := 0
  /-- Frame number of the last request to return to ACTIVE, and of the request for QUIET or DEEP that took the lane from
  ACTIVE (R60). -/
  actAt : Option Nat := none
  restFr : Option Nat := none
  /-- DT of entry to QUIET or DEEP; the announced gap (R52). -/
  restAt : Option Nat := none
  gap : Bool := false
  /-- The PRBS checker: locked, error-free bits in a row while unlocked, ages of the errors of the last 1,024 bits (R65). -/
  prbsLock : Bool := false
  prbsGood : Nat := 0
  prbsErrs : List Nat := []
  /-- Pattern in use by the running generator and checker, 0 off (R65). -/
  genRun : Nat := 0
  chkRun : Nat := 0
  job : Option PrbsJob := none
  deriving DecidableEq, Repr

/-- What the receiver of a lane holds of its last frame (R46, R49, R71): whether one has come since the lane reached ACTIVE, its
FCNT and the DT of its arrival, its payload, marked bad where the codeword was uncorrectable, the flit slots the link layer has taken,
and the last 58 bits received, which the descrambler needs. -/
structure LaneIn where
  v : Bool := false
  /-- FCNT and its DT are known. -/
  fv : Bool := false
  fcnt : Nat := 0
  dt : Nat := 0
  bad : Bool := false
  payload : List Byte := []
  used : Nat := 0
  scr : Nat := 0
  deriving DecidableEq, Repr

/-- What a transmitter sends (R59). -/
inductive LaneSend where
  | idle | pulses | training | frames | prbs
  deriving DecidableEq, Repr

/-- The transmitter of a lane: the frame in formation (its control field and payload, or the training control word), the last 58
bits sent before it, which the scrambler needs, and the line code of the frame sent last (R46). -/
structure LaneOut where
  kind : LaneSend := .idle
  ctl : Nat := 0
  payload : List Byte := []
  scr : Nat := 0
  sent : Nat := 0
  deriving DecidableEq, Repr

/-- One octet (R43, R45, R497). The clause lies in LANE.OCT_CFG. -/
structure Octet where
  pllOn : Bool := false
  pllLock : Bool := false
  /-- DT at which the PLL last started. -/
  onAt : Nat := 0
  /-- Position of the transmit frame grid, fixed at each lock and not otherwise specified (R497). -/
  grid : Nat := 0
  deriving DecidableEq, Repr

/-- The port states of R97, in the order PORT_STATUS.STATE codes them (R100). -/
inductive PortSt where
  | off | bond | neg | init | up | restripe | hold | rest | fail
  deriving DecidableEq, Repr

/-- Receive side of one VC of a port (R81, R100). -/
structure RxVc where
  /-- Entries granted in the last INIT. -/
  pool : Nat := 0
  /-- Entries occupied. -/
  occ : Nat := 0
  /-- Entries freed since a fresh INIT, modulo 65,536 (CRED). -/
  freed : Nat := 0
  /-- Entries freed and not yet reported. -/
  unrep : Nat := 0
  deriving DecidableEq, Repr

/-- Transmit side of one VC of a port (R81). -/
structure TxVc where
  /-- Far-end grant, from the last INIT. -/
  pool : Nat := 0
  /-- Credits held. -/
  held : Nat := 0
  /-- Last CRED value seen. -/
  lastCred : Nat := 0
  deriving DecidableEq, Repr

/-- What a packet in transmission is, for the effects of its first and last flit. -/
inductive TxRef where
  /-- Fragment of the response to request `id`. -/
  | frag (id fidx : Nat)
  /-- MBOX_RSP of slot pair `slot`. -/
  | rsp (slot : Nat)
  /-- SLOT_BUSY answer, which uses no slot. -/
  | reject
  /-- Head event of the owner's queue. -/
  | event
  deriving DecidableEq, Repr

/-- A data flit as it arrives (R77): whether its CRC holds and its frame was good, SEQ, KIND, VC, payload. -/
structure DataFlit where
  crcOk : Bool := true
  kind : Nat := 0
  seq : Nat := 0
  vc : Nat := 0
  payload : List Byte := []
  deriving DecidableEq, Repr

/-- A STATUS flit as it arrives (R79). -/
structure StatusFlit where
  crcOk : Bool := true
  ctype : Nat := 1
  ackV : Bool := false
  nak : Bool := false
  ackSeq : Nat := 0
  cred0 : Nat := 0
  cred1 : Nat := 0
  cred2 : Nat := 0
  cred3 : Nat := 0
  deriving DecidableEq, Repr

/-- An INIT flit as it arrives (R79). -/
structure InitFlit where
  crcOk : Bool := true
  resume : Bool := false
  done : Bool := false
  nextSeq : Nat := 0
  expSeq : Nat := 0
  pool0 : Nat := 0
  pool1 : Nat := 0
  pool2 : Nat := 0
  pool3 : Nat := 0
  cred0 : Nat := 0
  cred1 : Nat := 0
  cred2 : Nat := 0
  cred3 : Nat := 0
  deriving DecidableEq, Repr

/-- A LANEMAP flit as it arrives (R79), with the frame count in which it is received. -/
structure LanemapFlit where
  crcOk : Bool := true
  stby : Nat := 0
  stbyV : Bool := false
  mask : Nat := 0
  eff : Nat := 0
  now : Nat := 0
  deriving DecidableEq, Repr

/-- A data flit kept in the replay buffer (R88). -/
structure Flit where
  seq : Nat := 0
  vc : Nat := 0
  bytes : List Byte := []
  deriving DecidableEq, Repr

/-- A packet begun on a VC and not yet wholly sent. -/
structure TxPkt where
  ref : TxRef
  partner : Nat := 0
  rest : List Byte := []
  first : Bool := true
  deriving DecidableEq, Repr

/-- The kind of flit last put in a slot (R77, R79). -/
inductive TxKind where
  | idle | data | status | lanemap | init | hello
  deriving DecidableEq, Repr

/-- What the transmitter put in its last slot: the port's visible output. -/
structure TxOut where
  kind : TxKind := .idle
  seq : Nat := 0
  vc : Nat := 0
  replay : Bool := false
  nak : Bool := false
  ackV : Bool := false
  ackSeq : Nat := 0
  bytes : List Byte := []
  deriving DecidableEq, Repr

/-- A mask proposal or planned change: MASK and EFF_FCNT (R79, R91, R92). -/
structure MaskProp where
  mask : Nat := 0
  eff : Nat := 0
  deriving DecidableEq, Repr

/-- One port (R68 to R98). -/
structure Port where
  st : PortSt := .off
  failCause : Nat := 0
  gen : Nat := 0
  /-- Lane order fixed by the first lane accepted: `some true` reversed (R57, R70). -/
  order : Option Bool := none
  bkey : Option Nat := none
  /-- Port lane indexes accepted, as a mask (R70). -/
  accepted : Nat := 0
  /-- BOND, NEG or RESTRIPE timer, or the 1 s of FAIL. -/
  timer : Option Nat := none
  /-- End of HOLD_MS since entering HOLD (R93). -/
  holdEnd : Option Nat := none
  /-- Resume state is held (R93). -/
  resume : Bool := false
  /-- First valid hello of this NEG: CHIPID, with the generation it negotiates. -/
  hello : Bool := false
  /-- GMIN and GMAX of that hello, as its byte 4 holds them. -/
  helloG : Nat := 0
  acked : Bool := false
  /-- Frame number from which the device sends flits, and FCNT from which the far end does (R74). -/
  flitAt : Option Nat := none
  farFlitAt : Option Nat := none
  /-- The receiver has switched to flit framing (R74). -/
  farOn : Bool := false
  chipid : Nat := 0
  partner : Option Nat := none
  /-- The partner manager allows DONE; an INIT with the device's own DONE has been sent; a valid far-end INIT is held (R97);
  DONE withheld by the partner manager (R104). -/
  doneOk : Bool := false
  doneSent : Bool := false
  initRx : Bool := false
  doneRx : Bool := false
  waitPm : Bool := false
  txMask : Nat := 0
  rxMask : Nat := 0
  stby : Option Nat := none
  /-- The standby was used and none has returned (R90). -/
  stbyUsed : Bool := false
  prop : Option MaskProp := none
  farProp : Option MaskProp := none
  /-- Planned change in progress (R92), answered or not; the lane index it rests in QUIET afterwards. -/
  plan : Option MaskProp := none
  planAns : Bool := false
  planRest : Option Nat := none
  /-- Rotation: next due DT and the lane index removed last (R92). -/
  rotAt : Option Nat := none
  rotIdx : Nat := 0
  /-- Frame number in which a LANEMAP was last sent (R92). -/
  fcnt : Nat := 0
  /-- Transmit: next new SEQ, the unacknowledged flits oldest first, how many of them a running replay has resent. -/
  txSeq : Nat := 0
  replay : List Flit := []
  replayPos : Option Nat := none
  replayCount : Nat := 0
  /-- Deadline REPLAY_NS after ACK_SEQ last advanced (R88). -/
  ackBy : Option Nat := none
  /-- Receive: EXP, SEQ last accepted, NAK outstanding and when it repeats, flits accepted since a STATUS (R86, R87). -/
  exp : Nat := 0
  lastAcc : Option Nat := none
  nakOut : Bool := false
  nakBy : Option Nat := none
  accSince : Nat := 0
  statusBy : Option Nat := none
  statusDue : Bool := false
  statusNak : Bool := false
  lanemapDue : Bool := false
  deriving DecidableEq, Repr

/-- The transmit path of one port: packets begun on VC1, VC2 and VC3, whose turn it is, the last flit sent (R85). -/
structure PortTx where
  p1 : Option TxPkt := none
  p2 : Option TxPkt := none
  p3 : Option TxPkt := none
  /-- VC2 has the next turn of the alternation. -/
  turn2 : Bool := false
  /-- Frame number of the frame set in formation, plus 1, and the number of its flit placed next (R72). -/
  set : Nat := 0
  next : Nat := 0
  out : TxOut := {}
  deriving DecidableEq, Repr

/-- The partner states of R110. -/
inductive PartnerSt where
  | free | attached | leaving | reclaim
  deriving DecidableEq, Repr

/-- One partner number (R102 to R116). -/
structure Partner where
  st : PartnerSt := .free
  /-- CHIPID held, or last held since CRST. -/
  chipid : Nat := 0
  /-- CHIPIDs that have held the number since the last CRST (R103). -/
  past : List Nat := []
  /-- LEAVE or RECLAIM timer. -/
  timer : Option Nat := none
  abrupt : Bool := false
  /-- Responses dropped, saturating at 255 (RC). -/
  rspDrop : Nat := 0
  /-- Without a spare port: the condition of R17 does not hold (R90). -/
  noSpare : Bool := false
  deriving DecidableEq, Repr

/-- Lanes, octets, ports and partners together. -/
structure LinkU where
  lane : Tab Lane := []
  lin : Tab LaneIn := []
  lout : Tab LaneOut := []
  oct : Tab Octet := []
  port : Tab Port := []
  rx : Tab RxVc := []
  tx : Tab TxVc := []
  ptx : Tab PortTx := []
  ptn : Tab Partner := []
  /-- The number that each CHIPID last held since the last CRST, plus 1 (R103). -/
  lastNo : Tab Nat := []
  deriving DecidableEq, Repr

end Sys2Proof.Machine
end

