-- ==== Sys2Proof/Machine/StateMem.lean ====
section
/-!
DEFINITION. State of the transaction layer, the storage, the queue manager, the Slalom engines, the DRAM channels,
data integrity, the regulation unit and the transfer engine (06 to 13), as plain data.
-/
namespace Sys2Proof.Machine

/-- The transaction opcodes of R124 that travel on VC0 and VC2. -/
inductive Opc where
  | read | write | writeMask | readLong
  | atomAdd | atomSwap | atomCas | atomAnd | atomOr | atomXor
  | emLookup | lpmLookup | emInsert | emDelete | count | police
  | csrRead | csrWrite | enqueue | dequeue | qstatus
  | xferClaim | xferStart | xferAppend | xferStop | xferRelease
  | unknown
  deriving DecidableEq, Repr

/-- Status codes of R132. -/
inductive Status where
  | ok | unsup | malformed | addr | denied | uncorr | late | departing | busy | notOwner | full | empty
  | tableFull | noService
  deriving DecidableEq, Repr

/-- A 64-byte unit returned by a read: its bytes and whether it was uncorrectable. -/
structure UnitVal where
  idx : Nat := 0
  bytes : List Byte := []
  bad : Bool := false
  deriving DecidableEq, Repr

/-- One response fragment of a request on its way from issue to staging (R141, R143). -/
structure FragSt where
  idx : Nat := 0
  /-- Accesses issued and not yet returned; completions formed and not yet delivered. -/
  pend : Nat := 0
  out : Nat := 0
  got : List UnitVal := []
  /-- Staging bytes reserved, from the partner's reserved share and from the shared part. -/
  rsv : Nat := 0
  shr : Nat := 0
  /-- DT at which its data were complete; its completion has been formed. -/
  doneDt : Option Nat := none
  deriving DecidableEq, Repr

/-- What a queue request reports or uses as of its stamp (R171, R172): the queue's flags, and its profile's number and values. -/
structure QSnap where
  full : Bool := false
  overrun : Bool := false
  drops : Nat := 0
  prof : Nat := 0
  qlimit : Nat := 0
  qwm : Nat := 0
  parkUs : Nat := 0
  deriving DecidableEq, Repr

/-- Phases of an admitted request. -/
inductive ReqSt where
  | waiting | issued | done | parked
  deriving DecidableEq, Repr

/-- One admitted request (R127 to R140). `ord` is its place in the recorded stamp order. -/
structure Req where
  id : Nat := 0
  ord : Nat := 0
  opc : Opc := .unknown
  opcRaw : Nat := 0
  ptn : Nat := 0
  port : Nat := 0
  vc : Nat := 0
  gen : Nat := 0
  stamp : Nat := 0
  tc : Nat := 0
  posted : Bool := false
  fence : Bool := false
  dropLate : Bool := false
  tag : Nat := 0
  addr : Nat := 0
  mod : Nat := 0
  len : Nat := 0
  dline : Nat := 0
  data : List Byte := []
  st : ReqSt := .waiting
  frags : List FragSt := []
  nextFrag : Nat := 0
  status : Status := .ok
  aux : Nat := 0
  /-- Response data once known as a whole (table results, atomics, dequeues, status records). -/
  resp : List Byte := []
  /-- The owner departed: the response is discarded (R112). -/
  depart : Bool := false
  /-- Table operations: descriptor in force at the stamp, home channel, context held, step made, step ready, best result. -/
  td : List Byte := []
  home : Nat := 0
  ctx : Bool := false
  step : Nat := 0
  ready : Bool := false
  /-- Units the operation has read, with their bytes and whether they were uncorrectable; accesses of the step not yet returned. -/
  sdata : List (Nat × List Byte × Bool) := []
  spend : Nat := 0
  node : Nat := 0
  pos : Nat := 0
  bestV : Bool := false
  best : Nat := 0
  blen : Nat := 0
  /-- Dequeue: cells taken (index, bytes held), and where its data begin. -/
  cells : List (Nat × Nat) := []
  sop : Bool := false
  eop : Bool := false
  poff : Nat := 0
  pktlen : Nat := 0
  linkDt : Nat := 0
  /-- Bytes of the whole response of a dequeue; descriptor units it has yet to read. -/
  rlen : Nat := 0
  dpend : Nat := 0
  /-- Queue requests: as of the stamp. -/
  snap : QSnap := {}
  /-- Execution has begun (R130); the first fragment has been sent (R179). -/
  begun : Bool := false
  sent : Bool := false
  /-- A table operation that firmware gave an engine: the slot pair whose command it serves, `8 * owner + slot` (R335). -/
  fw : Option Nat := none
  deriving DecidableEq, Repr

/-- Kinds of unit access (R225, R247). -/
inductive AccKind where
  | read | write | rmw
  deriving DecidableEq, Repr

/-- What an access belongs to. -/
inductive AccFor where
  /-- Fragment `frag` of request `id`. -/
  | req (id frag : Nat)
  /-- A cell write of enqueue `id`. -/
  | enq (id : Nat)
  /-- One unit of the step of table request `id`. -/
  | step (id : Nat)
  /-- A descriptor unit: written for enqueue `id`, written by an undone dequeue, read for dequeue `id` (R166, R179). -/
  | spill (id : Nat)
  | undo
  | refill (id u : Nat)
  /-- An access of the descriptor `seq` of transfer channel `x`; a write carries the last byte of `n` elements. -/
  | xfer (x seq n : Nat)
  /-- One zero-fill unit of a block (R155). -/
  | fill (blk : Nat)
  deriving DecidableEq, Repr

/-- One 64-byte DRAM access between its issue and its service (R224, R261 to R267). -/
structure Access where
  for_ : AccFor := .enq 0
  unit : Nat := 0
  /-- Unit index within its fragment. -/
  idx : Nat := 0
  kind : AccKind := .read
  /-- Bytes and enables of a write. -/
  bytes : List Byte := []
  mask : Nat := 0
  ord : Nat := 0
  stamp : Nat := 0
  tc : Nat := 0
  chipid : Nat := 0
  deadline : Option Nat := none
  dropLate : Bool := false
  pri : Nat := 0
  passes : Nat := 0
  arrive : Nat := 0
  deriving DecidableEq, Repr

/-- A completion formed for the result collector (R215): its source and what it carries. -/
inductive CompRef where
  /-- One access of fragment `fidx` of request `id`. -/
  | frag (id fidx : Nat)
  /-- The result of table request `id`. -/
  | table (id : Nat)
  /-- One unit of the running descriptor of a transfer channel. -/
  | desc (xc : Nat)
  /-- An access that firmware made for the command of a slot pair. -/
  | own (pair : Nat)
  deriving DecidableEq, Repr

/-- Slot a completion holds. -/
inductive SlotSt where
  | none | reserved | shared
  deriving DecidableEq, Repr

structure Comp where
  src : Nat := 0
  ref : CompRef
  slot : SlotSt := .none
  waited : Bool := false
  deriving DecidableEq, Repr

/-- A response fragment in staging, ready to be sent (R123, R141 to R144). -/
structure Frag where
  id : Nat := 0
  ord : Nat := 0
  stamp : Nat := 0
  ptn : Nat := 0
  port : Nat := 0
  vc : Nat := 0
  opc : Nat := 0
  status : Status := .ok
  tag : Nat := 0
  last : Bool := true
  late : Bool := false
  fidx : Nat := 0
  data : List Byte := []
  doneDt : Nat := 0
  aux : Nat := 0
  tc : Nat := 0
  rsv : Nat := 0
  shr : Nat := 0
  cells : List Nat := []
  begun : Bool := false
  /-- Codeword bits in error of its staged bytes, by offset (R245, R246). -/
  errs : List (Nat × Nat) := []
  deriving DecidableEq, Repr

/-- The transaction layer. -/
structure TxnU where
  reqs : List Req := []
  frags : List Frag := []
  comps : List Comp := []
  acc : List Access := []
  /-- Tags held: `4096 * partner + tag`. -/
  tags : List Nat := []
  nextId : Nat := 0
  nextOrd : Nat := 0
  /-- Stamp, partner and tag of the last request stamped (R128). -/
  last : Option (Nat × Nat × Nat) := none
  /-- Staging bytes held from each partner's reserved share, and from the shared part (R143). -/
  rsvUsed : Tab Nat := []
  shrUsed : Nat := 0
  /-- Requests that have found no room in the shared part, in that order. -/
  shrWait : List Nat := []
  deriving DecidableEq, Repr

/-- A fill of a DRAM block in progress (R155): block index and the mask of its units written or filled. -/
structure Fill where
  blk : Nat := 0
  mask : Nat := 0
  tc : Nat := 0
  chipid : Nat := 0
  deriving DecidableEq, Repr

/-- Storage. Bytes are keyed by place: `2^30 * channel + offset` for DRAM, the device address for stack SRAM. -/
structure MemU where
  bytes : Tab Byte := []
  /-- DRAM valid bits by block index, SRAM valid bits by word (address div 8) (R154). -/
  blkValid : Tab Bool := []
  wordValid : Tab Bool := []
  fills : List Fill := []
  /-- Pins in error of a stored unit, by place div 64; codeword bits in error of an SRAM byte (0 c4 ... 12). -/
  dErr : Tab Nat := []
  sErr : Tab Nat := []
  /-- Links of a channel that have failed in the package, as a 58-bit mask. -/
  badLink : Tab Nat := []
  /-- Poison list: places div 64 (R251). -/
  poison : List Nat := []
  /-- Evacuation map: block index to block index + 1 (R159); blocks lost (R438, R439). -/
  evac : Tab Nat := []
  lost : List Nat := []
  deriving DecidableEq, Repr

/-- A queue descriptor (R163). -/
structure Desc where
  cell : Nat := 0
  sop : Bool := false
  eop : Bool := false
  cbytes : Nat := 0
  pktlen : Nat := 0
  linkDt : Nat := 0
  deriving DecidableEq, Repr

/-- One queue (R165, R172). -/
structure Queue where
  occ : Nat := 0
  res : Nat := 0
  pkts : Nat := 0
  full : Bool := false
  overrun : Bool := false
  wmArmed : Bool := true
  frozen : Bool := false
  headMid : Bool := false
  drops : Nat := 0
  head : List Desc := []
  /-- Middle: descriptor units in order, each with its unit index. -/
  mid : List (Nat × List Desc) := []
  tail : List Desc := []
  deriving DecidableEq, Repr

/-- An admitted enqueue (R175). -/
structure OpenEnq where
  id : Nat := 0
  q : Nat := 0
  len : Nat := 0
  need : Nat := 0
  ptn : Nat := 0
  port : Nat := 0
  tag : Nat := 0
  posted : Bool := false
  stamp : Nat := 0
  ord : Nat := 0
  tc : Nat := 0
  chipid : Nat := 0
  dline : Nat := 0
  /-- QWM at the stamp (R171). -/
  qwm : Nat := 0
  /-- DROP_LATE, and whether the first cell write has been issued (R130). -/
  dropLate : Bool := false
  begun : Bool := false
  /-- Descriptor units taken and written for it, and their writes not yet landed (R175). -/
  spill : List (Nat × List Desc) := []
  spillOut : Nat := 0
  /-- Bytes received so far, cells taken, and bytes of the cell now being filled. -/
  got : Nat := 0
  cells : List Nat := []
  buf : List Byte := []
  /-- Cells whose writes are issued; writes not yet landed; next channel of the rotation (R167). -/
  issued : Nat := 0
  out : Nat := 0
  ptr : Nat := 0
  fence : Bool := false
  /-- The owner departed: the response is discarded (R112). -/
  depart : Bool := false
  deriving DecidableEq, Repr

/-- A VC2 packet still arriving on a port: bytes yet to come, whether they belong to an admitted enqueue, and its flits that wait in their
receive entries while the cell-write buffers are full (R84). -/
structure Arriving where
  left : Nat := 0
  enq : Option Nat := none
  wait : List (List Byte) := []
  deriving DecidableEq, Repr

/-- A parked dequeue (R180 to R182). -/
structure Park where
  id : Nat := 0
  q : Nat := 0
  ptn : Nat := 0
  end_ : Nat := 0
  shared : Bool := false
  deriving DecidableEq, Repr

/-- The queue manager. -/
structure QmU where
  queue : Tab Queue := []
  opens : List OpenEnq := []
  arriving : Tab Arriving := []
  parks : List Park := []
  /-- Cells and descriptor units not in a free list. -/
  cellUsed : List Nat := []
  unitUsed : List Nat := []
  cellTotal : Nat := 0
  cellFree : Nat := 0
  cellQueued : Nat := 0
  cellInfl : Nat := 0
  descTotal : Nat := 0
  descFree : Nat := 0
  descInuse : Nat := 0
  /-- Rotating pointers (R167). -/
  ptrCell : Nat := 0
  ptrUnit : Nat := 0
  /-- A CELL shrink pending: the new cell and unit totals (R185). -/
  shrink : Option (Nat × Nat) := none
  moving : Bool := false
  deriving DecidableEq, Repr

/-- One Slalom engine (R192, R196). Lengths in units of 0.1 ps. -/
structure Engine where
  gate : Nat := 0
  sum : Nat := 0
  issued : Nat := 0
  roundLast : Nat := 0
  roundMax : Nat := 0
  deriving DecidableEq, Repr

/-- The Slalom engines and the result collector. -/
structure SlaU where
  eng : Tab Engine := []
  /-- Largest number of contexts held on a channel since PEAK was last read. -/
  peak : Tab Nat := []
  passStart : Nat := 0
  passDelivered : Nat := 0
  deriving DecidableEq, Repr

/-- Channel states of R237. -/
inductive ChSt where
  | active | selfref | degraded | retired
  deriving DecidableEq, Repr

/-- Self-refresh signal awaiting acknowledgement (R232, R234). -/
inductive SrSig where
  | sre | srx
  deriving DecidableEq, Repr

/-- Gaps of a channel (R235). -/
inductive GapKind where
  | idle | forced
  deriving DecidableEq, Repr

/-- One bank: open row with its last column command and the end of its coalescing window, the earliest precharge, and the next time an
activate is allowed. Times in units of 0.25 ns of DT. -/
structure Bank where
  row : Option Nat := none
  /-- Earliest column command (tRCD), and the time of the last one. -/
  colAt : Nat := 0
  close : Nat := 0
  pre : Nat := 0
  ready : Nat := 0
  deriving DecidableEq, Repr

/-- One vertical link of a channel (R236, R239). -/
structure VLink where
  eye : Nat := 0
  deskew : Nat := 0
  vref : Nat := 0
  low : Bool := false
  deriving DecidableEq, Repr

/-- A targeted refresh due: bank, row, DT by which it falls due (R230). -/
structure Trr where
  bank : Nat := 0
  row : Nat := 0
  by_ : Nat := 0
  deriving DecidableEq, Repr

/-- A column command of a channel: its time in units of 0.25 ns, its bank group, and whether it writes. -/
structure ColCmd where
  at_ : Nat := 0
  bg : Nat := 0
  wr : Bool := false
  deriving DecidableEq, Repr

/-- One DRAM channel (R220 to R237, R242, R243, R248). -/
structure Chan where
  st : ChSt := .active
  /-- State to return to from SELFREF. -/
  wasDegraded : Bool := false
  failed : Bool := false
  band : Nat := 0
  catchup : Option Nat := none
  /-- Band to apply when a catch-up ends in a lower band. -/
  nextBand : Option Nat := none
  paced : Bool := false
  lastPulse : Option Nat := none
  wdrain : Bool := false
  rdq : List Access := []
  wrq : List Access := []
  debt : Nat := 0
  ptr : Nat := 0
  /-- End of the refresh interval in progress, in units of 1/524,288 ns of DT. -/
  refAt : Nat := 32000000
  /-- DT since which the layer has stayed below the boundaries of B1 and of B2 by HYST_C (R229). -/
  b0Since : Option Nat := none
  b1Since : Option Nat := none
  /-- Times of the last 16 activations, in units of 0.25 ns, the bank group of the last one, the column commands that may still hold back
  another, and the first command after a self-refresh exit (R221, R222). -/
  acts : List Nat := []
  actBg : Nat := 0
  cols : List ColCmd := []
  notBefore : Nat := 0
  trr : List Trr := []
  sr : Option SrSig := none
  srAt : Nat := 0
  /-- DT at which self-refresh was entered (R248). -/
  srIn : Nat := 0
  /-- SRX follows, for a block reset or the end of a clock hold. -/
  srxNext : Bool := false
  /-- Self-refresh is to be entered once the queues are empty (R233). -/
  srWait : Bool := false
  /-- Next refresh on the layer's own timer, and next pulse due, in units of 1/524,288 ns of DT (R232). -/
  layerAt : Nat := 0
  pulseAt : Nat := 0
  gap : Option GapKind := none
  gapEnd : Nat := 0
  idleAt : Option Nat := some 0
  lastGap : Nat := 0
  trainAt : Nat := 0
  markA : Option Nat := none
  markB : Option Nat := none
  markFull : Bool := false
  groomOff : Nat := 0
  groomStart : Nat := 0
  /-- DRAM_PASS_MIN of the pass in progress (R257). -/
  groomMin : Nat := 60
  fgSlots : Nat := 0
  deriving DecidableEq, Repr

/-- The DRAM channels. -/
structure DramU where
  ch : Tab Chan := []
  /-- Bank `b` of channel `c` at key `64 * c + b`. -/
  bank : Tab Bank := []
  link : Tab VLink := []
  /-- Row tracker: rows and counts of bank `b` of channel `c` (R230). -/
  track : Tab (List (Nat × Nat)) := []
  deriving DecidableEq, Repr

/-- One error-log entry (R253). -/
structure ELog where
  dt : Nat := 0
  addr : Nat := 0
  space : Nat := 0
  kind : Nat := 0
  source : Nat := 0
  channel : Nat := 0
  pinA : Option Nat := none
  pinB : Option Nat := none
  sbyte : Nat := 0
  sbit : Nat := 0
  partner : Option Nat := none
  unread : Bool := false
  deriving DecidableEq, Repr

/-- Data integrity beside the storage itself. -/
structure EccU where
  elog : Tab ELog := []
  elogNext : Nat := 0
  elogOvf : Bool := false
  /-- Corrected units of each channel, and SRAM bytes (key 64), in the CE window; the ends
  of the windows. -/
  ceWin : Tab Nat := []
  ceEnd : Tab Nat := []
  /-- CE_LIMIT of each window in progress (R257), and uncorrectable units of each channel (R252). -/
  ceLim : Tab Nat := []
  chUe : Tab Nat := []
  /-- Units at which corrections located a pin in the MARK window: (64 * channel + pin) to the units. -/
  markWin : Tab (List Nat) := []
  markEnd : Tab Nat := []
  dramBehind : List Nat := []
  sramBehind : Bool := false
  /-- Length in minutes of the last completed pass of each channel (R256). -/
  dramLast : Tab Nat := []
  sramPtr : Nat := 0
  sramStart : Nat := 0
  /-- The SRAM pass has ended and the next has yet to begin; SRAM_PASS_S of the pass. -/
  sramDone : Bool := false
  sramSec : Nat := 600
  deriving DecidableEq, Repr

/-- A reservation as the epoch in progress serves it (R262, R272): its place in the record, b_e and b'_e. -/
structure RsvNow where
  idx : Nat := 0
  chipid : Nat := 0
  tc : Nat := 0
  rate : Nat := 0
  b : Nat := 0
  bNow : Nat := 0
  deriving DecidableEq, Repr

/-- The regulation unit (R258 to R273). -/
structure RegU where
  /-- Epoch last computed, and the epoch whose charges stand. -/
  epoch : Nat := 0
  chargeEpoch : Nat := 0
  /-- Charge of (entry, channel) in the epoch at key `64 * entry + channel`. -/
  charge : Tab Nat := []
  rsv : List RsvNow := []
  /-- K(c) of R272 in 1/65,536. -/
  kScale : Tab Nat := []
  /-- G(ch) of the epoch. -/
  g : Tab Nat := []
  gmin : Nat := 49782
  n : Nat := 64
  bind : Nat := 0
  scaled : Bool := false
  causes : Nat := 0
  /-- SHARE, and BE_SPLIT, STOP0, STOP1 and URGENT_NS, in force for the epoch (R276). -/
  share : Nat := 30
  cfg : Nat := 4 * 256 + 5 * 4096 + 6 * 65536
  urgent : Nat := 2000
  /-- End of each owner's RESCALE gap, and the CHIPIDs whose changes it holds back. -/
  gapEnd : Tab Nat := []
  heldChg : Tab (List Nat) := []
  /-- Admitted fraction of each DRAM layer as numerator and denominator (R399), as the thermal unit gives it. -/
  admitted : Tab (Nat × Nat) := []
  deriving DecidableEq, Repr

/-- States of a transfer channel (R292, R298). -/
inductive XcSt where
  | free | idle | run | chainWait | draining
  deriving DecidableEq, Repr

/-- What a running channel does next. -/
inductive XcPh where
  | fetch | moving | link | stop
  deriving DecidableEq, Repr

/-- A descriptor whose accesses are issued and whose completion is to be posted; `out` of its writes have not landed. -/
structure XcDone where
  seq : Nat := 0
  out : Nat := 0
  addr : Nat := 0
  user : Nat := 0
  evt : Bool := false
  deriving DecidableEq, Repr

/-- One transfer channel (R277 to R295). -/
structure Xc where
  st : XcSt := .free
  owner : Option Nat := none
  code : Nat := 0
  cur : Nat := 0
  ph : XcPh := .fetch
  desc : List Byte := []
  /-- Destination units made so far, elements done. -/
  pos : Nat := 0
  done : Nat := 0
  /-- Number of the descriptor in progress, its writes not yet landed, and reads outstanding. -/
  seq : Nat := 0
  wout : Nat := 0
  pend : Nat := 0
  /-- The holding register: units read for the step in progress, by unit number, none where uncorrectable. -/
  hold : List (Nat × Option (List Byte)) := []
  /-- GATHER: indexes of the elements of the step, once read; TRANSPOSE: units of the block written so far. -/
  idx : Option (List Nat) := none
  sub : Nat := 0
  waitAt : Option Nat := none
  finished : List XcDone := []
  /-- Requests whose answers are held until IDLE or FREE, and whether the release is pending; departure. -/
  heldReq : List Nat := []
  release : Bool := false
  silent : Bool := false
  deriving DecidableEq, Repr

/-- The transfer engine, with XC31's evacuation run (R296, R438). -/
structure XferU where
  xc : Tab Xc := []
  /-- XC31's descriptors in Heartwood's private SRAM, by offset (R279). -/
  hwDesc : Tab (List Byte) := []
  /-- Next channel of the rotation over the targets of evacuation. -/
  evacPtr : Nat := 0
  deriving DecidableEq, Repr

end Sys2Proof.Machine
end

