-- ==== Sys2Proof/Machine/StateRas.lean ====
section
/-!
DEFINITION. State of the thermal unit and calibration (18), grafting, self-test and wear (20), the OTP controller and
the fuses (21), the boot flash and start-up (23), and the management port and JTAG (22), as plain data.
-/
namespace Sys2Proof.Machine

/-- One temperature sensor (R391 to R393); readings in 1/16 °C. -/
structure Sensor where
  reading : Int := 0
  valid : Bool := false
  broken : Bool := false
  /-- DT of its last conversion, and consecutive readings in range since it broke. -/
  lastAt : Nat := 0
  good : Nat := 0
  deriving DecidableEq, Repr

/-- Coefficients of the neighbour model of one layer (R395): weights in 1/256, THETA in 1/64 °C per W, OFS in 1/4 °C. -/
structure Coef where
  wlo : Nat := 128
  whi : Nat := 128
  theta : Nat := 16
  ofs : Int := 0
  deriving DecidableEq, Repr

/-- One layer (R394 to R397); temperatures in 1/16 °C. -/
structure LayerT where
  temp : Int := 0
  src : Nat := 0
  suspect : Bool := false
  /-- Consecutive evaluations toward suspicion, and toward clearing it. -/
  count : Nat := 0
  clear : Nat := 0
  pred : Option Int := none
  /-- P_n in 0.1 W. -/
  power : Nat := 0
  /-- Evaluations in the rise window: DT and temperature. -/
  hist : List (Nat × Int) := []
  /-- DT until which a rise trip stays in force. -/
  rise : Option Nat := none
  deriving DecidableEq, Repr

/-- One calibration domain (R404 to R407). -/
structure CalDom where
  fails : Nat := 0
  pending : Bool := false
  suspended : Bool := false
  refT : Int := 0
  /-- DT at which the running step began, and the reference reading at the start of the run. -/
  step : Option Nat := none
  inRun : Bool := false
  startT : Int := 0
  /-- A run has succeeded (R405), and the limit in ns that the running step began with (R411). -/
  ran : Bool := false
  lim : Nat := 0
  deriving DecidableEq, Repr

/-- The thermal unit. -/
structure ThermU where
  sensor : Tab Sensor := []
  layer : Tab LayerT := []
  coef : Tab Coef := []
  dom : Tab CalDom := []
  hottest : Nat := 0
  hotT : Int := 0
  noTrim : Bool := false
  envelope : Bool := false
  alarm : Bool := false
  /-- Thermal shutdown was made: BOOT holds (R403). -/
  shut : Bool := false
  throttling : Bool := false
  /-- DT of the last evaluation, and the first cycle that has had none (R394). -/
  evalAt : Nat := 0
  evalNext : Nat := 0
  /-- DT from which THROTTLE_NS has yet to count. -/
  throtAt : Nat := 0
  /-- Every domain has been triggered at the first entry to SERVICE after BOOT (R405). -/
  calFirst : Bool := false
  deriving DecidableEq, Repr

/-- One spare link or trunk spare: the link or signal it replaces (0x3F: withdrawn), in use, burned. -/
structure Spare where
  link : Nat := 0
  v : Bool := false
  fused : Bool := false
  deriving DecidableEq, Repr

/-- A row graft (R434): channel, bank, row, spare index in the subarray. -/
structure RowGraft where
  ch : Nat
  bank : Nat
  row : Nat
  spare : Nat
  deriving DecidableEq, Repr

/-- An entry of the row correction table (R434): bank, row, and the units with corrected errors in the window. -/
structure RowCe where
  bank : Nat := 0
  row : Nat := 0
  units : List Nat := []
  count : Nat := 0
  deriving DecidableEq, Repr

/-- Evacuation figures of one channel (R437, R438, R450). -/
structure Evac where
  /-- Degraded: evacuation of the channel is wanted. -/
  want : Bool := false
  run : Bool := false
  stuck : Bool := false
  /-- DT at which hardware made the channel DEGRADED, until firmware has started the evacuation (R323). -/
  trig : Option Nat := none
  moveDone : Bool := false
  done : Nat := 0
  total : Nat := 0
  deriving DecidableEq, Repr

/-- The grafting, self-test and wear units. -/
structure GraftU where
  /-- Spare `52 + n` of channel `c` at key `8 * c + n`; group spare `g` of tier `t` at key `32 * t + g`. -/
  spare : Tab Spare := []
  trunk : Tab Spare := []
  rows : List RowGraft := []
  rowCe : Tab (List RowCe) := []
  rowEnd : Tab Nat := []
  /-- ROW_CE as the window in progress on a channel began with it (R451). -/
  rowLim : Tab Nat := []
  /-- Column grafts made from the fuses (R455), as entry words. -/
  cols : List Nat := []
  evac : Tab Evac := []
  /-- Deadline of the next repair record write, its SEQ in force and the copy that holds it (R441). -/
  repairBy : Option Nat := none
  repairSeq : Nat := 0
  repairCopy : Nat := 0
  sdtValid : Bool := false
  longRan : Bool := false
  sdtFail : Nat := 0
  sdtSeq : Nat := 0
  sdtOutcome : Nat := 0
  /-- Stress in 2^-32 s of link `l` of channel `c` at key `64 * c + l`, of trunk signal `s` of tier `t` at key
  `2048 * t + s` and of group spare `g` at `8192 + 32 * t + g`, of subarray `256 * c + s` (R446); those that have reached the limit. -/
  stress : Tab Nat := []
  trunkStress : Tab Nat := []
  subStress : Tab Nat := []
  atLimit : List Nat := []
  trunkLimit : List Nat := []
  subLimit : List Nat := []
  /-- Bursts of each channel and activations of each subarray in the second in progress. -/
  bursts : Tab Nat := []
  acts : Tab Nat := []
  wearAt : Nat := 0
  wearSector : Nat := 0
  wearSeq : Nat := 0
  wearHour : Nat := 0
  deriving DecidableEq, Repr

/-- What a wear record holds: its sequence and every S (R447). -/
structure WearRec where
  seq : Nat := 0
  stress : Tab Nat := []
  trunkStress : Tab Nat := []
  subStress : Tab Nat := []
  deriving DecidableEq, Repr

/-- The life-cycle states of R466, in the order OTP_STATUS.LC codes them (R324). -/
inductive LcSt where
  | manufacture | provision | field | return | ended
  deriving DecidableEq, Repr

/-- The OTP controller (R456 to R464); masks are by region. -/
structure OtpU where
  lc : LcSt := .manufacture
  lcAbsent : Bool := false
  lcTorn : Bool := false
  present : Nat := 0
  marginal : Nat := 0
  sealed : Nat := 0
  onecopy : Nat := 0
  /-- Shadow of word `w` of region `r` at key `64 * r + w`. -/
  shadow : Tab (Option Word) := []
  /-- Device CHIPID in use (R458), and word 2 of region 0 as taken: stepping and manufacturer ID (R453). -/
  chipid : Nat := 0
  word2 : Nat := 0
  /-- Lock fuses as last read, by region (R456, R470). -/
  wlock : Nat := 0
  rlock : Nat := 0
  /-- Cells near the threshold: at key `64 * r + w`, bit 0 where copy A does not read the same at both margins, bit 1
  copy B (R456). The array's physical state, as last sensed. -/
  unst : Tab Nat := []
  /-- The sweep running has reached this word; a further sweep is marked; DT of the last start (R460). -/
  sweep : Option Nat := none
  sweepNext : Bool := false
  sweepAt : Option Nat := none
  /-- Programming window: its end (R462). -/
  win : Option Nat := none
  lastWord : Nat := 0
  lastRegion : Nat := 0
  deriving DecidableEq, Repr

/-- The fuses (R452): burned bits of the two copies of each word, and of the two copies of the lock fuses. -/
structure Fuses where
  a : Tab Word := []
  b : Tab Word := []
  wlA : Nat := 0
  wlB : Nat := 0
  rlA : Nat := 0
  rlB : Nat := 0
  deriving DecidableEq, Repr

/-- The management port, JTAG and what a register access last returned (R479, R480, R474). -/
structure MgmtU where
  /-- Dynamic I3C address. -/
  dyn : Option Nat := none
  /-- Bytes the last read frame or CCC returned; the last frame failed (NAK or wrong PEC). -/
  out : List Byte := []
  nak : Bool := false
  /-- CSR_ACC: busy, read data and status. -/
  jData : Word := 0
  jStatus : Nat := 0
  /-- The last register access: its status (R132), value read. -/
  accStatus : Nat := 0
  accValue : Word := 0
  deriving DecidableEq, Repr

/-- Start-up and the boot flash (R488 to R493). -/
structure BootU where
  flash : Tab Byte := []
  /-- The wear records in the 16 flash sectors of R447, whose layout the manual does not give. -/
  wear : Tab (Option WearRec) := []
  quad : Bool := false
  addr4 : Bool := false
  div : Nat := 8
  /-- Boot list entries not yet posted; one waits for its answer, and the status of that answer. -/
  list : List (List Byte) := []
  listWait : Bool := false
  listStat : Option Nat := none
  /-- What the ROM loader was given while it waits for the ring (R38); the image slot it has chosen; the test it has run. -/
  env : Option BootEnv := none
  chosen : Option Nat := none
  test : TestRes := {}
  testSet : Nat := 0
  /-- Step 9 of R491 has ended. -/
  ready : Bool := false
  deriving DecidableEq, Repr

end Sys2Proof.Machine
end

