-- ==== Sys2Proof/Machine/StateSys.lean ====
section
/-!
DEFINITION. State of modes, clocks, device time and configuration generations (16, 17) and of the pins (02), as
plain data.
-/
namespace Sys2Proof.Machine

/-- The modes of R371, in the order their codes run (R327). -/
inductive Mode where
  | boot | maint | service | drain | doze | retain
  deriving DecidableEq, Repr

/-- Sources of device time (R381), in the order CLK_STATUS.DT_SRC codes them. -/
inductive DtSrc where
  | pll | divider | ring | frozen
  deriving DecidableEq, Repr

/-- What a mode transition in progress waits for (R327, R372). -/
inductive MovePh where
  | ready | draining | entering
  deriving DecidableEq, Repr

/-- A mode transition in progress: its start mode, target, lanes choice, owner and cause, limit and slot pair. -/
structure Move where
  from_ : Mode
  tgt : Mode
  deep : Bool := false
  shutdown : Bool := false
  owner : Nat := 0
  cause : Nat := 0
  by_ : Option Nat := none
  ph : MovePh := .ready
  /-- Slot pair that asked, as `8 * owner + slot`. -/
  pair : Option Nat := none
  /-- Shut-down test (R443): what its tests find, and whether the flash takes the record. -/
  test : TestRes := {}
  recOk : Bool := true
  deriving DecidableEq, Repr

/-- Modes, clocks and device time. -/
structure ClkU where
  mode : Mode := .boot
  /-- Entry DT of the mode in force (R373). -/
  entryDt : Nat := 0
  move : Option Move := none
  dozeDeep : Bool := false
  /-- The mode RETAIN was entered from MAINT: the census is off (R371). -/
  censusOff : Bool := true
  dt : Nat := 0
  dtSrc : DtSrc := .pll
  /-- DT has started counting: the time-base PLL has locked since RESET_N rose (R381). -/
  dtRun : Bool := false
  /-- REFCLK measured at reset: 0 none, 1 156.25 MHz, 2 312.5 MHz (R30, R389). -/
  refclk : Nat := 0
  refOk : Bool := true
  tbLock : Bool := false
  hwLock : Bool := false
  mgLock : Bool := false
  tbPll : Bool := false
  hwPll : Bool := false
  mgPll : Bool := false
  hold : Bool := false
  tripDt : Nat := 0
  /-- DT at which the clock hold in progress began. -/
  holdAt : Nat := 0
  /-- Keep-alive ring (R383, R385): started, settled, failed, cause of the start, period in 2^-16 ns, DT of the start. -/
  ringOn : Bool := false
  ringSettled : Bool := false
  ringFailed : Bool := false
  ringCause : Nat := 0
  ringPeriod : Nat := 0
  ringAt : Nat := 0
  /-- DT at which the ring last settled. -/
  ringDt : Nat := 0
  /-- Heartwood's island is stopped in RETAIN (R380); the management island is stopped. -/
  hwStopped : Bool := false
  mgStopped : Bool := false
  mgIdleAt : Nat := 0
  /-- SYS_CRST has been answered: DT at which CRST is applied (R325). -/
  crstAt : Option Nat := none
  /-- GATE_CFG in force, as taken at the last entry to a mode (R390). -/
  gateNow : Nat := 0x7110
  deriving DecidableEq, Repr

/-- A generation slot (R359). -/
structure Slot where
  present : Bool := false
  gen : Nat := 0
  length : Nat := 0
  crc : Nat := 0
  /-- Flash area holding it: 0 X, 1 Y, 2 Z. -/
  area : Nat := 0
  bytes : List Byte := []
  deriving DecidableEq, Repr

/-- States of the configuration unit, in the order CFG_STATE.STATE codes them (R364, R370). -/
inductive CfgSt where
  | confirmed | pending | committing | rollingBack
  deriving DecidableEq, Repr

/-- Configuration generations. -/
structure CfgU where
  st : CfgSt := .confirmed
  staged : Slot := {}
  active : Slot := {}
  previous : Slot := {}
  checked : Bool := false
  /-- Staging session: owner, announced GEN and LENGTH; the bytes written, each marked 1. -/
  session : Option Nat := none
  sesGen : Nat := 0
  sesLen : Nat := 0
  sesBytes : Tab Byte := []
  /-- Commit in progress or pending: slot pair, owner, window, what it ignored. -/
  pair : Option Nat := none
  owner : Nat := 0
  window : Nat := 0
  commitDt : Nat := 0
  deadline : Nat := 0
  /-- The rollback in progress is automatic; it returns the device to SERVICE (R365). -/
  auto : Bool := false
  back : Bool := false
  deriving DecidableEq, Repr

/-- Pins and supplies (02), and the registers of the GLOBAL block that record them. -/
structure PinU where
  /-- PWRGD, RESET_N and TRST_N, which internal pull-downs hold low until they are driven (R29). -/
  pwrgd : Bool := false
  resetN : Bool := false
  trstN : Bool := false
  /-- Power is up and the device has yet to boot for the first time (R38). -/
  cold : Bool := true
  straps : Nat := 0
  thermN : Bool := false
  /-- VPROG was above 0.3 V outside a programming step and is not yet 1 ms back (R37); VPROG is raised for a programming step. -/
  vprogBad : Bool := false
  vprogOk : Bool := false
  /-- VPROG lies above 0.3 V, in a programming step or not. -/
  vprogUp : Bool := false
  /-- VDD_CORE request and value in force, in mV; DT of the request (R35). -/
  vreq : Nat := 800
  vforce : Nat := 800
  vreqDt : Nat := 0
  /-- VDD_CORE in mV that the work rate suits: lowered before a lower request is published, raised with the report of a higher one (R35). -/
  vwork : Nat := 800
  /-- Request in force as RETAIN was entered, which its exit restores (R376). -/
  vsave : Nat := 800
  resetCause : Nat := 0
  resetSource : Nat := 0
  bootHold : Nat := 0
  deriving DecidableEq, Repr

end Sys2Proof.Machine
end

