-- ==== Sys2Proof/Machine/State.lean ====
section
/-!
DEFINITION. The state of the block: plain data, holding every register, buffer, counter, mode and pin the manual gives
it, the fuses, and the queue of commands that wait.
-/
namespace Sys2Proof.Machine

/-- Why a step stops with a fault. -/
inductive Fault where
  /-- Raised by any command whose operand names an instance the device does not have (a lane above 143, a channel
  above 63, ...). Safe: no such command can reach the device. -/
  | noSuchInstance
  deriving DecidableEq, Repr

/-- Why a command has no meaning. -/
inductive Refusal where
  /-- Raised by the dispatch for a command whose meaning is not written. Safe. -/
  | notModelled (mnemonic : String)
  deriving DecidableEq, Repr

/-- Everything but the fuses and the queue of waiting commands. -/
structure Dev where
  pin : PinU := {}
  clk : ClkU := {}
  cfg : CfgU := {}
  link : LinkU := {}
  fault : FaultU := {}
  mbox : MboxU := {}
  telem : TelemU := {}
  txn : TxnU := {}
  mem : MemU := {}
  qm : QmU := {}
  sla : SlaU := {}
  dram : DramU := {}
  ecc : EccU := {}
  reg : RegU := {}
  xfer : XferU := {}
  therm : ThermU := {}
  graft : GraftU := {}
  otp : OtpU := {}
  mgmt : MgmtU := {}
  boot : BootU := {}
  /-- Registers that hold a value of their own, by key. -/
  csr : Tab Word := []
  /-- Register key to the DT of its last hardware event, plus 1, and the bits set at that DT (R9). -/
  evt : Tab (Nat × Nat) := []
  /-- Register key of an RC field to the DT of its last event, plus 1, its value before the events of that DT, and what those events alone
  make of it (R9). -/
  rcv : Tab (Nat × Nat × Nat) := []
  /-- 64-bit counters, by the key of their _LO register. -/
  ctr : Tab Nat := []
  /-- Select copies: path index times 256 plus block. -/
  sel : Tab Nat := []
  /-- High-half latches: path index to the key of the _LO register read last, and the half latched. -/
  latch : Tab (Option (Nat × Nat)) := []
  /-- The next free value to be drawn (`Config.freeNat`). -/
  freeIx : Nat := 0
  deriving DecidableEq, Repr

/-- The state of the block. -/
structure State where
  dev : Dev := {}
  /-- The fuses: no path but a burn reaches them. -/
  fuse : Fuses := {}
  /-- Commands waiting, first in, first out. -/
  pending : List Instr := []
  deriving DecidableEq, Repr

/-- The machine right after reset: every register at its Reset column, mode BOOT, nothing listed, no command waiting. -/
def State.reset : State := {}

end Sys2Proof.Machine
end

