-- ==== Sys2Proof/Machine/Ops.lean ====
section
/-!
DEFINITION. The named operations over the state that every meaning uses: reading and changing one numbered unit,
registers, counters, free values, events and fault raises.
-/
namespace Sys2Proof.Machine

/-- Run an effect on the device when its operands name instances that exist. -/
def guardNext (ok : Bool) (f : Dev → Dev) (s : State) : Host.Outcome State Fault Refusal :=
  if ok then .next { s with dev := f s.dev } else .fault .noSuchInstance

/-- Device time (R381). -/
def Dev.dt (d : Dev) : Nat := d.clk.dt

/-- A timer deadline has come (R258): an expiry before its DT does not happen. -/
def due (t : Option Nat) (now : Nat) : Bool :=
  match t with
  | some e => decide (e ≤ now)
  | none => false

/-- Draw the next free value: nothing constrains it. -/
def Dev.draw (d : Dev) : Nat × Dev := (Config.freeNat d.freeIx, { d with freeIx := d.freeIx + 1 })

/-! ### Numbered units -/

def Dev.lane (d : Dev) (n : Nat) : Lane := tabGet (fun _ => {}) d.link.lane n
def Dev.modLane (d : Dev) (n : Nat) (f : Lane → Lane) : Dev :=
  { d with link := { d.link with lane := tabMod (fun _ => {}) d.link.lane n f } }
def Dev.lin (d : Dev) (n : Nat) : LaneIn := tabGet (fun _ => {}) d.link.lin n
def Dev.modLin (d : Dev) (n : Nat) (f : LaneIn → LaneIn) : Dev :=
  { d with link := { d.link with lin := tabMod (fun _ => {}) d.link.lin n f } }
def Dev.lout (d : Dev) (n : Nat) : LaneOut := tabGet (fun _ => {}) d.link.lout n
def Dev.modLout (d : Dev) (n : Nat) (f : LaneOut → LaneOut) : Dev :=
  { d with link := { d.link with lout := tabMod (fun _ => {}) d.link.lout n f } }
def Dev.oct (d : Dev) (n : Nat) : Octet := tabGet (fun _ => {}) d.link.oct n
def Dev.modOct (d : Dev) (n : Nat) (f : Octet → Octet) : Dev :=
  { d with link := { d.link with oct := tabMod (fun _ => {}) d.link.oct n f } }
def Dev.port (d : Dev) (n : Nat) : Port := tabGet (fun _ => {}) d.link.port n
def Dev.modPort (d : Dev) (n : Nat) (f : Port → Port) : Dev :=
  { d with link := { d.link with port := tabMod (fun _ => {}) d.link.port n f } }
def Dev.rx (d : Dev) (n vc : Nat) : RxVc := tabGet (fun _ => {}) d.link.rx (4 * n + vc)
def Dev.modRx (d : Dev) (n vc : Nat) (f : RxVc → RxVc) : Dev :=
  { d with link := { d.link with rx := tabMod (fun _ => {}) d.link.rx (4 * n + vc) f } }
def Dev.tx (d : Dev) (n vc : Nat) : TxVc := tabGet (fun _ => {}) d.link.tx (4 * n + vc)
def Dev.modTx (d : Dev) (n vc : Nat) (f : TxVc → TxVc) : Dev :=
  { d with link := { d.link with tx := tabMod (fun _ => {}) d.link.tx (4 * n + vc) f } }
def Dev.ptx (d : Dev) (n : Nat) : PortTx := tabGet (fun _ => {}) d.link.ptx n
def Dev.modPtx (d : Dev) (n : Nat) (f : PortTx → PortTx) : Dev :=
  { d with link := { d.link with ptx := tabMod (fun _ => {}) d.link.ptx n f } }
def Dev.ptn (d : Dev) (n : Nat) : Partner := tabGet (fun _ => {}) d.link.ptn n
def Dev.modPtn (d : Dev) (n : Nat) (f : Partner → Partner) : Dev :=
  { d with link := { d.link with ptn := tabMod (fun _ => {}) d.link.ptn n f } }
def Dev.src (d : Dev) (n : Nat) : Source := tabGet (fun _ => {}) d.fault.src n
def Dev.modSrc (d : Dev) (n : Nat) (f : Source → Source) : Dev :=
  { d with fault := { d.fault with src := tabMod (fun _ => {}) d.fault.src n f } }
def Dev.modFault (d : Dev) (f : FaultU → FaultU) : Dev := { d with fault := f d.fault }
def Dev.pair (d : Dev) (o i : Nat) : Pair := tabGet (fun _ => {}) d.mbox.pair (8 * o + i)
def Dev.modPair (d : Dev) (o i : Nat) (f : Pair → Pair) : Dev :=
  { d with mbox := { d.mbox with pair := tabMod (fun _ => {}) d.mbox.pair (8 * o + i) f } }
def Dev.mb (d : Dev) (o : Nat) : Mbox := tabGet (fun _ => {}) d.mbox.mb o
def Dev.modMb (d : Dev) (o : Nat) (f : Mbox → Mbox) : Dev :=
  { d with mbox := { d.mbox with mb := tabMod (fun _ => {}) d.mbox.mb o f } }
def Dev.modMbox (d : Dev) (f : MboxU → MboxU) : Dev := { d with mbox := f d.mbox }
def Dev.modClk (d : Dev) (f : ClkU → ClkU) : Dev := { d with clk := f d.clk }
def Dev.modPin (d : Dev) (f : PinU → PinU) : Dev := { d with pin := f d.pin }
def Dev.modCfg (d : Dev) (f : CfgU → CfgU) : Dev := { d with cfg := f d.cfg }
def Dev.modTxn (d : Dev) (f : TxnU → TxnU) : Dev := { d with txn := f d.txn }
def Dev.modMem (d : Dev) (f : MemU → MemU) : Dev := { d with mem := f d.mem }
def Dev.modQm (d : Dev) (f : QmU → QmU) : Dev := { d with qm := f d.qm }
def Dev.modEcc (d : Dev) (f : EccU → EccU) : Dev := { d with ecc := f d.ecc }
def Dev.modReg (d : Dev) (f : RegU → RegU) : Dev := { d with reg := f d.reg }
def Dev.queue (d : Dev) (q : Nat) : Queue := tabGet (fun _ => {}) d.qm.queue q
def Dev.modQueue (d : Dev) (q : Nat) (f : Queue → Queue) : Dev :=
  { d with qm := { d.qm with queue := tabMod (fun _ => {}) d.qm.queue q f } }
def Dev.eng (d : Dev) (e : Nat) : Engine := tabGet (fun _ => {}) d.sla.eng e
def Dev.modEng (d : Dev) (e : Nat) (f : Engine → Engine) : Dev :=
  { d with sla := { d.sla with eng := tabMod (fun _ => {}) d.sla.eng e f } }
def Dev.ch (d : Dev) (c : Nat) : Chan := tabGet (fun _ => {}) d.dram.ch c
def Dev.modCh (d : Dev) (c : Nat) (f : Chan → Chan) : Dev :=
  { d with dram := { d.dram with ch := tabMod (fun _ => {}) d.dram.ch c f } }
def Dev.bank (d : Dev) (c b : Nat) : Bank := tabGet (fun _ => {}) d.dram.bank (64 * c + b)
def Dev.modBank (d : Dev) (c b : Nat) (f : Bank → Bank) : Dev :=
  { d with dram := { d.dram with bank := tabMod (fun _ => {}) d.dram.bank (64 * c + b) f } }
def Dev.vlink (d : Dev) (c i : Nat) : VLink := tabGet (fun _ => {}) d.dram.link (64 * c + i)
def Dev.modVlink (d : Dev) (c i : Nat) (f : VLink → VLink) : Dev :=
  { d with dram := { d.dram with link := tabMod (fun _ => {}) d.dram.link (64 * c + i) f } }
def Dev.dom (d : Dev) (n : Nat) : CalDom := tabGet (fun _ => {}) d.therm.dom n
def Dev.modDom (d : Dev) (n : Nat) (f : CalDom → CalDom) : Dev :=
  { d with therm := { d.therm with dom := tabMod (fun _ => {}) d.therm.dom n f } }
def Dev.modTherm (d : Dev) (f : ThermU → ThermU) : Dev := { d with therm := f d.therm }
def Dev.modOtp (d : Dev) (f : OtpU → OtpU) : Dev := { d with otp := f d.otp }
def Dev.modMgmt (d : Dev) (f : MgmtU → MgmtU) : Dev := { d with mgmt := f d.mgmt }
def Dev.modBoot (d : Dev) (f : BootU → BootU) : Dev := { d with boot := f d.boot }
def Dev.modTelem (d : Dev) (f : TelemU → TelemU) : Dev := { d with telem := f d.telem }
def Dev.xc (d : Dev) (x : Nat) : Xc :=
  tabGet (fun k => if k = 31 then { st := .idle } else {}) d.xfer.xc x
def Dev.modXc (d : Dev) (x : Nat) (f : Xc → Xc) : Dev :=
  { d with xfer := { d.xfer with xc := tabMod (fun k => if k = 31 then { st := .idle } else {}) d.xfer.xc x f } }

/-! ### Registers, counters, clocked paths -/

/-- A stored register of an instance. -/
def Dev.csrAt (d : Dev) (inst blk off : Nat) : Word := tabGet regReset d.csr (regKey inst blk off)
/-- Set a stored register. -/
def Dev.setCsr (d : Dev) (inst blk off : Nat) (v : Word) : Dev :=
  { d with csr := tabSet regReset d.csr (regKey inst blk off) v }
/-- Bits that hardware events have set in a stored register at the present DT (R9). -/
def Dev.evtNow (d : Dev) (inst blk off : Nat) : Nat :=
  let e := tabGet (fun _ => (0, 0)) d.evt (regKey inst blk off)
  if e.1 = d.dt + 1 then e.2 else 0
/-- A hardware event has set the bits of `m` of a register: its DT is kept, since it wins over a software access of the same DT (R9). -/
def Dev.evtNote (d : Dev) (inst blk off m : Nat) : Dev :=
  { d with evt := tabSet (fun _ => (0, 0)) d.evt (regKey inst blk off) (d.dt + 1, d.evtNow inst blk off ||| m) }
/-- Set the bits of `m` in a stored register: a hardware event. -/
def Dev.orCsr (d : Dev) (inst blk off m : Nat) : Dev :=
  (d.setCsr inst blk off (d.csrAt inst blk off ||| word m)).evtNote inst blk off m
/-- An event on an RC field that held `before`; `f` is what the event does to the field (R9). -/
def Dev.rcNote (d : Dev) (inst blk off before : Nat) (f : Nat → Nat) : Dev :=
  let k := regKey inst blk off
  let e := tabGet (fun _ => (0, 0, 0)) d.rcv k
  let same := decide (e.1 = d.dt + 1)
  { d with rcv := tabSet (fun _ => (0, 0, 0)) d.rcv k (d.dt + 1, if same then e.2.1 else before, f (if same then e.2.2 else 0)) }
/-- What a read of an RC field that holds `cur` returns, and what it leaves: events of the present DT come after the read (R9). -/
def Dev.rcNow (d : Dev) (inst blk off cur : Nat) : Nat × Nat :=
  let e := tabGet (fun _ => (0, 0, 0)) d.rcv (regKey inst blk off)
  if e.1 = d.dt + 1 then (e.2.1, e.2.2) else (cur, 0)
/-- A field of a stored register. -/
def Dev.cfgFld (d : Dev) (inst blk off lo w : Nat) : Nat := fld (d.csrAt inst blk off) lo w

/-- A 64-bit counter (R62). -/
def Dev.counter (d : Dev) (inst blk off : Nat) : Nat := tabGet (fun _ => 0) d.ctr (regKey inst blk off)
/-- Add `n` to a counter, modulo 2^64 (R62). -/
def Dev.bump (d : Dev) (inst blk off n : Nat) : Dev :=
  { d with ctr := tabMod (fun _ => 0) d.ctr (regKey inst blk off) (fun c => (c + n) % 2 ^ 64) }

/-- Index of an access path: partners 0 to 63, management port 64, JTAG 65, Heartwood 100 (R487 codes them so). -/
def pathIx : Path → Nat
  | .partner n => n
  | .mgmt => 64
  | .jtag => 65
  | .hw => 100

/-- The caller's copy of a block's select register (R474, R476). -/
def Dev.selOf (d : Dev) (p : Path) (blk : Nat) : Nat := tabGet (fun _ => 0) d.sel (pathIx p * 256 + blk)
def Dev.setSel (d : Dev) (p : Path) (blk v : Nat) : Dev :=
  { d with sel := tabSet (fun _ => 0) d.sel (pathIx p * 256 + blk) v }
/-- Return every select copy of a path to its reset value (R474). -/
def Dev.clearSel (d : Dev) (ix : Nat) : Dev :=
  { d with sel := d.sel.filter (fun p => p.1 / 256 != ix) }

/-- Mode code (15): 0 BOOT to 5 RETAIN. -/
def modeCode : Mode → Nat
  | .boot => 0 | .maint => 1 | .service => 2 | .drain => 3 | .doze => 4 | .retain => 5

/-! ### Telemetry records -/

/-- Ring sizes of R484. -/
def ringSize (k : Nat) : Nat := if k = 1 then 16384 else if k = 2 then 8192 else 4096

/-- Number of the next record of a kind. -/
def Dev.teleNext (d : Dev) (k : Nat) : Nat := tabGet (fun _ => 0) d.telem.next k

/-- Write one telemetry record of kind `k` (R484, R485); the ring keeps the newest. -/
def Dev.tele (d : Dev) (k : Nat) (bytes : List Byte) : Dev :=
  let i := d.teleNext k
  { d with telem := { d.telem with
      ring := tabSet (fun _ => {}) d.telem.ring (65536 * k + i % ringSize k)
        { index := i, dt := d.dt, bytes := bytes }
      next := tabSet (fun _ => 0) d.telem.next k (i + 1) } }

/-- One happening reaches deciding unit `unit`, element `inst`; where another reached that element at the same DT, its mutual-exclusion
element has put that one first, and the order is recorded (R259, R484). Of more than two, each decision between neighbours has its record
(DESIGN CHOICE, log 118). -/
def Dev.arb (d : Dev) (unit inst who aux : Nat) : Dev :=
  let k := unit * 2 ^ 32 + inst
  let l := tabGet (fun _ => (0, 0, 0)) d.telem.arb k
  let d1 := if l.1 = d.dt + 1 then
      d.tele 1 ([byte unit, 2, byte l.2.1, 0] ++ leBytes 2 l.2.2 ++ [byte who, 0] ++ leBytes 2 aux ++ List.replicate 6 0) else d
  { d1 with telem := { d1.telem with arb := tabSet (fun _ => (0, 0, 0)) d1.telem.arb k (d.dt + 1, who, aux) } }

/-! ### Partners, ports and mailboxes as event targets -/

/-- Ports of the device. -/
def allPorts : List Nat := List.range 144
/-- Ports that belong to a partner (R105), lowest first. -/
def Dev.portsOf (d : Dev) (k : Nat) : List Nat := allPorts.filter (fun n => (d.port n).partner == some k)
/-- A partner number is attached or leaving: it holds resources and requests may come from it. -/
def Dev.present (d : Dev) (k : Nat) : Bool := (d.ptn k).st == .attached || (d.ptn k).st == .leaving
/-- The partner attached with a CHIPID. -/
def Dev.partnerOf (d : Dev) (chipid : Nat) : Option Nat :=
  (List.range 64).find? (fun k => d.present k && (d.ptn k).chipid == chipid)
/-- A mailbox exists (R301). -/
def Dev.hasMbox (d : Dev) (o : Nat) : Bool := if o < 64 then (d.ptn o).st != .free else o == 64 || o == 65
/-- Every port of the partner runs Cherek-1, so its mailbox has no path (R301). -/
def Dev.noVc3 (d : Dev) (k : Nat) : Bool :=
  let ps := d.portsOf k
  !ps.isEmpty && ps.all (fun n => (d.port n).gen == 1)
/-- The owners present: the partners not FREE, and the owners 64 and 65. -/
def Dev.owners (d : Dev) : List Nat := (List.range 66).filter d.hasMbox

/-! ### Events (R310, R311) -/

/-- Put an event at the end of an owner's queue, or drop it where 63 are held; answers whether it was dropped. An
owner without a path counts the event in EVT_DROP (R301). -/
def Dev.queueEvent (d : Dev) (o type : Nat) (body : List Byte) : Dev × Bool :=
  if !d.hasMbox o then (d, false)
  else if o < 64 && d.noVc3 o then (d.bump 0 bMbox 0x518 1, false)
  else
    let m := d.mb o
    if m.evq.length ≥ 63 then
      (((d.modMb o (fun m => { m with lost := m.lost + 1 })).bump 0 bMbox 0x510 1).orCsr o bMbox 0x114 2, true)
    else
      (((d.arb 6 o o 0).modMb o (fun m => { m with
          evq := m.evq ++ [{ type := type, eseq := m.eseq, dt := d.dt, body := body }]
          eseq := (m.eseq + 1) % 65536 })).bump 0 bMbox 0x508 1, false)

/-- Free the head event of an owner's queue; EVENTS_LOST takes the entry kept for it (R311). -/
def Dev.popEvent (d : Dev) (o : Nat) : Dev :=
  let m := d.mb o
  match m.evq with
  | [] => d
  | _ :: t =>
    if m.lost = 0 then d.modMb o (fun m => { m with evq := t })
    else (d.modMb o (fun m => { m with
        evq := t ++ [{ type := 0xFF, eseq := m.eseq, dt := d.dt, body := leBytes 4 m.lost }]
        eseq := (m.eseq + 1) % 65536, lost := 0 })).bump 0 bMbox 0x508 1

/-! ### Fault raises (R412 to R426) -/

/-- The 30 bytes of a detail (R424). -/
def Detail.bytes (x : Detail) : List Byte :=
  [byte x.kind, byte (x.step + 4 * b2n x.injected)] ++ leBytes 4 x.inst ++ [0, 0] ++ leBytes 8 x.wide ++
    leBytes 4 x.a ++ leBytes 4 x.b ++ leBytes 4 x.c ++ leBytes 2 x.d

/-- Reaction set and escalation time of a source (R419). -/
def Dev.reactOf (d : Dev) (n : Nat) : Nat := fld (d.csrAt 0 bFault (0x400 + 4 * n)) 0 5
def Dev.escMs (d : Dev) (n : Nat) : Nat := fld (d.csrAt 0 bFault (0x400 + 4 * n)) 16 16

/-- Write one entry of the fault log; answers whether an unread entry was overwritten (R426). -/
def Dev.logFault (d : Dev) (n taken : Nat) (x : Detail) : Dev × Bool :=
  let i := d.fault.logNext
  let old := tabGet (fun _ => ({} : LogEntry)) d.fault.log i
  let e : LogEntry := { dt := d.dt, source := n, cls := faultClass n, taken := taken, mode := modeCode d.clk.mode,
                        raises := (d.src n).raises, detail := x, unread := true }
  let d1 := d.modFault (fun u => { u with
      log := tabSet (fun _ => {}) u.log i e
      logNext := (i + 1) % 32
      logOvf := u.logOvf || old.unread })
  (if old.unread then d1.evtNote 0 bFault 0x40 0x8000 else d1, old.unread)

/-- The mailboxes an EVT reaction posts to (R425). -/
def Dev.faultTargets (d : Dev) (n : Nat) (x : Detail) : List Nat :=
  if faultClass n = 2 then d.owners
  else
    let named : Option Nat :=
      if x.kind = 4 then some x.inst
      else if x.kind = 3 then (d.port x.inst).partner
      else none
    64 :: (match named with
      | some k => if k < 64 ∧ (d.ptn k).st = .attached then [k] else []
      | none => [])

/-- Post the FAULT event of a source to its targets; answers the owners whose queue dropped it. -/
def Dev.postFault (d : Dev) (n : Nat) (x : Detail) : Dev × List Nat :=
  (d.faultTargets n x).foldl
    (fun (acc : Dev × List Nat) o =>
      let r := acc.1.queueEvent o 0x50 ([byte n, byte (faultClass n)] ++ x.bytes)
      (r.1, if r.2 then acc.2 ++ [o] else acc.2))
    (d, [])

/-- ERR_N and THERM_N are driven: high-impedance while PWRGD or RESET_N is low (R32). -/
def Dev.pinsOn (d : Dev) : Bool := d.pin.pwrgd && d.pin.resetN

/-- The PIN reaction (R418). -/
def Dev.pinReact (d : Dev) (n : Nat) : Dev :=
  if !d.pinsOn then d else d.modFault (fun u => { u with errLow := true, errMin := some (d.dt + 1000), errRel := false, errCause := n })

/-- The NMI reaction (R414): a trap kept until Heartwood runs; in RETAIN it restarts Heartwood (R380). -/
def Dev.nmiReact (d : Dev) (n : Nat) : Dev :=
  d.modFault (fun u => { u with nmi := u.nmi ++ [n] })

/-- Record the order of two raises that reach the collector at one DT (R413, R484). -/
def Dev.faultTie (d : Dev) (n : Nat) : Dev :=
  let d1 := match d.fault.last with
    | some (t, w) => if t = d.dt then d.tele 1 ([4, 2, byte w, 0, 0, 0, byte n] ++ List.replicate 9 0) else d
    | none => d
  d1.modFault (fun u => { u with last := some (d.dt, n) })

/-- Raise source `n` with detail `x` (R413 to R416, R425, R426). `fuel` bounds the raises that a dropped event (FS162)
and an overwritten log entry (FS002) cause in turn. The escalations are left to `raise0` and to ESCALATION_EXPIRY. -/
def Dev.raiseN : Nat → Dev → Nat → Detail → Dev
  | 0, d, _, _ => d
  | fuel + 1, d0, n, x =>
    let d := d0.faultTie n
    let s := d.src n
    let d1 := (((d.modSrc n (fun s => { s with
        raises := min (s.raises + 1) 0xFFFFFFFF, lastDt := d.dt, detail := x })).bump 0 bFault 0x80 1).orCsr 0 bFault 0x44 1)
    if s.held then d1
    else
      let set := d.reactOf n
      let gap := d.cfgFld 0 bFault 0x10 0 16
      let heldClass := faultClass n == 1 || faultClass n == 2
      let suppressed := !heldClass && (match s.lastPost with
        | some t => decide (d.dt < t + 1000 * gap)
        | none => false)
      let d2 := if bit set 1 then d1.nmiReact n else d1
      let d3 := if bit set 4 then d2.pinReact n else d2
      if suppressed then d3.bump 0 bFault 0x90 1
      else
        let e := d.escMs n
        let d4 := d3.modSrc n (fun s => { s with
          lastPost := some d.dt, held := heldClass, brst := false
          esc := if heldClass && (bit set 2 || bit set 3) then some (d.dt + 1000000 * e) else none })
        let (d5, dropped) := if bit set 0 then d4.postFault n x else (d4, [])
        let (d6, ovr) := d5.logFault n (set &&& 0x13) x
        let d7 := if ovr && n != 2 then Dev.raiseN fuel d6 2 {} else d6
        if n = 162 then d7
        else dropped.foldl (fun a o => Dev.raiseN fuel a 162 { kind := 13, inst := o }) d7

/-- Take CRST as an escalation of source `n`: the chip reset follows 10 µs later, one for all (R414, R429). -/
def Dev.escCrst (d : Dev) (n : Nat) : Dev :=
  d.modFault (fun u => { u with crst := some (u.crst.getD (d.dt + 10000, n)) })

/-- Event, log entry and counter of an escalation that is taken (R416): step 1 BRST, step 2 CRST. -/
def Dev.escRecord (d : Dev) (n step taken : Nat) : Dev :=
  let x : Detail := { (d.src n).detail with step := step }
  let (d1, dropped) := if bit (d.reactOf n) 0 then d.postFault n x else (d, [])
  let (d2, ovr) := d1.logFault n taken x
  let d3 := if ovr then Dev.raiseN 4 d2 2 {} else d2
  let d4 := dropped.foldl (fun a o => Dev.raiseN 4 a 162 { kind := 13, inst := o }) d3
  (d4.bump 0 bFault 0x88 1).orCsr 0 bFault 0x44 2

/-- Raise a source (R413). With E = 0 a CRST that stands alone is taken at the raise; a set with BRST is due at this DT
(R416). -/
def Dev.raise0 (d : Dev) (n : Nat) (x : Detail) : Dev :=
  let d1 := Dev.raiseN 4 d n x
  let set := d.reactOf n
  if !(d.src n).held && (d1.src n).held && d.escMs n == 0 && bit set 3 && !bit set 2 then
    ((d1.escRecord n 2 8).modSrc n (fun s => { s with esc := none })).escCrst n
  else d1

/-- Post an event; a drop raises FS162, which names the owner (R311). -/
def Dev.post (d : Dev) (o type : Nat) (body : List Byte) : Dev :=
  let r := d.queueEvent o type body
  if r.2 then r.1.raise0 162 { kind := 13, inst := o } else r.1

/-- Post an event to several owners, in order. -/
def Dev.postAll (d : Dev) (os : List Nat) (type : Nat) (body : List Byte) : Dev :=
  os.foldl (fun a o => a.post o type body) d

end Sys2Proof.Machine
end

