-- ==== Sys2Proof/Machine/CfgView.lean ====
section
/-!
DEFINITION. The configuration in force as a function of the image in ACTIVE (R353 to R358), with the reset values of
generation 0, and the map from addresses to storage (R146 to R149).
-/
namespace Sys2Proof.Machine

/-- A region entry (R147). TYPE: 0 none, 1 RAW, 2 TABLE, 3 CELL, 4 DESC, 5 EVAC, 6 SPARE. -/
structure Region where
  type : Nat := 0
  sram : Bool := false
  gran : Nat := 0
  hash : Bool := false
  wp : Bool := false
  seed : Nat := 0
  base : Nat := 0
  size : Nat := 0
  deriving DecidableEq, Repr

/-- The default layout (R153). -/
def regionDefault (n : Nat) : Region :=
  match n with
  | 0 => { type := 3, gran := 1, base := 0, size := 896 }
  | 1 => { type := 4, base := 896, size := 56 }
  | 2 => { type := 2, hash := true, base := 952, size := 32 }
  | 3 => { type := 1, gran := 1, base := 984, size := 16 }
  | 4 => { type := 5, gran := 2, base := 1000, size := 24 }
  | 5 => { type := 2, sram := true, base := 0, size := 128 }
  | 6 => { type := 1, sram := true, base := 128, size := 128 }
  | _ => {}

/-- A region entry from its 16 bytes (R147). -/
def parseRegion (e : List Byte) : Region :=
  let b0 := leAt e 0 1
  { type := bits b0 0 3, sram := bit b0 3, gran := bits b0 4 2, hash := bit b0 6, wp := bit b0 7
    seed := leAt e 1 1 % 64, base := leAt e 4 2, size := leAt e 6 2 }

/-- Region `n` of an image; the empty image is generation 0 (R353). -/
def imgRegion (img : List Byte) (n : Nat) : Region :=
  if img.isEmpty then regionDefault n else parseRegion (slice img (0x40 + 16 * n) 16)

/-- The CHIPID pinned to partner `n` (R354), those that R357 ignores left out; 0 for no pin. -/
def imgPin (img : List Byte) (n : Nat) : Nat :=
  let raw := fun k => if img.isEmpty then 0 else leAt img (0x240 + 8 * k) 8
  let v := raw n
  if v = 2 ^ 64 - 1 then 0
  else if (List.range n).any (fun k => raw k == v) then 0 else v

/-- Octet entry `o`: CLAUSE and NRZ_FEC. -/
def imgOct (img : List Byte) (o : Nat) : Nat := if img.isEmpty then 0 else leAt img (0x440 + 4 * o) 4

/-- Port entry `n`: 16 bytes. -/
def imgPort (img : List Byte) (n : Nat) : List Byte :=
  if img.isEmpty then List.replicate 16 0 else slice img (0x500 + 16 * n) 16

/-- The background share in 0.1 %. -/
def imgShare (img : List Byte) : Nat := if img.isEmpty then 30 else leAt img 0xE00 2

/-- A reservation (R358). -/
structure Rsv where
  chipid : Nat := 0
  rate : Nat := 0
  tc : Nat := 0
  valid : Bool := false
  deriving DecidableEq, Repr

/-- Reservation entry `n` of an image. -/
def imgRsv (img : List Byte) (n : Nat) : Rsv :=
  if img.isEmpty then {}
  else
    let e := slice img (0xE10 + 16 * n) 16
    let w := leAt e 8 4
    { chipid := leAt e 0 8, rate := bits w 0 22, tc := bits w 24 3, valid := bit w 31 }

/-- Table descriptor `n` of an image, 64 bytes. -/
def imgTd (img : List Byte) (n : Nat) : List Byte :=
  if img.isEmpty then List.replicate 64 0 else slice img (0x1E10 + 64 * n) 64

/-- A queue profile (R170). -/
structure Profile where
  qlimit : Nat := 16384
  qwm : Nat := 0
  parkUs : Nat := 100
  nt : Nat := 0
  ntV : Bool := false
  mgmt : Bool := false
  deriving DecidableEq, Repr

/-- Profile `n` of an image, laid out as QP_n of R190. -/
def imgProfile (img : List Byte) (n : Nat) : Profile :=
  if img.isEmpty then {}
  else
    let e := slice img (0x2E10 + 16 * n) 16
    let w := leAt e 8 4
    { qlimit := leAt e 0 4 % 2 ^ 28, qwm := leAt e 4 4 % 2 ^ 28, parkUs := bits w 0 16, nt := bits w 16 4
      ntV := bit w 20, mgmt := bit w 21 }

/-- Notify target `n` of an image. -/
def imgNotify (img : List Byte) (n : Nat) : Nat := if img.isEmpty then 0 else leAt img (0x3E10 + 8 * n) 8

/-- Number of assignment entries. -/
def imgAssigns (img : List Byte) : Nat := if img.isEmpty then 0 else leAt img 16 2 % 2 ^ 15

/-- Profile number given to queue `q`: the last assignment entry that names it, else 0 (R356). -/
def imgProfileOf (img : List Byte) (q : Nat) : Nat :=
  (List.range (imgAssigns img)).foldl
    (fun acc i =>
      let e := slice img (0x3E90 + 8 * i) 8
      let first := leAt e 0 4
      let count := leAt e 4 3
      if first ≤ q ∧ q < first + count then leAt e 7 1 else acc) 0

/-- The image in force. -/
def Dev.image (d : Dev) : List Byte := d.cfg.active.bytes
def Dev.region (d : Dev) (n : Nat) : Region := imgRegion d.image n
def Dev.td (d : Dev) (n : Nat) : List Byte := imgTd d.image n
def Dev.profileOf (d : Dev) (q : Nat) : Profile := imgProfile d.image (imgProfileOf d.image q)
def Dev.rsv (d : Dev) (n : Nat) : Rsv := imgRsv d.image n
def Dev.pin_ (d : Dev) (n : Nat) : Nat := imgPin d.image n

/-- One MiB. -/
def mib : Nat := 0x100000

/-- The regions of an image, with their numbers. -/
def imgRegions (img : List Byte) : List (Nat × Region) :=
  ((List.range 32).map (fun n => (n, imgRegion img n))).filter (fun p => p.2.type != 0)

/-- The CELL, DESC or EVAC region of an image, by type. -/
def imgRegionOfType (img : List Byte) (t : Nat) : Region :=
  match (imgRegions img).find? (fun p => p.2.type == t && !p.2.sram) with
  | some p => p.2
  | none => {}

/-- First device address and length of a region. -/
def Region.start (r : Region) : Nat := if r.sram then 0x1000000000 + r.base * 0x10000 else 64 * r.base * mib
def Region.bytes (r : Region) : Nat := if r.sram then r.size * 0x10000 else 64 * r.size * mib

/-- The region that holds a device address, with its number. -/
def imgRegionAt (img : List Byte) (a : Nat) : Option (Nat × Region) :=
  (imgRegions img).find? (fun p => decide (p.2.start ≤ a ∧ a < p.2.start + p.2.bytes))

def Dev.regionAt (d : Dev) (a : Nat) : Option (Nat × Region) := imgRegionAt d.image a

/-- Granule of a region in bytes. -/
def granBytes (g : Nat) : Nat := if g = 0 then 64 else if g = 1 then 256 else 4096

/-- Fold a group number into 6 bits (R149); seven folds cover any address. -/
def foldGrp : Nat → Nat → Nat → Nat
  | 0, h, _ => h
  | k + 1, h, x => if x = 0 then h else foldGrp k (h ^^^ (x % 64)) (x / 64)

/-- Channel and channel offset of a DRAM address in a region (R149). -/
def Region.toDram (r : Region) (a : Nat) : Nat × Nat :=
  let g := granBytes r.gran
  let o := a - r.start
  let n := o / g
  let grp := n / 64
  let ch := if r.hash then (n % 64) ^^^ foldGrp 7 r.seed grp else n % 64
  (ch, r.base * mib + grp * g + o % g)

/-- Place of a channel and offset. -/
def placeOf (ch off : Nat) : Nat := ch * 2 ^ 30 + off
/-- A place lies in stack SRAM. -/
def inSram (p : Nat) : Bool := decide (0x1000000000 ≤ p)
/-- Channel of a DRAM place. -/
def placeCh (p : Nat) : Nat := p / 2 ^ 30
/-- Block of a DRAM place. -/
def placeBlk (p : Nat) : Nat := p / 4096
/-- Unit number of a place. -/
def placeUnit (p : Nat) : Nat := p / 64

/-- Place of a device address, with its region; none where it is unmapped (R146). -/
def imgPlace (img : List Byte) (a : Nat) : Option (Region × Nat) :=
  match imgRegionAt img a with
  | none => none
  | some (_, r) =>
    if r.sram then some (r, a)
    else
      let (ch, off) := r.toDram a
      some (r, placeOf ch off)

def Dev.placeAt (d : Dev) (a : Nat) : Option (Region × Nat) := imgPlace d.image a

/-- The upper 16 MiB of stack SRAM: the queue head and tail store (R146). -/
def inQueueStore (a : Nat) : Bool := decide (0x1001000000 ≤ a ∧ a < 0x1002000000)

/-- Place of cell `c` (R149). -/
def Dev.cellPlace (d : Dev) (c : Nat) : Nat :=
  placeOf (c % 64) ((imgRegionOfType d.image 3).base * mib + c / 64 * 256)
/-- Place of descriptor unit `u`, which holds slots 4u to 4u + 3 (R149). -/
def Dev.unitPlace (d : Dev) (u : Nat) : Nat :=
  placeOf (u % 64) ((imgRegionOfType d.image 4).base * mib + u / 64 * 64)

/-- Where a place is now held: EVAC where its block has been switched (R160). -/
def Dev.phys (d : Dev) (p : Nat) : Nat :=
  if inSram p then p
  else
    let e := tabGet (fun _ => 0) d.mem.evac (placeBlk p)
    if e = 0 then p else (e - 1) * 4096 + p % 4096

/-- Channels in service: not RETIRED (R14, R237). -/
def Dev.retired (d : Dev) (c : Nat) : Bool := (d.ch c).st == .retired
/-- Channels that serve accesses and count in N: not RETIRED and not failed (R439). -/
def Dev.serving (d : Dev) (c : Nat) : Bool := !d.retired c && !(d.ch c).failed

end Sys2Proof.Machine
end

