-- ==== Sys2Proof/Machine/Graft.lean ====
section
/-!
DEFINITION. The grafting unit (R432 to R440): spares, pin marks, DEGRADED and failed channels, row grafts, and the
error log.
-/
namespace Sys2Proof.Machine

def Dev.modGraft (d : Dev) (f : GraftU → GraftU) : Dev := { d with graft := f d.graft }
def Dev.spare (d : Dev) (c n : Nat) : Spare := tabGet (fun _ => {}) d.graft.spare (8 * c + n)
def Dev.setSpare (d : Dev) (c n : Nat) (v : Spare) : Dev :=
  d.modGraft (fun g => { g with spare := tabSet (fun _ => {}) g.spare (8 * c + n) v })
def Dev.trunk (d : Dev) (t g : Nat) : Spare := tabGet (fun _ => {}) d.graft.trunk (32 * t + g)
def Dev.setTrunk (d : Dev) (t g : Nat) (v : Spare) : Dev :=
  d.modGraft (fun u => { u with trunk := tabSet (fun _ => {}) u.trunk (32 * t + g) v })
def Dev.evacOf (d : Dev) (c : Nat) : Evac := tabGet (fun _ => {}) d.graft.evac c
def Dev.modEvac (d : Dev) (c : Nat) (f : Evac → Evac) : Dev :=
  d.modGraft (fun g => { g with evac := tabMod (fun _ => {}) g.evac c f })

/-- Pins marked on a channel. -/
def Chan.marks (c : Chan) : List Nat :=
  (match c.markA with | some p => [p] | none => []) ++ (match c.markB with | some p => [p] | none => [])

/-- The spare of channel `c` that carries role `l`, if one does (R433). -/
def Dev.carrier (d : Dev) (c l : Nat) : Option Nat :=
  (List.range 6).find? (fun n => (d.spare c n).v && (d.spare c n).link == l)

/-- Write one entry of the error log (R253); entries written in the same instant have their order recorded (R128). -/
def Dev.elogWrite (d0 : Dev) (e : ELog) : Dev :=
  let d := d0.arb 10 1 0 0
  let i := d.ecc.elogNext
  let old := tabGet (fun _ => ({} : ELog)) d.ecc.elog i
  let d1 := d.modEcc (fun u => { u with
    elog := tabSet (fun _ => {}) u.elog i { e with dt := d.dt, unread := true }
    elogNext := (i + 1) % 64
    elogOvf := u.elogOvf || old.unread })
  if old.unread then d1.evtNote 0 bEcc 0x200 0x8000 else d1

/-- A repair record write falls due within 100 ms (R441). -/
def Dev.repairDue (d : Dev) : Dev :=
  d.modGraft (fun g => { g with repairBy := some (g.repairBy.getD (d.dt + 100000000)) })

/-- Type of the DRAM region that holds a channel offset; 0 where none does. -/
def Dev.bandType (d : Dev) (off : Nat) : Nat :=
  match (imgRegions d.image).find? (fun p => !p.2.sram && decide (p.2.base * mib ≤ off ∧ off < (p.2.base + p.2.size) * mib)) with
  | some p => p.2.type
  | none => 0

/-- A DRAM block index lies on channel `c` in a RAW or TABLE band. -/
def Dev.rawBlock (d : Dev) (c b : Nat) : Bool :=
  b / 262144 == c && (let t := d.bandType (b % 262144 * 4096); t == 1 || t == 2)

/-- Valid RAW and TABLE blocks of a channel that no map entry redirects (R437). -/
def Dev.evacBlocks (d : Dev) (c : Nat) : List Nat :=
  ((d.mem.blkValid.map (·.1)).filter (fun b => d.rawBlock c b && tabGet (fun _ => 0) d.mem.evac b == 0
    && !d.mem.lost.contains b))

/-- The channel enters DEGRADED: evacuation is wanted and its cells are to be moved (R437, R185). -/
def Dev.degrade (d : Dev) (c : Nat) : Dev :=
  let n := (d.evacBlocks c).length
  ((d.modCh c (fun x => if x.st == .active then { x with st := .degraded } else { x with wasDegraded := true })).modEvac c
    (fun e => { e with want := true, trig := some (e.trig.getD d.dt), moveDone := false, total := e.done + n }))

/-- Degrade for exhausted spares, with FS181 (R436). -/
def Dev.degrade181 (d : Dev) (c : Nat) : Dev :=
  if (d.ch c).st == .degraded || (d.ch c).wasDegraded then d
  else (((d.degrade c).raise0 181 { kind := 5, inst := c }).orCsr 0 bGraft 0x320 2).repairDue

/-- AVAIL to every mailbox owner present (R19, R312). -/
def Dev.availEvent (d : Dev) (cond : Nat) (holds : Bool) (port : Nat) : Dev :=
  d.postAll d.owners 0x40 ([byte cond, byte (b2n holds)] ++ leBytes 2 port)

/-- EVAC blocks that hold evacuated data, on a channel. -/
def Dev.evacUsedOn (d : Dev) (c : Nat) : List Nat :=
  (d.mem.evac.map (fun e => e.2 - 1)).filter (fun b => b / 262144 == c)

/-- EVAC blocks per channel. -/
def Dev.evacSlice (d : Dev) : Nat := (imgRegionOfType d.image 5).size * 256

/-- Free EVAC room in blocks, over the channels in service (R161). -/
def Dev.evacFree (d : Dev) : Nat :=
  ((List.range 64).map (fun c => if d.serving c then d.evacSlice - (d.evacUsedOn c).length else 0)).sum

/-- The condition of R17 on the reserve: at least 1 GiB. -/
def Dev.reserveOk (d : Dev) : Bool := decide (262144 ≤ d.evacFree)

/-- Report a change of the reserve's condition (R19). -/
def Dev.reserveReport (old new : Dev) : Dev :=
  if old.reserveOk && !new.reserveOk then new.availEvent 2 false 0xFFFF
  else if !old.reserveOk && new.reserveOk then new.availEvent 2 true 0xFFFF
  else new

/-- The channel fails (R439); `cause` is the failing link, or a value the manual does not give. -/
def Dev.failChannel (d : Dev) (c cause : Nat) : Dev :=
  if (d.ch c).failed || d.retired c then d
  else
    let lost := d.evacBlocks c
    let d1 := d.degrade c
    let d2 := d1.modCh c (fun x => { x with st := .degraded, failed := true, sr := none })
    let d3 := d2.modMem (fun m => { m with lost := m.lost ++ lost })
    let d4 := d3.modEvac c (fun e => { e with done := e.done + lost.length })
    Dev.reserveReport d (((d4.raise0 187 { kind := 5, inst := c, a := cause }).orCsr 0 bGraft 0x320 0x40).repairDue)

/-- Mark pin `p` (R243); the first mark degrades the channel. -/
def Dev.markPin (d : Dev) (c p : Nat) : Dev :=
  let x := d.ch c
  if x.marks.contains p then d
  else
    let first := x.marks.isEmpty
    let d1 := d.modCh c (fun x => if x.markA.isNone then { x with markA := some p } else { x with markB := some p })
    let d2 := (d1.orCsr 0 bEcc 0x40 8).raise0 134 { kind := 5, inst := c, a := p }
    if first then d2.degrade181 c else d2

/-- Graft role `l` of channel `c` to spare `n`; a spare that carried the role before stays used (R433). -/
def Dev.graftTo (d : Dev) (c l n : Nat) : Dev :=
  let d0 := match d.carrier c l with
    | some o => d.setSpare c o { (d.spare c o) with link := 0x3F }
    | none => d
  let d1 := d0.setSpare c n { link := l, v := true, fused := false }
  -- the counts that follow belong to the spare that carries the role now (R243)
  let d2 := (d1.modEcc (fun u => { u with markWin := tabSet (fun _ => []) u.markWin (64 * c + l) [] })).modCh c (fun x =>
    if x.markA == some l then { x with markA := x.markB, markB := none, markFull := false }
    else if x.markB == some l then { x with markB := none, markFull := false } else x)
  ((((d2.raise0 180 { kind := 5, inst := c, a := l }).orCsr 0 bGraft 0x320 1).bump 0 bGraft 0x380 1)).repairDue

/-- The lowest free spare for a role (R432). -/
def Dev.freeSpare (d : Dev) (c l : Nat) : Option Nat :=
  if l < 36 then [0, 1, 2, 3].find? (fun n => !(d.spare c n).v)
  else if l < 48 then [4, 5].find? (fun n => !(d.spare c n).v)
  else none

/-- A role of channel `c` has failed: the first case of R436 that applies. -/
def Dev.roleFailed (d : Dev) (c l : Nat) : Dev :=
  match d.freeSpare c l with
  | some n => d.graftTo c l n
  | none =>
    if l < 36 then (if (d.ch c).marks.length < 2 then d.markPin c l else d)
    else d.failChannel c l

/-- A link of channel `c` reaches the grafting unit as failed (R436). `byRole`: the failure names a role, from
corrections or GRAFT_LINK; otherwise a physical link (R433). -/
def Dev.linkFailed (d : Dev) (c l : Nat) (byRole : Bool) : Dev :=
  if d.retired c || (d.ch c).failed then d
  else if 52 ≤ l then
    let s := d.spare c (l - 52)
    if !s.v then (d.setSpare c (l - 52) { link := 0x3F, v := true }).repairDue
    else if s.link = 0x3F then d
    else d.roleFailed c s.link
  else if (d.carrier c l).isSome && !byRole then d
  else d.roleFailed c l

/-- Channels of a tier (R20): 16 each. -/
def tierChans (t : Nat) : List Nat := (List.range 16).map (fun j => 16 * t + j)

/-- LINK of a trunk spare that is withdrawn: no signal of its group has this number (R433). -/
def trunkOut : Nat := 64

/-- A trunk signal of tier `t` has failed, 0 to 2047, or the spare of group `sig - 2048` (R433, R436): an unused spare is withdrawn, and one
in use leaves its group without. -/
def Dev.trunkFailed (d : Dev) (t sig : Nat) : Dev :=
  let g := if sig < 2048 then sig / 64 else (sig - 2048) % 32
  let s := d.trunk t g
  if 2048 ≤ sig then
    if !s.v then (d.setTrunk t g { link := trunkOut, v := true }).repairDue
    else if s.link = trunkOut then d
    else (tierChans t).foldl (fun a c => a.failChannel c (64 * g + s.link)) d
  else if !s.v then
    ((((d.setTrunk t g { link := sig % 64, v := true }).raise0 180 { kind := 6, inst := t, a := sig }).orCsr 0 bGraft 0x320 1).bump
      0 bGraft 0x380 1).repairDue
  else if s.link = sig % 64 then d
  else (tierChans t).foldl (fun a c => a.failChannel c sig) d

/-- Rows grafted in the subarray of row `r` (R432): 32 spares each. -/
def Dev.freeRowSpare (d : Dev) (c bank r : Nat) : Option Nat :=
  let used := (d.graft.rows.filter (fun g => g.ch == c && g.bank == bank && g.row / 8192 == r / 8192)).map (·.spare)
  (List.range 32).find? (fun i => !used.contains i)

/-- Graft a row (R434); `copy` moves its units. -/
def Dev.rowGraft (d : Dev) (c bank r : Nat) (copy : Dev → Dev) : Dev :=
  match d.freeRowSpare c bank r with
  | none => (d.raise0 186 { kind := 5, inst := c, a := bank, b := r }).orCsr 0 bGraft 0x320 0x20
  | some i =>
    (((copy d).modGraft (fun g => { g with rows := g.rows ++ [{ ch := c, bank := bank, row := r, spare := i }] })).bump
      0 bGraft 0x388 1).repairDue

/-- Bank and row of a channel offset (R220): bank is 4 × BG + BK. -/
def bankOf (off : Nat) : Nat := 4 * bits off 9 4 + bits off 13 2
def rowOf (off : Nat) : Nat := bits off 15 15
/-- Channel offset of a row's first unit. -/
def rowOffset (bank row : Nat) : Nat := row * 2 ^ 15 + bank % 4 * 2 ^ 13 + bank / 4 * 2 ^ 9

end Sys2Proof.Machine
end

