-- ==== Sys2Proof/Machine/Store.lean ====
section
/-!
DEFINITION. Reading and writing storage (R154 to R156, R241 to R247, R251 to R254): one DRAM unit or a run of SRAM
bytes at a time, with the outcome the check codes give.
-/
namespace Sys2Proof.Machine

/-- Bytes of storage at a place; unlisted bytes are zero. -/
def MemU.get (m : MemU) (p n : Nat) : List Byte := (List.range n).map (fun i => tabGet (fun _ => (0 : Byte)) m.bytes (p + i))

/-- Store bytes at a place. -/
def MemU.put (m : MemU) (p : Nat) (bs : List Byte) : MemU :=
  { m with bytes := (bs.zipIdx).foldl (fun t x => tabSet (fun _ => (0 : Byte)) t (p + x.2) x.1) m.bytes }

/-- Clear storage: the bytes of [p, p + n) read as zero. -/
def MemU.erase (m : MemU) (p n : Nat) : MemU :=
  { m with bytes := m.bytes.filter (fun e => !(decide (p ≤ e.1) && decide (e.1 < p + n)))
           dErr := m.dErr.filter (fun e => !(decide (p ≤ 64 * e.1) && decide (64 * e.1 < p + n)))
           sErr := m.sErr.filter (fun e => !(decide (p ≤ e.1) && decide (e.1 < p + n))) }

def Dev.blkValid (d : Dev) (blk : Nat) : Bool := tabGet (fun _ => false) d.mem.blkValid blk
def Dev.wordValid (d : Dev) (w : Nat) : Bool := tabGet (fun _ => false) d.mem.wordValid w
def Dev.fillOf (d : Dev) (blk : Nat) : Option Fill := d.mem.fills.find? (fun f => f.blk == blk)

/-- Device address of a place (the inverse of R149), for the records that name one. -/
def Dev.addrOf (d : Dev) (p : Nat) : Nat :=
  if inSram p then p
  else
    let ch := placeCh p
    let off := p % 2 ^ 30
    match (imgRegions d.image).find? (fun r => !r.2.sram && decide (r.2.base * mib ≤ off ∧ off < (r.2.base + r.2.size) * mib)) with
    | none => off
    | some (_, r) =>
      let g := granBytes r.gran
      let x := off - r.base * mib
      let grp := x / g
      let low := if r.hash then ch ^^^ foldGrp 7 r.seed grp else ch
      r.start + (grp * 64 + low) * g + x % g

/-! ### Corrections and errors found -/

/-- End of the window in progress (R252, R243, R434); the first one has the reset length of 1,000 ms. -/
def winEnd (t : Tab Nat) (k : Nat) : Nat := tabGet (fun _ => 1000000000) t k
/-- End of the window that holds `t`, of windows of `ms` ms that follow the end `e` without a break. -/
def nextWin (e ms t : Nat) : Nat := e + ((t - e) / (ms * 1000000) + 1) * (ms * 1000000)

/-- Restart a corrected-count window whose end has come (R252); the new one takes the limit now in force (R257). -/
def Dev.ceRoll (d : Dev) (k : Nat) : Dev :=
  let ms := d.cfgFld 0 bEcc 0x18 16 16
  let e := winEnd d.ecc.ceEnd k
  if d.dt < e then d
  else d.modEcc (fun u => { u with
    ceWin := tabSet (fun _ => 0) u.ceWin k 0
    ceLim := tabSet (fun _ => 256) u.ceLim k (d.cfgFld 0 bEcc 0x18 0 16)
    ceEnd := tabSet (fun _ => 0) u.ceEnd k (nextWin e ms d.dt) })

/-- Count one correction on channel `k`, or of the SRAM (64), in its window (R252). -/
def Dev.ceCount (d : Dev) (k : Nat) : Dev :=
  let d1 := d.ceRoll k
  let n := tabGet (fun _ => 0) d1.ecc.ceWin k + 1
  let d2 := d1.modEcc (fun u => { u with ceWin := tabSet (fun _ => 0) u.ceWin k n })
  if n = tabGet (fun _ => 256) d1.ecc.ceLim k then
    (if k = 64 then d2.raise0 132 {} else d2.raise0 130 { kind := 5, inst := k }).orCsr 0 bEcc 0x40 1
  else d2

/-- Restart the per-pin counts of a channel whose window has ended (R243). -/
def Dev.markRoll (d : Dev) (c : Nat) : Dev :=
  let ms := d.cfgFld 0 bEcc 0x14 16 16
  let e := winEnd d.ecc.markEnd c
  if d.dt < e then d
  else d.modEcc (fun u => { u with
    markWin := u.markWin.filter (fun p => p.1 / 64 != c)
    markEnd := tabSet (fun _ => 0) u.markEnd c (nextWin e ms d.dt) })

/-- A correction located unmarked pin `p` in a unit (R243); answers whether the pin's count changed. -/
def Dev.pinCount (d : Dev) (c p unit : Nat) : Dev × Bool :=
  let d1 := d.markRoll c
  let k := 64 * c + p
  let l := tabGet (fun _ => []) d1.ecc.markWin k
  if l.contains unit then (d1, false)
  else
    let l' := l ++ [unit]
    let d2 := d1.modEcc (fun u => { u with markWin := tabSet (fun _ => []) u.markWin k l' })
    if d.cfgFld 0 bEcc 0x14 0 8 ≤ l'.length then
      -- the counts that follow belong to what carries the pin's role now
      ((d2.modEcc (fun u => { u with markWin := tabSet (fun _ => []) u.markWin k [] })).linkFailed c p true, true)
    else (d2, true)

/-- Restart the row counts of a channel whose window has ended (R434); the new one takes the limit now in force (R451). -/
def Dev.rowRoll (d : Dev) (c : Nat) : Dev :=
  let ms := d.cfgFld 0 bGraft 0x300 16 16
  let e := winEnd d.graft.rowEnd c
  if d.dt < e then d
  else d.modGraft (fun g => { g with
    rowCe := tabSet (fun _ => []) g.rowCe c []
    rowLim := tabSet (fun _ => 3) g.rowLim c (d.cfgFld 0 bGraft 0x300 0 8)
    rowEnd := tabSet (fun _ => 0) g.rowEnd c (nextWin e ms d.dt) })

/-- Count a corrected unit against its row, in a table of 64 rows that behaves like the tracker of R230; answers
whether the row has reached ROW_CE units (R434). -/
def Dev.rowCount (d : Dev) (c p : Nat) : Dev × Bool :=
  let d1 := d.rowRoll c
  let off := p % 2 ^ 30
  let b := bankOf off
  let r := rowOf off
  let l := tabGet (fun _ => ([] : List RowCe)) d1.graft.rowCe c
  let lim := tabGet (fun _ => 3) d1.graft.rowLim c
  let set := fun (d : Dev) (l : List RowCe) => d.modGraft (fun g => { g with rowCe := tabSet (fun _ => []) g.rowCe c l })
  match l.find? (fun e => e.bank == b && e.row == r) with
  | some e =>
    if e.units.contains (placeUnit p) then (d1, false)
    else
      let e' := { e with units := e.units ++ [placeUnit p], count := e.count + 1 }
      if e'.count ≥ lim then (set d1 (l.filter (fun x => x != e)), true)
      else (set d1 (l.map (fun x => if x = e then e' else x)), false)
  | none =>
    if l.length < 64 then (set d1 (l ++ [{ bank := b, row := r, units := [placeUnit p], count := 1 }]), false)
    else (set d1 ((l.map (fun e => { e with count := e.count - 1 })).filter (fun e => e.count != 0)), false)

/-- Bring every window up to date before its length changes (R257). -/
def Dev.rollCe (d : Dev) : Dev := (List.range 65).foldl (fun a k => a.ceRoll k) d
def Dev.rollMark (d : Dev) : Dev := (List.range 64).foldl (fun a c => a.markRoll c) d
def Dev.rollRow (d : Dev) : Dev := (List.range 64).foldl (fun a c => a.rowRoll c) d

/-- Log and count an uncorrectable DRAM unit, or a poison hit (KIND 2), met by `src` (R244, R251 to R253). -/
def Dev.dramBad (d : Dev) (p src kind pins : Nat) (ptn : Option Nat) : Dev :=
  let c := placeCh (d.phys p)
  let a := d.addrOf p
  let pl := bitList pins 36
  let d1 := d.elogWrite { addr := a, space := 0, kind := kind, source := src, channel := c, pinA := pl[0]?, pinB := pl[1]?, partner := ptn }
  let d2 := ((d1.bump 0 bEcc 0x308 1).orCsr 0 bEcc 0x40 2).modEcc (fun u => { u with chUe := tabMod (fun _ => 0) u.chUe c (· + 1) })
  let d3 := d2.raise0 131 { kind := 5, inst := c, wide := a, a := src }
  let x := d3.ch c
  if kind = 1 && x.marks.length == 2 && !x.markFull then
    (d3.modCh c (fun x => { x with markFull := true })).raise0 135 { kind := 5, inst := c }
  else d3

/-! ### Injection (R254) -/

def Dev.injReg (d : Dev) : Word := d.csrAt 0 bEcc 0x30
def Dev.injAddr (d : Dev) : Nat := (d.csrAt 0 bEcc 0x34).toNat + 2 ^ 32 * ((d.csrAt 0 bEcc 0x38).toNat % 256)
def Dev.injArmed (d : Dev) : Bool := fld d.injReg 0 1 == 1
/-- An armed DRAM injection aims at the unit of place `p`. -/
def Dev.injDram (d : Dev) (p : Nat) : Bool :=
  d.injArmed && fld d.injReg 1 1 == 0 && (match d.placeAt d.injAddr with
    | some (r, q) => !r.sram && placeUnit q == placeUnit p
    | none => false)
/-- An armed SRAM injection aims at the word of address `a`. -/
def Dev.injSram (d : Dev) (a : Nat) : Bool :=
  d.injArmed && fld d.injReg 1 1 == 1 && d.injAddr / 8 == a / 8
/-- The injection is written: ARM clears, DONE and INJECTED record it. -/
def Dev.injDone (d : Dev) : Dev :=
  ((d.setCsr 0 bEcc 0x30 (word (clearBits d.injReg.toNat 1))).orCsr 0 bEcc 0x3C 1).bump 0 bEcc 0x330 1

/-! ### DRAM units -/

/-- Pins in error of a unit as it is read now: stored errors and pins whose link has failed in the package. -/
def Dev.unitErr (d : Dev) (q : Nat) : Nat := tabGet (fun _ => 0) d.mem.dErr (placeUnit q) ||| tabGet (fun _ => 0) d.mem.badLink (placeCh q)

/-- The youngest demand write of a unit that waits in its channel's write queue. -/
def Dev.queuedWrite (d : Dev) (p : Nat) : Option Access :=
  ((d.ch (placeCh (d.phys p))).wrq.filter (fun w => w.unit == placeUnit p && (match w.for_ with | .fill _ => false | _ => true))).getLast?

/-- A write to the unit at place `p` waits in the channel's write queue. -/
def Dev.writeQueued (d : Dev) (p : Nat) : Bool := (d.ch (placeCh (d.phys p))).wrq.any (fun a => a.unit == placeUnit p)

/-- The place whose data a place of channel storage holds: the block that the evacuation map directs there, if one is. -/
def Dev.logicalOf (d : Dev) (q : Nat) : Nat :=
  match d.mem.evac.find? (fun e => e.2 == placeBlk q + 1) with
  | some e => e.1 * 4096 + q % 4096
  | none => q

/-- Count a corrected unit of channel `c` (R252). -/
def Dev.countCe (d : Dev) (c : Nat) : Dev := ((d.bump 0 bEcc 0x300 1).bump 0 bEcc (0x400 + 8 * c) 1).ceCount c

/-- Write the corrected unit back, unless a marked pin took part or a write is queued (R244, R250). -/
def Dev.writeBack (d : Dev) (p q : Nat) (e : Nat) : Dev :=
  let c := placeCh q
  if (bitList e 36).any (fun i => (d.ch c).marks.contains i) || d.writeQueued p then d
  else
    let d1 := ((d.modMem (fun m => { m with dErr := tabSet (fun _ => 0) m.dErr (placeUnit q) 0 })).bump 0 bEcc 0x320 1).bump c bDram 0x210 1
    if d1.injDram p then
      (d1.modMem (fun m => { m with dErr := tabSet (fun _ => 0) m.dErr (placeUnit q) (fld d1.injReg 2 4 * 2 ^ 32) })).injDone
    else d1

/-- Copy the 8 units of a row into its spare row (R434): corrected data are written clean and counted, an uncorrectable unit is entered
in the poison list (R251). -/
def Dev.rowCopy (d : Dev) (c bank row : Nat) : Dev :=
  (List.range 8).foldl (fun (a : Dev) i =>
    let q := placeOf c (rowOffset bank row + 64 * i)
    let clean := fun (a : Dev) => a.modMem (fun m => { m with dErr := tabSet (fun _ => 0) m.dErr (placeUnit q) 0 })
    let bad := fun (a : Dev) =>
      let a1 := a.dramBad q 3 1 (a.unitErr q) none
      if a1.mem.poison.length ≥ 8192 then a1.orCsr 0 bEcc 0x40 0x20
      else (clean a1).modMem (fun m => { (m.put q (List.replicate 64 0)) with poison := m.poison ++ [placeUnit q] })
    if !a.blkValid (placeBlk q) || a.mem.poison.contains (placeUnit q) then a
    else match rsOutcome (a.unitErr q) (a.ch c).marks with
      | some .bad => bad a
      | some .corrected => (clean a).countCe c
      | some .good => clean a
      | none =>
        let (v, a1) := a.draw
        if v % 2 = 0 then bad a1 else (clean a1).modMem (fun m => m.put q (leBytes 64 (v / 2)))) d

/-- Read and decode the unit at place `p` for `src` (as R253 codes SOURCE) and a requester: its bytes, and whether it
is uncorrectable (R242, R244, R251). `wb`: the controller writes a corrected unit back; the read of a read-merge-write leaves that to the
write that follows (R247). Outside the guarantee of R242 the outcome is a free value. -/
def Dev.readUnitWb (d : Dev) (p src : Nat) (ptn : Option Nat) (wb : Bool) : List Byte × Bool × Dev :=
  let q := d.phys p
  let c := placeCh q
  if d.mem.lost.contains (placeBlk p) || !d.serving c then
    (List.replicate 64 0, true, d.dramBad p src 1 0 ptn)
  else if d.mem.poison.contains (placeUnit q) then
    (List.replicate 64 0, true, d.dramBad p src 2 0 ptn)
  else if !d.blkValid (placeBlk q) then
    match d.fillOf (placeBlk q) with
    | some f => if bit f.mask (placeUnit q % 64) then (d.mem.get q 64, false, d) else (List.replicate 64 0, false, d)
    | none => (List.replicate 64 0, false, d)
  else
    let e := d.unitErr q
    let bs := d.mem.get q 64
    match rsOutcome e (d.ch c).marks with
    | some .good => (bs, false, d)
    | some .bad => (List.replicate 64 0, true, d.dramBad p src 1 e ptn)
    | some .corrected =>
      let d1 := d.countCe c
      let un := (bitList e 36).filter (fun i => !(d.ch c).marks.contains i)
      let d2 := if wb then d1.writeBack p q e else d1
      let (d3, changed) := un.foldl (fun (acc : Dev × Bool) i =>
        let r := acc.1.pinCount c i (placeUnit q)
        (r.1, acc.2 || r.2)) (d2, false)
      let pl := bitList e 36
      let d4 := if changed then
          d3.elogWrite { addr := d.addrOf p, space := 0, kind := 0, source := src, channel := c, pinA := pl[0]?, pinB := pl[1]?, partner := ptn }
        else d3
      let (d5, full) := d4.rowCount c q
      let d6 := if full then d5.rowGraft c (bankOf (q % 2 ^ 30)) (rowOf (q % 2 ^ 30)) (fun a => a.rowCopy c (bankOf (q % 2 ^ 30)) (rowOf (q % 2 ^ 30))) else d5
      (bs, false, d6)
    | none =>
      let (v, d1) := d.draw
      if v % 2 = 0 then (List.replicate 64 0, true, d1.dramBad p src 1 e ptn) else (leBytes 64 (v / 2), false, d1)

/-- A read that writes a corrected unit back: a demand read, grooming or a copy. -/
def Dev.readUnit (d : Dev) (p src : Nat) (ptn : Option Nat) : List Byte × Bool × Dev := d.readUnitWb p src ptn true

/-- Units of the accesses in a channel's queues that write a block which is not valid and has no fill yet, by block (R155). -/
def Dev.fillsToBegin (d : Dev) (c : Nat) : List Nat :=
  (((d.ch c).rdq ++ (d.ch c).wrq).filterMap (fun a =>
    let b := placeBlk (d.phys (64 * a.unit))
    if a.kind == .read || d.blkValid b || (d.fillOf b).isSome then none else some b)).eraseDups

/-- A write to place `q` needs no 33rd fill on its channel (R155). -/
def Dev.fillRoom (d : Dev) (q : Nat) : Bool :=
  d.blkValid (placeBlk q) || (d.fillOf (placeBlk q)).isSome || (d.fillsToBegin (placeCh q)).contains (placeBlk q) ||
    decide ((d.mem.fills.filter (fun f => f.blk / 262144 == placeCh q)).length + (d.fillsToBegin (placeCh q)).length < 32)

/-- The unit at place `q` is written or filled, or its block is valid: it can be read (R155). -/
def Dev.filled (d : Dev) (q : Nat) : Bool :=
  d.blkValid (placeBlk q) || (match d.fillOf (placeBlk q) with
    | some f => bit f.mask (placeUnit q % 64)
    | none => false)

/-- Set a mask bit of a fill; a full mask makes the block valid (R155). -/
def Dev.fillMark (d : Dev) (blk i tc chipid : Nat) : Dev :=
  let f := (d.fillOf blk).getD { blk := blk, tc := tc, chipid := chipid }
  let m := f.mask ||| 2 ^ i
  if m = 2 ^ 64 - 1 then
    d.modMem (fun x => { x with fills := x.fills.filter (fun g => g.blk != blk), blkValid := tabSet (fun _ => false) x.blkValid blk true })
  else
    d.modMem (fun x => { x with fills := (x.fills.filter (fun g => g.blk != blk)) ++ [{ f with mask := m }] })

/-- Write a whole unit at place `p` (R155, R251, R254); a unit of a failed or retired channel, or of a LOST block, is
not written: answers whether it was. -/
def Dev.writeUnit (d : Dev) (p : Nat) (bs : List Byte) (tc chipid : Nat) : Dev × Bool :=
  let q := d.phys p
  let c := placeCh q
  if d.mem.lost.contains (placeBlk p) || !d.serving c then (d, false)
  else
    let poisoned := d.mem.poison.contains (placeUnit q)
    let valid := d.blkValid (placeBlk q)
    let put := fun (d : Dev) (e : Nat) => d.modMem (fun m =>
      { (m.put q bs) with dErr := tabSet (fun _ => 0) m.dErr (placeUnit q) e, poison := m.poison.filter (· != placeUnit q) })
    if valid then
      (if d.injDram p && !poisoned then ((put d (fld d.injReg 2 4 * 2 ^ 32)).injDone, true) else (put d 0, true))
    else
      let d0 := if (d.fillOf (placeBlk q)).isNone then d.modMem (fun m => m.erase (placeBlk q * 4096) 4096) else d
      ((put d0 0).fillMark (placeBlk q) (placeUnit q % 64) tc chipid, true)

/-- Merge selected bytes into a unit. -/
def mergeBytes (old new : List Byte) (mask : Nat) : List Byte :=
  (List.range 64).map (fun i => if bit mask i then new.getD i 0 else old.getD i 0)

/-- A write still queued for the unit at place `p` is replaced by a later one (R225). -/
def Dev.supersede (d : Dev) (p : Nat) : Dev :=
  let c := placeCh (d.phys p)
  if d.writeQueued p then d.modCh c (fun x => { x with wrq := x.wrq.filter (fun w => w.unit != placeUnit p) }) else d

/-- Write a whole unit at place `p` now, after whatever was queued for it. -/
def Dev.writeNow (d : Dev) (p : Nat) (bs : List Byte) (tc chipid : Nat) : Dev := ((d.supersede p).writeUnit p bs tc chipid).1

/-- Copy a unit to another place under R251: an uncorrectable unit is written as zero and entered in the poison list.
Answers false where the list is full and the copy is not made. A write queued for the source is seen, and one still queued for the
destination is replaced (R225). -/
def Dev.copyUnit (d00 : Dev) (src dst : Nat) : Dev × Bool :=
  let (bs, bad, d0) := match d00.queuedWrite src with
    | some w => (w.bytes, false, d00)
    | none => d00.readUnit src 3 none
  let d1 := d0.supersede dst
  if bad then
    (if d1.mem.poison.length ≥ 8192 then (d1.orCsr 0 bEcc 0x40 0x20, false)
     else
       let (d2, _) := d1.writeUnit dst (List.replicate 64 0) 0 (2 ^ 64)
       (d2.modMem (fun m => { m with poison := m.poison ++ [placeUnit dst] }), true))
  else ((d1.writeUnit dst bs 0 (2 ^ 64)).1, true)

/-! ### Stack SRAM bytes -/

/-- Log an uncorrectable SRAM byte (R246, R253) of the user-visible array, with FS133. -/
def Dev.sramBad (d : Dev) (a src : Nat) (ptn : Option Nat) : Dev :=
  (((d.elogWrite { addr := a / 8 * 8, space := 1, kind := 1, source := src, sbyte := a % 8, partner := ptn }).bump
    0 bEcc 0x318 1).orCsr 0 bEcc 0x40 4).raise0 133 {}

/-- Read one user-visible SRAM byte (R154, R245, R246): a word whose bit is clear reads as zero; a corrected byte is
rewritten. -/
def Dev.readSByte (d : Dev) (a src : Nat) (ptn : Option Nat) : Byte × Bool × Dev :=
  if !d.wordValid (a / 8) then (0, false, d)
  else
    let b := tabGet (fun _ => (0 : Byte)) d.mem.bytes a
    let clean := fun (d : Dev) => d.modMem (fun m => { m with sErr := tabSet (fun _ => 0) m.sErr a 0 })
    match hamDecode (tabGet (fun _ => 0) d.mem.sErr a) with
    | some (.good, _) => (b, false, d)
    | some (.corrected, _) => (b, false, ((clean d).bump 0 bEcc 0x310 1).ceCount 64)
    | some (.bad, _) => (0, true, d.sramBad a src ptn)
    | none =>
      let (v, d1) := d.draw
      if v % 2 = 0 then (0, true, d1.sramBad a src ptn) else (byte (v / 2), false, d1)

/-- Read `n` user-visible SRAM bytes from `a`; any bad byte makes the whole bad (R144). -/
def Dev.readSram (d : Dev) (a n src : Nat) (ptn : Option Nat) : List Byte × Bool × Dev :=
  let r := (List.range n).foldl (fun (acc : List Byte × Bool × Dev) i =>
    let (b, bad, d') := acc.2.2.readSByte (a + i) src ptn
    (acc.1 ++ [b], acc.2.1 || bad, d')) ([], false, d)
  if r.2.1 then (List.replicate n 0, true, r.2.2) else r

/-- SRAM words have been written: an armed injection at one of them inverts check bits of its byte, where that byte was written. -/
def Dev.injWritten (d : Dev) (words : List Nat) (hit : Nat → Bool) : Dev :=
  match words.find? (fun w => d.injSram (8 * w)) with
  | none => d
  | some w =>
    let t := 8 * w + fld d.injReg 13 3
    if hit t then
      let m := fld d.injReg 8 5
      -- check bits c0 to c3 lie at positions 1, 2, 4, 8 and c4 at 0
      let e := maskOf (((List.range 5).filter (bit m)).map (fun j => if j = 4 then 0 else 2 ^ j))
      (d.modMem (fun x => { x with sErr := tabSet (fun _ => 0) x.sErr t e })).injDone
    else d.injDone

/-- Write selected bytes of user-visible SRAM (R156, R245): a word whose bit is clear takes zero in the rest. -/
def Dev.writeSram (d : Dev) (a : Nat) (bs : List (Nat × Byte)) : Dev :=
  let words := (bs.map (fun x => (a + x.1) / 8)).eraseDups
  let fresh := words.filter (fun w => !d.wordValid w)
  let d1 := fresh.foldl (fun (d : Dev) w => d.modMem (fun m =>
    { (m.erase (8 * w) 8) with wordValid := tabSet (fun _ => false) m.wordValid w true })) d
  let d2 := bs.foldl (fun (d : Dev) x => d.modMem (fun m =>
    { (m.put (a + x.1) [x.2]) with sErr := tabSet (fun _ => 0) m.sErr (a + x.1) 0 })) d1
  d2.injWritten words (fun t => bs.any (fun x => a + x.1 == t))

/-- The queue manager writes `n` bytes of the head and tail store from `a`: they are good from then on, or take an armed injection
(R245, R254). -/
def Dev.storeWritten (d : Dev) (a n : Nat) : Dev :=
  (d.modMem (fun m => { m with sErr := m.sErr.filter (fun e => !(decide (a ≤ e.1) && decide (e.1 < a + n))) })).injWritten
    ((List.range (n / 8)).map (fun i => a / 8 + i)) (fun t => decide (a ≤ t) && decide (t < a + n))

/-- Pair each byte with its offset, as `writeSram` takes them. -/
def offsets (bs : List Byte) : List (Nat × Byte) := bs.zipIdx.map (fun x => (x.2, x.1))

/-! ### One 64-byte unit of either space -/

/-- Read the unit at a place. -/
def Dev.readAt (d : Dev) (p src : Nat) (ptn : Option Nat) : List Byte × Bool × Dev :=
  if inSram p then d.readSram p 64 src ptn else d.readUnit p src ptn

end Sys2Proof.Machine
end

