-- ==== Sys2Proof/Machine/TableView.lean ====
section
/-!
DEFINITION. Table descriptors and their geometry (R199, R202, R203, R207, R211, R212).
-/
namespace Sys2Proof.Machine

def tdKind (t : List Byte) : Nat := leAt t 0 1 % 8
def tdRo (t : List Byte) : Bool := bit (leAt t 0 1) 3
def tdKsize (t : List Byte) : Nat := leAt t 1 1
def tdRsize (t : List Byte) : Nat := leAt t 2 1
def tdLevels (t : List Byte) : Nat := leAt t 3 1
def tdBase (t : List Byte) : Nat := leAt t 4 5
def tdCount (t : List Byte) : Nat := leAt t 12 4
def tdSeed1 (t : List Byte) : Nat := leAt t 16 4
def tdSeed2 (t : List Byte) : Nat := leAt t 20 4
/-- STRIDE_k, k = 1 to 6. -/
def tdStride (t : List Byte) (k : Nat) : Nat := leAt t (15 + k) 1
/-- LBASE_k and NODES_k, k = 2 to 6. -/
def tdLbase (t : List Byte) (k : Nat) : Nat := leAt t (24 + 8 * (k - 2)) 5
def tdNodes (t : List Byte) (k : Nat) : Nat := leAt t (29 + 8 * (k - 2)) 3

/-- Entry size E of an EM table (R202). -/
def emEntry (t : List Byte) : Nat :=
  let n := 4 + tdKsize t + tdRsize t
  if n ≤ 16 then 16 else if n ≤ 32 then 32 else 64

/-- Addresses of the two candidate buckets of a key (R203). -/
def emBuckets (t key : List Byte) : Nat × Nat :=
  let h := fun s => crc32c s key % tdCount t
  (tdBase t + 4 * emEntry t * h (tdSeed1 t), tdBase t + 4 * emEntry t * h (tdSeed2 t))

/-- Key bits [pos, pos + n), first bit most significant (R208). -/
def keyBits (key : List Byte) (pos n : Nat) : Nat :=
  (List.range n).foldl (fun a i =>
    let j := pos + i
    2 * a + b2n (bit ((key.getD (j / 8) 0).toNat) (7 - j % 8))) 0

/-- Base and node size in bytes of level `k` of a trie. -/
def lpmLevelBase (t : List Byte) (k : Nat) : Nat := if k = 1 then tdBase t else tdLbase t k
def lpmNodeBytes (t : List Byte) (k : Nat) : Nat := 8 * 2 ^ tdStride t k
/-- Extent of level `k`. -/
def lpmExtent (t : List Byte) (k : Nat) : Nat := (if k = 1 then 1 else tdNodes t k) * lpmNodeBytes t k

/-- Address of the pair or record that a COUNT or POLICE index names. -/
def tdEntry (t : List Byte) (i : Nat) : Nat := tdBase t + (if tdKind t = 3 then 16 else 64) * i

/-- Unit number of a device address, where it is mapped. -/
def Dev.unitAt (d : Dev) (a : Nat) : Option Nat := (d.placeAt a).map (fun p => placeUnit p.2)

/-- Units of `n` bytes from address `a`. -/
def Dev.unitsOf (d : Dev) (a n : Nat) : List Nat :=
  (List.range (ceilDiv (a % 64 + n) 64)).filterMap (fun i => d.unitAt (a / 64 * 64 + 64 * i))

/-- Units that an EM operation reaches: those of both buckets (R205). -/
def Dev.emUnits (d : Dev) (t key : List Byte) : List Nat :=
  let (b1, b2) := emBuckets t key
  (d.unitsOf b1 (4 * emEntry t) ++ d.unitsOf b2 (4 * emEntry t)).eraseDups

end Sys2Proof.Machine
end

