-- ==== Sys2Proof/WellFormed.lean ====
section
/-!
DEFINITION. Well-formed commands: every operand that names an instance names one the device has. A meaning faults by
name on any other.
-/
namespace Sys2Proof

/-- A lane: 144 of them (R41). -/
def laneOk (l : Nat) : Bool := decide (l < 144)
/-- An octet: 18 of them (R41). -/
def octOk (o : Nat) : Bool := decide (o < 18)
/-- A port: 144 of them (R68). -/
def portOk (n : Nat) : Bool := decide (n < 144)
/-- A partner number (R102). -/
def partnerOk (k : Nat) : Bool := decide (k < 64)
/-- A VC (R80). -/
def vcOk (v : Nat) : Bool := decide (v < 4)
/-- A DRAM channel (R220). -/
def chanOk (c : Nat) : Bool := decide (c < 64)
/-- A channel, or the stack SRAM as 64. -/
def chanOrSramOk (c : Nat) : Bool := decide (c ≤ 64)
/-- A layer of the stack (R391). -/
def layerOk (n : Nat) : Bool := decide (n < 21)
/-- A transfer channel (R277). -/
def xcOk (x : Nat) : Bool := decide (x < 32)
/-- A Slalom engine (R192). -/
def engOk (e : Nat) : Bool := decide (e < 4)
/-- A source of the result collector (R215): 64 Slalom channels, transfer and demand sources up to 99. -/
def collOk (s : Nat) : Bool := decide (s < 101)
/-- A queue (R162). -/
def queueOk (q : Nat) : Bool := decide (q < 131072)
/-- A slot pair: owner and slot (R301, R303). -/
def slotOk (o i : Nat) : Bool := decide (o < 66 ∧ i < 8)
/-- A mailbox owner (R301). -/
def ownerOk (o : Nat) : Bool := decide (o < 66)
/-- A calibration domain (R404). -/
def domOk (n : Nat) : Bool := decide (n < 227)
/-- A sensor (R391). -/
def sensorOk (i : Nat) : Bool := decide (i < 160)
/-- A fault source (R412). -/
def sourceOk (n : Nat) : Bool := decide (n < 256)
/-- An island with a PLL: 0 time base, 1 Heartwood, 2 management (R378). -/
def pllOk (k : Nat) : Bool := decide (k < 3)
/-- A fault-log entry (R426). -/
def logOk (n : Nat) : Bool := decide (n < 32)
/-- An error-log entry (R253). -/
def elogOk (n : Nat) : Bool := decide (n < 64)
/-- An OTP word: region and word (R452). -/
def otpWordOk (w : Nat) : Bool := decide (w < 2048)
/-- A rail (R34). -/
def railOk (r : Nat) : Bool := decide (r < 7)
/-- A clock switch (R387). -/
def switchOk (k : Nat) : Bool := decide (k < 3)
/-- An access path: a partner path names a partner number. -/
def pathOk (p : Path) : Bool := match p with | .partner n => partnerOk n | _ => true
/-- A request names an arrival port and a VC. -/
def hdrOk (h : ReqHdr) : Bool := portOk h.port && vcOk h.vc

/-- Every operand of the command names an instance the device has. -/
def Instr.wf : Instr → Bool
  | .pwrgdRise => true
  | .pwrgdFall => true
  | .resetNRise _ => true
  | .resetNLow _ _ => true
  | .railOutOfTolerance rail _ => railOk rail
  | .vprogHigh => true
  | .vprogSettled => true
  | .vcoreRequestPublish _ => true
  | .octCfgWrite p _ => pathOk p
  | .octetPllLock o => octOk o
  | .octetPllLoss o => octOk o
  | .laneEnable l => laneOk l
  | .laneDisable l => laneOk l
  | .laneReqQuiet l => laneOk l
  | .laneReqDeep l => laneOk l
  | .laneReqActive l => laneOk l
  | .laneRetrain l => laneOk l
  | .txFirWrite p _ => pathOk p
  | .detectPulse l _ => laneOk l
  | .trainingFrameReceived l _ _ _ _ => laneOk l
  | .trainTimerExpiry l => laneOk l
  | .laneFrameReceived l _ _ _ => laneOk l
  | .lockTimerExpiry l => laneOk l
  | .capxTimerExpiry l => laneOk l
  | .lossOfSignal l => laneOk l
  | .failRetryTimer l => laneOk l
  | .errWindowEnd l => laneOk l
  | .laneGapAnnounce l => laneOk l
  | .deepExitTimeout l => laneOk l
  | .portEnable n => portOk n
  | .portDisable n => portOk n
  | .portCfgWrite p _ => pathOk p
  | .bondTimerExpiry n => portOk n
  | .helloReceived n _ => portOk n
  | .negTimerExpiry n => portOk n
  | .dataFlitReceived n _ => portOk n
  | .statusFlitReceived n _ => portOk n
  | .initFlitReceived n _ => portOk n
  | .lanemapFlitReceived n _ => portOk n
  | .transmitFlitSlot n => portOk n
  | .statusDue n => portOk n
  | .nakRepeatTimer n => portOk n
  | .replayTimeout n => portOk n
  | .restripeEffFcnt n => portOk n
  | .restripeTimeout n => portOk n
  | .holdTimerExpiry n => portOk n
  | .portRotation n => portOk n
  | .portFailRetry n => portOk n
  | .leaveTimerExpiry k => partnerOk k
  | .leavingQuiesced k => partnerOk k
  | .reclaimComplete k => partnerOk k
  | .reclaimTimerExpiry k => partnerOk k
  | .read h => hdrOk h
  | .write h => hdrOk h
  | .writeMask h => hdrOk h
  | .readLong h => hdrOk h
  | .atomAdd h => hdrOk h
  | .atomSwap h => hdrOk h
  | .atomCas h => hdrOk h
  | .atomAnd h => hdrOk h
  | .atomOr h => hdrOk h
  | .atomXor h => hdrOk h
  | .emLookup h => hdrOk h
  | .lpmLookup h => hdrOk h
  | .emInsert h => hdrOk h
  | .emDelete h => hdrOk h
  | .count h => hdrOk h
  | .police h => hdrOk h
  | .csrRead h => hdrOk h
  | .csrWrite h => hdrOk h
  | .enqueue h => hdrOk h
  | .dequeue h => hdrOk h
  | .qstatus h => hdrOk h
  | .xferClaim h => hdrOk h
  | .xferStart h => hdrOk h
  | .xferAppend h => hdrOk h
  | .xferStop h => hdrOk h
  | .xferRelease h => hdrOk h
  | .mboxCmd n _ _ => portOk n
  | .unknownOpcodeRequest _ h => hdrOk h
  | .fragmentIssue _ => true
  | .fragmentBegin n vc => portOk n && vcOk vc
  | .enqueueLink q => queueOk q
  | .parkEnd _ => true
  | .cellMove q => queueOk q
  | .tableOperationStart _ => true
  | .slalomGate e _ => engOk e
  | .stepDataReturn _ => true
  | .resultComplete src => collOk src
  | .collectorPass => true
  | .epochStart => true
  | .rescaleGapEnd o => ownerOk o
  | .accessHandover c => chanOk c
  | .controllerCommandSlot c _ => chanOk c
  | .writeAgeExpiry c => chanOk c
  | .refreshDue c => chanOk c
  | .catchupEnd c => chanOk c
  | .bandDown layer => layerOk layer
  | .srAck c => chanOk c
  | .srAckTimeout c => chanOk c
  | .pulse c => chanOk c
  | .idleGap c => chanOk c
  | .forcedGap c => chanOk c
  | .linkTraining c _ => chanOk c
  | .markWindowEnd c => chanOk c
  | .groomPeriodEnd c => chanOrSramOk c
  | .ceWindowEnd c => chanOrSramOk c
  | .injArm p _ => pathOk p
  | .injDisarm p _ => pathOk p
  | .elogEntryRead p n => pathOk p && elogOk n
  | .descFetch x => xcOk x
  | .linkReadReturn x => xcOk x
  | .chainWaitReread x => xcOk x
  | .descComplete x => xcOk x
  | .xferDrainComplete x => xcOk x
  | .evacuationStart c => chanOk c
  | .blockSwitch => true
  | .channelRetirement c => chanOk c
  | .rowWindowEnd c => chanOk c
  | .repairRecordWrite _ => true
  | .wearUpdate => true
  | .wearRecordWrite _ => true
  | .cmdDbRing p _ => pathOk p
  | .rspAckWrite p _ => pathOk p
  | .evqPop p _ => pathOk p
  | .commandStart o i => slotOk o i
  | .commandExpire o i => slotOk o i
  | .commandLimitExceeded o i => slotOk o i
  | .watchdogExpiry => true
  | .lockstepMismatch => true
  | .activationSwitch _ => true
  | .activationWaitTimeout => true
  | .fwRevert _ => true
  | .sysInfo o i => slotOk o i
  | .sysStatus o i => slotOk o i
  | .sysVcoreRead o i => slotOk o i
  | .sysVcoreReport o i => slotOk o i
  | .sysBrst o i => slotOk o i
  | .sysCrst o i => slotOk o i
  | .crstApply _ => true
  | .modeSet o i => slotOk o i
  | .modeDrainComplete => true
  | .modeTimeout => true
  | .shutdown o i _ _ => slotOk o i
  | .cfgBegin o i => slotOk o i
  | .cfgWrite o i => slotOk o i
  | .cfgEnd o i => slotOk o i
  | .cfgRead o i => slotOk o i
  | .cfgStatus o i => slotOk o i
  | .cfgCommit o i _ => slotOk o i
  | .cfgConfirm o i => slotOk o i
  | .cfgRollback o i => slotOk o i
  | .autoRollback => true
  | .partnerList o i => slotOk o i
  | .partnerLeave o i => slotOk o i
  | .partnerEvict o i => slotOk o i
  | .partnerInfo o i => slotOk o i
  | .portInfo o i => slotOk o i
  | .portRetrain o i => slotOk o i
  | .laneInfo o i => slotOk o i
  | .lanePrbs o i => slotOk o i
  | .lanePrbsEnd l => laneOk l
  | .tableInsert o i => slotOk o i
  | .tableDelete o i => slotOk o i
  | .tableLookup o i => slotOk o i
  | .tableScan o i => slotOk o i
  | .queueFlush o i => slotOk o i
  | .queueRecover o i => slotOk o i
  | .queueInfo o i => slotOk o i
  | .queueClrOvr o i => slotOk o i
  | .regCapacity o i => slotOk o i
  | .regBudgets o i => slotOk o i
  | .regTry o i => slotOk o i
  | .telemSnap o i => slotOk o i
  | .telemTemps o i => slotOk o i
  | .telemRead o i => slotOk o i
  | .faultRead o i => slotOk o i
  | .faultClear o i => slotOk o i
  | .faultReact o i => slotOk o i
  | .faultRaise o i => slotOk o i
  | .errCtrl o i => slotOk o i
  | .graftInfo o i => slotOk o i
  | .graftLink o i _ => slotOk o i
  | .channelRetire o i => slotOk o i
  | .selftestRun o i _ _ => slotOk o i
  | .sdtInfo o i => slotOk o i
  | .otpRead o i => slotOk o i
  | .otpShadow o i => slotOk o i
  | .otpProgram o i _ => slotOk o i
  | .otpLock o i _ => slotOk o i
  | .lcAdvance o i _ => slotOk o i
  | .fwBegin o i => slotOk o i
  | .fwWrite o i => slotOk o i
  | .fwVerify o i => slotOk o i
  | .fwActivate o i => slotOk o i
  | .fwConfirm o i => slotOk o i
  | .fwStatus o i => slotOk o i
  | .cmdCsrRead o i => slotOk o i
  | .cmdCsrWrite o i => slotOk o i
  | .csrRmw o i => slotOk o i
  | .firmwareStart => true
  | .bootListEntry => true
  | .refclkRecheck _ _ => true
  | .flashRetry _ _ => true
  | .heatRecheck _ => true
  | .clockMonitorTrip => true
  | .refclkReturn _ => true
  | .clockHoldEnd => true
  | .ringSettle _ => true
  | .ringSettleTimeout => true
  | .ringRemeasure _ => true
  | .pllUnlock k => pllOk k
  | .switchForcedRelease k => switchOk k
  | .heartwoodWake => true
  | .mgmtIslandIdle => true
  | .gateCfgWrite p _ => pathOk p
  | .sensorConversion i _ => sensorOk i
  | .sensorTimeout i => sensorOk i
  | .thermalEvaluation _ => true
  | .riseHoldExpiry => true
  | .calStepStart dom => domOk dom
  | .calStepFinish dom _ => domOk dom
  | .calStepTimeout dom => domOk dom
  | .escalationExpiry n => sourceOk n
  | .heldClearWrite p n _ => pathOk p && decide (n < 8)
  | .reactWrite p n _ => pathOk p && sourceOk n
  | .errDriveWrite p _ => pathOk p
  | .errPulseEnd => true
  | .chkInjArm p _ => pathOk p
  | .faultLogRead p n => pathOk p && logOk n
  | .censusCheck law k vc => decide (1 ≤ law ∧ law ≤ 5) && partnerOk k && vcOk vc
  | .otpSweepStart => true
  | .otpWordRead w _ => otpWordOk w
  | .otpSweepEnd => true
  | .progWindowOpen p _ => pathOk p
  | .progWindowClose p _ => pathOk p
  | .progWindowExpiry => true
  | .mgmtWriteFrame _ => true
  | .mgmtReadFrame _ _ => true
  | .entdaa _ => true
  | .setdasa _ => true
  | .setnewda _ => true
  | .rstdaa => true
  | .getpid => true
  | .getbcr => true
  | .getdcr => true
  | .getstatus => true
  | .enec => true
  | .disec => true
  | .csrAcc _ _ _ => true
  | .trstNLow => true
  | .setAliasWrite p _ _ => pathOk p
  | .clearAliasWrite p _ _ => pathOk p
  | .toggleAliasWrite p _ _ => pathOk p
  | .selectWrite p _ _ => pathOk p
  | .loReadLatch p _ => pathOk p
  | .rcFieldRead p _ => pathOk p
  | .snapGo p _ => pathOk p
  | .registerWrite p _ _ => pathOk p
  | .farEndSignalDetected l => laneOk l
  | .prbsBitsReceived l _ => laneOk l
  | .layerOwnTimerRefresh c => chanOk c
  | .forcedGapEnd c => chanOk c
  | .faultCrstDelay _ => true
  | .islandPllLock k => pllOk k
  | .powerupT2Reached _ => true
  | .sramGroomRead _ => true

end Sys2Proof
end

