-- ==== Sys2Proof/Machine/Txn.lean ====
section
/-!
DEFINITION. The transaction layer (R120 to R144): taking a request, its checks in the order of R131, its answer, the
orders of R135 to R140, staging, and the result collector (R215 to R217).
-/
namespace Sys2Proof.Machine

/-- Opcode codes (R124). -/
def Opc.code : Opc → Nat
  | .read => 0x01 | .write => 0x02 | .writeMask => 0x03 | .readLong => 0x04
  | .atomAdd => 0x10 | .atomSwap => 0x11 | .atomCas => 0x12 | .atomAnd => 0x13 | .atomOr => 0x14 | .atomXor => 0x15
  | .emLookup => 0x20 | .lpmLookup => 0x21 | .emInsert => 0x22 | .emDelete => 0x23 | .count => 0x24 | .police => 0x25
  | .csrRead => 0x30 | .csrWrite => 0x31
  | .enqueue => 0x40 | .dequeue => 0x41 | .qstatus => 0x42
  | .xferClaim => 0x50 | .xferStart => 0x51 | .xferAppend => 0x52 | .xferStop => 0x53 | .xferRelease => 0x54
  | .unknown => 0

/-- The generation from which an opcode is available (R124). -/
def Opc.minGen : Opc → Nat
  | .read | .write => 1
  | .readLong | .enqueue | .dequeue | .qstatus | .xferClaim | .xferStart | .xferAppend | .xferStop | .xferRelease => 3
  | _ => 2

/-- The VC an opcode travels on (R124). -/
def Opc.vc : Opc → Nat
  | .enqueue | .dequeue | .qstatus | .xferClaim | .xferStart | .xferAppend | .xferStop | .xferRelease => 2
  | _ => 0

/-- Opcodes that are posted unless NP is set (R124). -/
def Opc.canPost : Opc → Bool
  | .write | .writeMask | .count | .enqueue => true
  | _ => false

/-- Raw atomics. -/
def Opc.isAtom : Opc → Bool
  | .atomAdd | .atomSwap | .atomCas | .atomAnd | .atomOr | .atomXor => true
  | _ => false

/-- Table opcodes. -/
def Opc.isTable : Opc → Bool
  | .emLookup | .lpmLookup | .emInsert | .emDelete | .count | .police => true
  | _ => false

/-- Raw opcodes (R150). -/
def Opc.isRaw : Opc → Bool
  | .read | .write | .writeMask | .readLong => true
  | o => o.isAtom

/-- Opcodes that write, for the stream order of R136. -/
def Opc.writes : Opc → Bool
  | .write | .writeMask | .emInsert | .emDelete | .count | .police => true
  | o => o.isAtom

/-- Status codes (R132). -/
def Status.code : Status → Nat
  | .ok => 0 | .unsup => 1 | .malformed => 2 | .addr => 3 | .denied => 4 | .uncorr => 5 | .late => 6 | .departing => 7
  | .busy => 8 | .notOwner => 9 | .full => 0xA | .empty => 0xB | .tableFull => 0xC | .noService => 0xD

/-- Payload bytes of a flit of a generation (R120). -/
def flitBytes (gen : Nat) : Nat := if gen ≤ 1 then 58 else 122

/-- Flits of a packet of `n` bytes after the header. -/
def flitsOf (gen n : Nat) : Nat := ceilDiv (16 + n) (flitBytes gen)

def Dev.tagHeld (d : Dev) (k tag : Nat) : Bool := d.txn.tags.contains (4096 * k + tag)
def Dev.holdTag (d : Dev) (k tag : Nat) : Dev := d.modTxn (fun t => { t with tags := t.tags ++ [4096 * k + tag] })
def Dev.freeTag (d : Dev) (k tag : Nat) : Dev := d.modTxn (fun t => { t with tags := t.tags.filter (· != 4096 * k + tag) })

/-- Deadline of a request (R129). -/
def Req.deadline (r : Req) : Option Nat := if r.dline = 0 ∨ r.gen < 3 then none else some (r.stamp + 8 * r.dline)
/-- The deadline has passed at `t` (R129: at the deadline is on time). -/
def lateAt (dl : Option Nat) (t : Nat) : Bool := match dl with | some e => decide (e < t) | none => false

/-! ### Checks (R131, R132) -/

/-- The packet is well formed (the MALFORMED row of R132, with the operands of R125). -/
def wellFormed (d : Dev) (o : Opc) (r : Req) (plen : Nat) : Bool :=
  let t := d.td (r.addr % 64)
  let ml := r.mod == 0 && r.len == 0
  let tab := fun (k n : Nat) => ml && tdKind t == k && plen == n && bits r.addr 6 2 == 0
  let q := r.addr < 131072
  let x := r.addr < 32
  match o with
  | .read => ml && plen == 0 && r.addr % 64 == 0
  | .write => ml && plen == 64 && r.addr % 64 == 0
  | .writeMask => ml && plen == 72 && r.addr % 64 == 0
  | .readLong => r.mod == 0 && plen == 0 && r.addr % 64 == 0 && decide (1 ≤ r.len ∧ r.len ≤ 1024)
  | .atomCas => r.len == 0 && decide (r.mod < 2) && plen == 16 && r.addr % (if r.mod = 1 then 4 else 8) == 0
  | .atomAdd | .atomSwap | .atomAnd | .atomOr | .atomXor =>
    r.len == 0 && decide (r.mod < 2) && plen == 8 && r.addr % (if r.mod = 1 then 4 else 8) == 0
  | .emLookup => tab 1 (tdKsize t)
  | .lpmLookup => tab 2 (tdKsize t)
  | .emInsert => tab 1 (tdKsize t + tdRsize t)
  | .emDelete => tab 1 (tdKsize t)
  | .count => tab 3 8
  | .police => tab 4 8
  | .csrRead => ml && plen == 0 && r.addr % 4 == 0
  | .csrWrite => ml && plen == 4 && r.addr % 4 == 0
  | .enqueue => r.mod == 0 && q && decide (1 ≤ r.len ∧ r.len ≤ 16384) && plen == r.len
  | .dequeue => q && plen == 0 && (if r.mod = 0 then r.len == 0 else r.mod == 1 && decide (1 ≤ r.len ∧ r.len ≤ 64))
  | .qstatus => ml && q && plen == 0
  | .xferStart => ml && x && plen == 8
  | .xferClaim | .xferAppend | .xferStop | .xferRelease => ml && x && plen == 0
  | .unknown => true

/-- ADDR and DENIED of one raw unit (R132, R150): the queue store and the regions of the device's own use are DENIED. -/
def Dev.rawUnit (d : Dev) (a : Nat) (write : Bool) : Option Status :=
  if inQueueStore a then some .denied
  else match d.placeAt a with
    | none => some .addr
    | some (r, _) =>
      if r.type != 1 && r.type != 2 then some .denied
      else if write && r.wp then some .denied else none

/-- Device addresses of the units of a raw request. -/
def Req.addrs (r : Req) : List Nat :=
  if r.opc == .readLong then (List.range r.len).map (fun i => r.addr + 64 * i) else [r.addr / 64 * 64]

/-- The range of R146 that holds an address: 0 DRAM, 1 lower SRAM, 2 upper SRAM, 3 none. -/
def addrRange (a : Nat) : Nat :=
  if a < 0x1000000000 then 0 else if a < 0x1001000000 then 1 else if a < 0x1002000000 then 2 else 3

/-- ADDR and DENIED of R131, steps 6 and 7, for raw and table requests. -/
def Dev.addrCheck (d : Dev) (r : Req) : Option Status :=
  if r.opc.isRaw then
    let us := r.addrs
    let span := match us with | a :: _ => us.any (fun b => addrRange b != addrRange a) | [] => false
    let ss := us.filterMap (fun a => d.rawUnit a (r.opc.writes))
    if span || ss.contains .addr then some .addr else if ss.contains .denied then some .denied else none
  else
    let t := d.td (r.addr % 64)
    match r.opc with
    | .count | .police =>
      if r.addr / 256 ≥ tdCount t then some .addr else if tdRo t then some .denied else none
    | .emInsert | .emDelete => if tdRo t then some .denied else none
    | .csrRead | .csrWrite => if csrBase ≤ r.addr ∧ r.addr < csrBase + 0x1000000 then none else some .addr
    | _ => none

/-- Requests on VC0 and VC2 are admitted: SERVICE, with no drain begun (R132, R372). -/
def Dev.admitting (d : Dev) : Bool :=
  d.clk.mode == .service && (match d.clk.move with | some m => m.ph == .ready | none => true)

/-- The first of checks 2 to 7 of R131 that fails. -/
def Dev.refusal (d : Dev) (r : Req) (plen : Nat) : Option Status :=
  if r.opc == .unknown || r.gen < r.opc.minGen || r.vc != r.opc.vc then some .unsup
  else if !wellFormed d r.opc r plen then some .malformed
  else if (d.ptn r.ptn).st == .leaving then some .departing
  else if !d.admitting then some .noService
  else d.addrCheck r

/-! ### Answers -/

/-- A posted request failed (R133); of a posted ENQUEUE every refusal is counted and posts no event (R174). -/
def Dev.postedErr (d : Dev) (r : Req) (st : Status) : Dev :=
  if st == .ok then d
  else if r.opc == .enqueue || st == .noService || st == .departing || st == .malformed then d.bump 0 bTelem (0x400 + 8 * r.ptn) 1
  else
    let d1 := d.post r.ptn 7 ([byte r.port, byte r.opcRaw] ++ leBytes 2 r.tag ++ leBytes 5 r.addr ++ [byte st.code] ++
      List.replicate 6 0 ++ leBytes 8 r.stamp)
    d1.raise0 92 { kind := 4, inst := r.ptn, a := r.port }

/-- A packet on VC3 that is refused: it is counted and raises FS090, and is not answered (R302). -/
def Dev.refuseVc3 (d : Dev) (k port raw : Nat) : Dev :=
  (d.bump 0 bTelem (0x400 + 8 * k) 1).raise0 90 { kind := 4, inst := k, a := port, b := raw }

/-- The request leaves the list of admitted requests. -/
def Dev.dropReq (d : Dev) (id : Nat) : Dev := d.modTxn (fun t => { t with
  reqs := t.reqs.filter (fun r => r.id != id), shrWait := t.shrWait.filter (· != id) })
def Dev.modReq (d : Dev) (id : Nat) (f : Req → Req) : Dev :=
  d.modTxn (fun t => { t with reqs := t.reqs.map (fun r => if r.id = id then f r else r) })
def Dev.req? (d : Dev) (id : Nat) : Option Req := d.txn.reqs.find? (fun r => r.id == id)

/-- VC of a response (R124). -/
def respVc (vc : Nat) : Nat := if vc = 0 then 1 else 2

/-- Answer a request whose response is one fragment, or record the failure of a posted one; a response of a departed
partner is discarded with its tag (R112, R133, R141). -/
def Dev.answerF (d : Dev) (r : Req) (st : Status) (data : List Byte) (aux : Nat) (fr : Frag → Frag) : Dev :=
  let d1 := d.dropReq r.id
  if r.posted then (if r.depart then d1 else d1.postedErr r st)
  else if r.depart then d1.freeTag r.ptn r.tag
  else
    let f : Frag := { id := r.id, ord := r.ord, stamp := r.stamp, ptn := r.ptn, port := r.port, vc := respVc r.vc
                      opc := r.opcRaw, status := st, tag := r.tag, late := lateAt r.deadline d.dt, data := data
                      doneDt := d.dt, aux := aux, tc := r.tc }
    d1.modTxn (fun t => { t with frags := t.frags ++ [fr f] })

def Dev.answer (d : Dev) (r : Req) (st : Status) (data : List Byte) (aux : Nat) : Dev := d.answerF r st data aux id

/-! ### Taking a request -/

/-- Record a stamp tie (R128): one ARB record where the last request has the same stamp. -/
def Dev.arbStamp (d : Dev) (k tag : Nat) : Dev :=
  let d1 := match d.txn.last with
    | some (s, w, wt) => if s = d.dt then
        d.tele 1 ([1, 2, byte w, 0] ++ leBytes 2 wt ++ [byte k, 0] ++ leBytes 2 tag ++ List.replicate 6 0) else d
    | none => d
  d1.modTxn (fun t => { t with last := some (d.dt, k, tag) })

/-- Take a request packet: stamp it, make the checks of R131 up to DENIED, and answer it where one fails; a refused ENQUEUE's answer gives OCC
(R174). A packet on VC3 holds no tag and is not answered (R124, R302). Answers the request where it is admitted; `raw` is the opcode byte. -/
def Dev.takeReq (d : Dev) (o : Opc) (raw : Nat) (h : ReqHdr) : Dev × Option Req :=
  let p := d.port h.port
  match p.partner with
  | none => (d, none)
  | some k =>
    if !d.present k then (d, none)
    else if h.vc = 3 then ((d.arbStamp k h.tag).refuseVc3 k h.port raw, none)
    else
      let d0 := d.arbStamp k h.tag
      let posted := o.canPost && !(h.np && decide (2 ≤ p.gen))
      let r : Req := { id := d.txn.nextId, ord := d.txn.nextOrd, opc := o, opcRaw := raw, ptn := k, port := h.port, vc := h.vc
                       gen := p.gen, stamp := d.dt, tc := h.tc % 8, posted := posted, fence := h.fence && decide (2 ≤ p.gen)
                       dropLate := h.dropLate && decide (3 ≤ p.gen), tag := h.tag % 4096, addr := h.addr, mod := h.mod
                       len := h.len, dline := h.dline, data := h.data }
      let d1 := d0.modTxn (fun t => { t with nextId := t.nextId + 1, nextOrd := t.nextOrd + 1 })
      if !posted && d.tagHeld k r.tag then
        ((d1.raise0 91 { kind := 4, inst := k, a := h.port }).post k 6 ([byte h.port, byte raw] ++ leBytes 2 r.tag), none)
      else
        let d2 := if posted then d1 else d1.holdTag k r.tag
        match d.refusal r h.plen with
        | some st =>
          let d3 := if st == .unsup || st == .malformed then d2.raise0 90 { kind := 4, inst := k, a := h.port, b := raw } else d2
          (d3.answer r st [] (if o == .enqueue then (d.queue (r.addr % 131072)).occ else 0), none)
        | none => (d2, some r)

/-- Take a request that a fragment issue executes (raw reads, writes and atomics), with its fragments' data lengths. -/
def Dev.admitRaw (d : Dev) (o : Opc) (h : ReqHdr) : Dev :=
  match d.takeReq o o.code h with
  | (d1, none) => d1
  | (d1, some r) =>
    let n := if o == .readLong then ceilDiv r.len 16 else 1
    d1.modTxn (fun t => { t with reqs := t.reqs ++ [{ r with frags := (List.range n).map (fun i => { idx := i }) }] })

/-! ### Orders (R135 to R138) -/

/-- Units an admitted request has yet to reach. -/
def Req.unitsLeft (d : Dev) (r : Req) : List Nat :=
  if r.st == .done then []
  else if r.opc.isRaw then
    ((r.addrs).drop (if r.opc == .readLong then 16 * r.nextFrag else r.nextFrag)).filterMap d.unitAt
  else match r.opc with
    | .emLookup => (d.emUnits r.td (r.data.take (tdKsize r.td))).filter (fun u => !r.sdata.any (fun x => x.1 == u))
    | .emDelete | .emInsert => d.emUnits r.td (r.data.take (tdKsize r.td))
    | .count | .police => d.unitsOf (tdEntry r.td (r.addr / 256)) 1
    | _ => []

/-- A walk may yet reach a unit: it lies in a level not yet passed. -/
def Req.walkReach (d : Dev) (r : Req) (u : Nat) : Bool :=
  r.opc == .lpmLookup && r.st != .done &&
    (let a := d.addrOf (64 * u)
     (List.range (tdLevels r.td)).any (fun i =>
       decide (r.step ≤ i) && decide (lpmLevelBase r.td (i + 1) / 64 * 64 ≤ a) &&
         decide (a < lpmLevelBase r.td (i + 1) + lpmExtent r.td (i + 1))))

/-- An access to unit `u` of an earlier place in the stamp order has still to be performed, or a read-merge-write of one holds the unit from
its read to its write (R135, R225). -/
def Dev.earlier (d : Dev) (ord u : Nat) : Bool :=
  d.txn.reqs.any (fun r => decide (r.ord < ord) && ((r.unitsLeft d).contains u || r.walkReach d u)) ||
  d.txn.acc.any (fun a => decide (a.ord < ord) && a.unit == u) ||
  (!inSram (64 * u) &&
    (let x := d.ch (placeCh (d.phys (64 * u)))
     (x.rdq ++ x.wrq).any (fun a => a.kind == .rmw && decide (a.ord < ord) && a.unit == u)))

/-- A write waits for the earlier writes of its stream (R136). -/
def Dev.streamBlocked (d : Dev) (r : Req) : Bool :=
  r.opc.writes && d.txn.reqs.any (fun x => decide (x.ord < r.ord) && x.port == r.port && x.vc == r.vc && x.opc.writes && x.st != .done)

/-- A fenced request waits for every earlier request of its partner (R138). -/
def Dev.fenceBlocked (d : Dev) (r : Req) : Bool :=
  r.fence && (d.txn.reqs.any (fun x => x.ptn == r.ptn && decide (x.ord < r.ord) && x.st != .done) ||
    d.qm.opens.any (fun x => x.ptn == r.ptn && decide (x.ord < r.ord)))

/-! ### Staging (R143) -/

/-- Reserve `n` bytes of staging for request `id`, first from the partner's share: bytes taken from each part. The shared part goes to the
requests in the order in which they came to need it. -/
def Dev.reserve (d : Dev) (id k n : Nat) : Option (Nat × Nat × Dev) :=
  let used := tabGet (fun _ => 0) d.txn.rsvUsed k
  let a := min n (32768 - used)
  let b := n - a
  if b = 0 || ((d.txn.shrWait.head?.getD id == id) && decide (d.txn.shrUsed + b ≤ 1048576)) then
    some (a, b, d.modTxn (fun t => { t with
      rsvUsed := tabSet (fun _ => 0) t.rsvUsed k (used + a), shrUsed := t.shrUsed + b, shrWait := t.shrWait.filter (· != id) }))
  else none

/-- A request finds no room: it waits for the shared part, behind those that wait already. -/
def Dev.waitRoom (d : Dev) (id : Nat) : Dev :=
  d.modTxn (fun t => { t with shrWait := if t.shrWait.contains id then t.shrWait else t.shrWait ++ [id] })

/-- Free staging. -/
def Dev.unreserve (d : Dev) (k a b : Nat) : Dev :=
  d.modTxn (fun t => { t with rsvUsed := tabMod (fun _ => 0) t.rsvUsed k (fun u => u - a), shrUsed := t.shrUsed - b })

/-! ### Fragments -/

/-- Bytes of fragment `i` of a response of `n` bytes (R141). -/
def fragLen (n i : Nat) : Nat := min 1024 (n - 1024 * i)

/-- Bytes of the whole response of a raw request. -/
def Req.respLen (r : Req) : Nat :=
  match r.opc with
  | .read => 64
  | .readLong => 64 * r.len
  | .dequeue => r.rlen
  | o => if o.isAtom then 8 else 0

/-- Bytes of the head block of a cell-mode dequeue (R178). -/
def Req.headLen (r : Req) : Nat := if r.opc == .dequeue && r.mod = 1 then 16 else 0

/-- The head block of a cell-mode dequeue (R178). -/
def Req.headBlock (r : Req) : List Byte :=
  leBytes 2 r.pktlen ++ leBytes 2 (b2n r.sop + 2 * b2n r.eop) ++ leBytes 2 r.poff ++ leBytes 2 r.cells.length ++
    leBytes 4 r.linkDt ++ leBytes 4 0

/-- Packet bytes [lo, hi) that fragment `i` of a dequeue carries, counted from the first byte taken. -/
def Req.deqSpan (r : Req) (i : Nat) : Nat × Nat :=
  (1024 * i - r.headLen, min (1024 * (i + 1) - r.headLen) (r.rlen - r.headLen))

/-- Cells whose last byte fragment `i` of a dequeue carries (R179). -/
def Req.deqCells (r : Req) (i : Nat) : List Nat :=
  let (lo, hi) := r.deqSpan i
  (r.cells.zipIdx.filter (fun c => decide (lo < 256 * c.2 + c.1.2 ∧ 256 * c.2 + c.1.2 ≤ hi))).map (fun c => c.1.1)

/-- The fragment of request `r` that `f` has become, ready to be sent (R141, R144). -/
def Req.toFrag (r : Req) (f : FragSt) (now : Nat) : Frag :=
  let units := f.got
  let n := fragLen r.respLen f.idx
  let bad := units.any (·.bad)
  let mask := maskOf ((units.filter (·.bad)).map (·.idx))
  let done := f.doneDt.getD now
  -- units in index order
  let flat : List Byte := ((List.range 20).map (fun i => match units.find? (fun u => u.idx == i) with
    | some u => padTo 64 u.bytes
    | none => [])).flatten
  let body : List Byte :=
    if r.opc.isAtom then r.resp
    else if r.opc == .dequeue then
      (let (lo, hi) := r.deqSpan f.idx
       (if f.idx = 0 && r.headLen != 0 then r.headBlock else []) ++ slice flat (lo % 64) (hi - lo))
    else flat.take n
  let st : Status := if bad && (r.opc == .read || r.opc == .readLong || r.opc == .dequeue) then .uncorr else r.status
  { id := r.id, ord := r.ord, stamp := r.stamp, ptn := r.ptn, port := r.port, vc := respVc r.vc, opc := r.opcRaw
    status := st, tag := r.tag, last := f.idx + 1 == r.frags.length, late := lateAt r.deadline done, fidx := f.idx
    data := padTo n body, doneDt := done
    aux := if r.opc == .read || r.opc == .readLong then mask else r.aux
    tc := r.tc, rsv := f.rsv, shr := f.shr
    cells := if r.opc == .dequeue then r.deqCells f.idx else [] }

def Dev.modFrag (d : Dev) (id fidx : Nat) (g : FragSt → FragSt) : Dev :=
  d.modReq id (fun r => { r with frags := r.frags.map (fun f => if f.idx = fidx then g f else f) })

/-- A fragment whose data are complete and delivered is staged for sending; the last one ends the request (R141). -/
def Dev.stage (d : Dev) (id fidx : Nat) : Dev :=
  match d.req? id with
  | none => d
  | some r =>
    match r.frags.find? (fun f => f.idx == fidx) with
    | none => d
    | some f =>
      let fin := fun (d : Dev) =>
        let d1 := d.modFrag id fidx (fun f => { f with out := 0, pend := 0, doneDt := some (f.doneDt.getD d.dt), got := [] })
        let all := (d1.req? id).map (fun r => decide (r.nextFrag = r.frags.length) && r.frags.all (fun g => g.doneDt.isSome && g.pend == 0 && g.out == 0))
        if all == some true then (if r.opc == .dequeue then d1.modReq id (fun r => { r with st := .done }) else d1.dropReq id) else d1
      if r.posted then (let d1 := d.dropReq id; if r.depart then d1 else d1.postedErr r r.status)
      else if r.depart then
        let d1 := fin (d.unreserve r.ptn f.rsv f.shr)
        if (d1.req? id).isNone then d1.freeTag r.ptn r.tag else d1
      else
        let fr := r.toFrag f d.dt
        fin (d.modTxn (fun t => { t with frags := t.frags ++ [fr] }))

/-- An access of a fragment has returned: form its completion (R215). -/
def Dev.accReturn (d : Dev) (id fidx ch : Nat) (u : UnitVal) : Dev :=
  let d1 := d.modFrag id fidx (fun f =>
    { f with pend := f.pend - 1, out := f.out + 1, got := f.got ++ [u]
             doneDt := if f.pend ≤ 1 then some d.dt else f.doneDt })
  d1.modTxn (fun t => { t with comps := t.comps ++ [{ src := ch, ref := .frag id fidx }] })

/-! ### Raw operations on one unit -/

/-- The new value of an atomic (R126). -/
def atomNew (o : Opc) (w : Nat) (old op1 op2 : Nat) : Nat :=
  match o with
  | .atomAdd => (old + op1) % 2 ^ w
  | .atomSwap => op1
  | .atomCas => if old = op1 then op2 else old
  | .atomAnd => old &&& op1
  | .atomOr => old ||| op1
  | .atomXor => old ^^^ op1
  | _ => old

/-- Size of an atomic in bytes. -/
def Req.atomSize (r : Req) : Nat := if r.mod = 1 then 4 else 8

/-- New bytes and the old value of an atomic over `bs` at offset `o`. -/
def Req.atomApply (r : Req) (bs : List Byte) (o : Nat) : List Byte × Nat :=
  let n := r.atomSize
  let old := leAt bs o n
  (overlay bs o (leBytes n (atomNew r.opc (8 * n) old (leAt r.data 0 n) (leAt r.data 8 n))), old)

/-- Byte enables of a WRITE_MASK. -/
def Req.enables (r : Req) : Nat := leAt r.data 0 8

/-- The write request has landed or failed: its status is known and its effect is visible (R139). -/
def Dev.landed (d : Dev) (id : Nat) (st : Status) : Dev := d.modReq id (fun r => { r with st := .done, status := st })

/-- Perform a raw request on stack SRAM, whole (R245: no merge is needed). -/
def Dev.sramOp (d : Dev) (r : Req) (f : FragSt) : Dev :=
  let id := r.id
  match r.opc with
  | .read | .readLong =>
    let us := (r.addrs.drop (16 * f.idx)).take 16
    let d1 := (us.zipIdx).foldl (fun (d : Dev) x =>
      let (bs, bad, d') := d.readSram x.1 64 0 (some r.ptn)
      d'.modFrag id f.idx (fun g => { g with got := g.got ++ [{ idx := x.2, bytes := bs, bad := bad }] })) d
    let d2 := if f.idx + 1 == r.frags.length then d1.modReq id (fun r => { r with st := .done }) else d1
    (d2.modFrag id f.idx (fun g => { g with doneDt := some d.dt })).stage id f.idx
  | .write => ((d.writeSram r.addr (offsets (padTo 64 r.data))).landed id .ok).stage id 0
  | .writeMask =>
    let bs := (offsets (slice r.data 8 64)).filter (fun x => bit r.enables x.1)
    ((d.writeSram r.addr bs).landed id .ok).stage id 0
  | _ =>
    let o := r.addr % 64
    let (bs, bad, d1) := d.readSram (r.addr - o) 64 1 (some r.ptn)
    if bad then (d1.landed id .uncorr).stage id 0
    else
      let (new, old) := r.atomApply bs o
      (((d1.writeSram r.addr (offsets (slice new o r.atomSize))).modReq id (fun r => { r with resp := leBytes 8 old })).landed id .ok).stage id 0

/-- Response data bytes for which fragment `i` reserves staging; a posted request has no response. -/
def Req.stageLen (r : Req) (i : Nat) : Nat := if r.posted then 0 else fragLen r.respLen i

/-- A DROP_LATE request whose deadline has passed is abandoned before it begins (R130, R269). -/
def Req.abandons (r : Req) (now : Nat) : Bool :=
  r.dropLate && !r.posted && !r.begun && lateAt r.deadline now && r.opc != .dequeue

/-- Abandon a request: its accesses and staging are given up, and it is answered LATE. -/
def Dev.abandon (d : Dev) (r : Req) : Dev :=
  let d1 := r.frags.foldl (fun (a : Dev) f => a.unreserve r.ptn f.rsv f.shr) d
  let d2 := d1.modTxn (fun t => { t with acc := t.acc.filter (fun a => match a.for_ with | .req i _ => i != r.id | _ => true) })
  (d2.bump 0 bReg (0x200 + 32 * r.tc + 0x18) 1).answer r .late [] 0

/-- Issue the accesses of a request's next fragment once staging is reserved for it (R143); those of a dequeue once its descriptors are read. -/
def Dev.issueFrag (d : Dev) (id : Nat) : Dev :=
  match d.req? id with
  | none => d
  | some r =>
    let i := r.nextFrag
    if i ≥ r.frags.length || !(r.opc.isRaw || r.opc == .dequeue) || d.fenceBlocked r || r.dpend ≠ 0 then d
    else match d.reserve id r.ptn (r.stageLen i) with
      | none => d.waitRoom id
      | some (a, b, d1) =>
        let issue := fun (d : Dev) => (d.modReq id (fun r => { r with nextFrag := i + 1, st := .issued })).modFrag id i
          (fun f => { f with rsv := a, shr := b })
        let acc := fun (u idx : Nat) (k : AccKind) (bs : List Byte) (m : Nat) =>
          ({ for_ := .req id i, unit := u, idx := idx, kind := k, bytes := bs, mask := m, ord := r.ord, stamp := r.stamp
             tc := r.tc, chipid := (d.ptn r.ptn).chipid, deadline := r.deadline, dropLate := r.dropLate, arrive := d.dt } : Access)
        let push := fun (d : Dev) (l : List Access) =>
          ((issue d).modFrag id i (fun f => { f with pend := l.length })).modTxn (fun t => { t with acc := t.acc ++ l })
        if r.opc == .dequeue then
          -- the units of the cells of this fragment, in the order of the data; a unit whose descriptor was lost is bad
          let (lo, hi) := r.deqSpan i
          let us := (r.cells.map (fun c => (List.range (ceilDiv c.2 64)).map (fun j => placeUnit (d.cellPlace c.1) + j))).flatten
          let ix := (List.range (ceilDiv hi 64 - lo / 64)).map (fun j => (j, us[lo / 64 + j]?))
          let lost := ix.filterMap (fun x => if x.2.isNone then some ({ idx := x.1, bytes := List.replicate 64 0, bad := true } : UnitVal) else none)
          let as := ix.filterMap (fun x => x.2.map (fun u => acc u x.1 .read [] 0))
          let d2 := (push d1 as).modFrag id i (fun f => { f with got := lost })
          if as.isEmpty then d2.stage id i else d2
        else
          let us := (((if r.opc == .readLong then r.addrs.drop (16 * i) else r.addrs).take 16).filterMap d.unitAt)
          if us.all (fun u => inSram (64 * u)) then
            (if us.any (fun u => d.earlier r.ord u) || d.streamBlocked r then d
             else if r.abandons d.dt then d.abandon r
             else
               let d2 := (issue d1).modReq id (fun r => { r with begun := true })
               match d2.req? id with
               | some r2 => d2.sramOp r2 ((r2.frags.find? (fun f => f.idx == i)).getD {})
               | none => d2)
          else match r.opc with
            | .read | .readLong => push d1 (us.zipIdx.map (fun x => acc x.1 x.2 .read [] 0))
            | .write => push d1 (us.map (fun u => acc u 0 .write (padTo 64 r.data) (2 ^ 64 - 1)))
            | .writeMask =>
              if r.enables = 0 then
                -- no access is made, in its place in the order of R135
                (if us.any (fun u => d.earlier r.ord u) then d else ((issue d1).landed id .ok).stage id i)
              else if r.enables = 2 ^ 64 - 1 then push d1 (us.map (fun u => acc u 0 .write (slice r.data 8 64) (2 ^ 64 - 1)))
              else push d1 (us.map (fun u => acc u 0 .rmw (slice r.data 8 64) r.enables))
            | _ => push d1 (us.map (fun u => acc u 0 .rmw [] 0))

/-! ### The result collector -/

/-- Shared slots held. -/
def Dev.sharedHeld (d : Dev) : Nat := (d.txn.comps.filter (fun c => c.slot == .shared)).length
/-- Slots held (R217). -/
def Dev.slotsHeld (d : Dev) : Nat := (d.txn.comps.filter (fun c => c.slot != .none)).length

/-- Claim a slot for the first waiting completion of a list after those already passed, or mark it waiting (R215). -/
def claimIn : List Comp → Bool → Nat → Nat → List Comp
  | [], _, _, _ => []
  | c :: t, rsvFree, shared, src =>
    if c.src = src && c.slot == .none then
      (if rsvFree then { c with slot := .reserved } else if shared < 411 then { c with slot := .shared } else { c with waited := true }) :: t
    else c :: claimIn t rsvFree shared src

/-- A source completes: it takes its reserved slot if free, a shared slot otherwise, or holds its completion (R215). The order of two claims
on the shared slots at one DT is recorded. -/
def Dev.claim (d : Dev) (src : Nat) : Dev :=
  match d.txn.comps.find? (fun c => c.src == src && c.slot == .none) with
  | none => d
  | some c =>
    let rsvFree := !d.txn.comps.any (fun c => c.src == src && c.slot == .reserved)
    let d0 := if !rsvFree && d.sharedHeld < 411 then d.arb 3 0 src 0 else d
    let d1 := d0.modTxn (fun t => { t with comps := claimIn t.comps rsvFree d.sharedHeld src })
    if !rsvFree && d.sharedHeld ≥ 411 && !c.waited then d1.bump 0 bSlalom 0x148 1 else d1

/-- A completion that has entered a slot gives its context back (R194). -/
def Dev.freeCtx (d : Dev) : Dev :=
  let ids := d.txn.comps.filterMap (fun c => match c.ref with | .table id => if c.slot != .none then some id else none | _ => none)
  d.modTxn (fun t => { t with reqs := t.reqs.map (fun r => if ids.contains r.id then { r with ctx := false } else r) })

/-- Deliver a completion of a fragment: the fragment is staged when its last one is delivered. -/
def Dev.deliverFrag (d : Dev) (id fidx : Nat) : Dev :=
  let d1 := d.modFrag id fidx (fun f => { f with out := f.out - 1 })
  match d1.req? id with
  | none => d1
  | some r =>
    match r.frags.find? (fun f => f.idx == fidx) with
    | none => d1
    | some f => if f.pend = 0 ∧ f.out = 0 then d1.stage id fidx else d1

end Sys2Proof.Machine
end

