-- ==== Sys2Proof/Machine/QmBase.lean ====
section
/-!
DEFINITION. What the units that execute requests share: the queue manager's pools, events and frozen queues (R167 to R169, R187), and the
ends of transfer channels (R292 to R294).
-/
namespace Sys2Proof.Machine

/-! ### Pools (R167 to R169) -/

/-- Cells of the CELL region and descriptor units of the DESC region. -/
def Dev.cellNominal (d : Dev) : Nat := (imgRegionOfType d.image 3).size * 262144
def Dev.unitNominal (d : Dev) : Nat := (imgRegionOfType d.image 4).size * 1048576

/-- Free units of a channel are quarantined: it is DEGRADED (R169). -/
def Dev.chQuar (d : Dev) (ch : Nat) : Bool := (d.ch ch).st == .degraded || (d.ch ch).wasDegraded || (d.ch ch).failed

/-- First index that a pending shrink quarantines, for cells or descriptor units. -/
def Dev.cellLim (d : Dev) : Nat := match d.qm.shrink with | some (c, _) => c | none => d.cellNominal
def Dev.unitLim (d : Dev) : Nat := match d.qm.shrink with | some (_, u) => u | none => d.unitNominal

/-- Free units in quarantine, of `n` units with the used ones listed (R168). -/
def Dev.quar (d : Dev) (n lim : Nat) (used : List Nat) : Nat :=
  ((List.range 64).map (fun ch =>
    if d.retired ch then 0
    else
      let lo := if d.chQuar ch then 0 else min lim n
      (n - lo) / 64 - (used.filter (fun u => u % 64 == ch && decide (lo ≤ u))).length)).sum

def Dev.quarCells (d : Dev) : Nat := d.quar d.cellNominal d.cellLim d.qm.cellUsed
def Dev.quarUnits (d : Dev) : Nat := d.quar d.unitNominal d.unitLim d.qm.unitUsed

/-- Lowest free index of a channel below `lim` (DESIGN CHOICE: which free unit is taken is not given). -/
def freeIdx (used : List Nat) (ch lim : Nat) : Option Nat :=
  ((List.range (used.length + 1)).map (fun i => 64 * i + ch)).find? (fun u => decide (u < lim) && !used.contains u)

/-- Take an index in rotation from channel `ptr` (R167); channels without a free unquarantined one are skipped. -/
def Dev.rotate (d : Dev) (used : List Nat) (ptr lim : Nat) (quarToo : Bool) : Option (Nat × Nat) :=
  (List.range 64).findSome? (fun i =>
    let ch := (ptr + i) % 64
    if d.retired ch || (d.chQuar ch && !quarToo) then none
    else (freeIdx used ch lim).map (fun u => (u, (ch + 1) % 64)))

/-- Take a descriptor unit; where no unquarantined one is free, a quarantined one (R179). -/
def Dev.takeUnit (d : Dev) : Option (Nat × Dev) :=
  let r := match d.rotate d.qm.unitUsed d.qm.ptrUnit d.unitLim false with
    | some x => some x
    | none => d.rotate d.qm.unitUsed d.qm.ptrUnit d.unitNominal true
  r.map (fun (u, p) => (u, d.modQm (fun q => { q with
    unitUsed := q.unitUsed ++ [u], ptrUnit := p, descFree := q.descFree - 4, descInuse := q.descInuse + 4 })))

/-- Free a descriptor unit. -/
def Dev.freeUnit (d : Dev) (u : Nat) : Dev :=
  d.modQm (fun q => { q with unitUsed := q.unitUsed.filter (· != u), descFree := q.descFree + 4, descInuse := q.descInuse - 4 })

/-- Free cells that were in flight (R179). -/
def Dev.freeCells (d : Dev) (cs : List Nat) : Dev :=
  d.modQm (fun q => { q with
    cellUsed := q.cellUsed.filter (fun c => !cs.contains c), cellFree := q.cellFree + cs.length, cellInfl := q.cellInfl - cs.length })

def Dev.modOpen (d : Dev) (id : Nat) (f : OpenEnq → OpenEnq) : Dev :=
  d.modQm (fun q => { q with opens := q.opens.map (fun o => if o.id = id then f o else o) })
def Dev.open? (d : Dev) (id : Nat) : Option OpenEnq := d.qm.opens.find? (fun o => o.id == id)

/-- Receive entries of a VC are freed as their flits are taken (R81, R84, R121). -/
def Dev.rxFree (d : Dev) (port vc n : Nat) : Dev :=
  d.modRx port vc (fun r =>
    let k := min n r.occ
    { r with occ := r.occ - k, freed := (r.freed + k) % 65536, unrep := r.unrep + k })

/-- The VC2 packet that arrives on a port. -/
def Dev.arr (d : Dev) (port : Nat) : Arriving := tabGet (fun _ => {}) d.qm.arriving port
def Dev.setArr (d : Dev) (port : Nat) (a : Arriving) : Dev :=
  d.modQm (fun q => { q with arriving := tabSet (fun _ => {}) q.arriving port (if a.left = 0 && a.wait.isEmpty then {} else a) })

/-- The flits that wait in their entries on a port are taken and discarded, with what is still to arrive of their packet. -/
def Dev.arrDiscard (d : Dev) (port : Nat) : Dev :=
  (d.rxFree port 2 (d.arr port).wait.length).setArr port { left := (d.arr port).left }

/-- Give up an admitted enqueue (R112, R130): its cells and units return, and what is still to arrive of it is taken and discarded. -/
def Dev.enqGiveUp (d : Dev) (o : OpenEnq) : Dev :=
  let d1 := d.modTxn (fun t => { t with acc := t.acc.filter (fun a => a.for_ != .enq o.id && a.for_ != .spill o.id) })
  let d2 := o.spill.foldl (fun (a : Dev) u => a.freeUnit u.1) (if (d1.arr o.port).enq = some o.id then d1.arrDiscard o.port else d1)
  (d2.modQm (fun m => { m with
    opens := m.opens.filter (fun x => x.id != o.id), cellUsed := m.cellUsed.filter (fun c => !o.cells.contains c)
    cellFree := m.cellFree + o.need, cellInfl := m.cellInfl - o.need })).modQueue o.q (fun y => { y with res := y.res - o.need })

/-- The request an enqueue's answer belongs to. -/
def OpenEnq.req (o : OpenEnq) : Req :=
  { id := o.id, ord := o.ord, opc := .enqueue, opcRaw := 0x40, ptn := o.ptn, port := o.port, vc := 2, gen := 3, stamp := o.stamp
    tc := o.tc, posted := o.posted, tag := o.tag, addr := o.q, len := o.len, dline := o.dline, depart := o.depart
    dropLate := o.dropLate, begun := o.begun }

/-- A queued cell, or a middle unit, must move: its channel is DEGRADED and has not failed (R439), or it lies above a
pending shrink. -/
def Dev.cellMoves (d : Dev) (c : Nat) : Bool := (d.chQuar (c % 64) && !(d.ch (c % 64)).failed) || decide (d.cellLim ≤ c)
def Dev.unitMoves (d : Dev) (u : Nat) : Bool := (d.chQuar (u % 64) && !(d.ch (u % 64)).failed) || decide (d.unitLim ≤ u)

/-- A channel that the moves of R185 have yet to empty of cells and units. -/
def Dev.chMoving (d : Dev) (c : Nat) : Bool := d.chQuar c && !(d.ch c).failed && !d.retired c && !(d.evacOf c).moveDone

/-- Moves of R185 are under way: for a pending shrink, or for a channel. -/
def Dev.movesPending (d : Dev) : Bool := d.qm.moving || (List.range 64).any d.chMoving

/-! ### Events and frozen queues -/

/-- Post a queue event to the queue's targets (R170); `mg` adds the management owner. -/
def Dev.qPost (d : Dev) (q type : Nat) (body : List Byte) (mg : Bool) : Dev :=
  let p := d.profileOf q
  let d1 : Dev := if p.ntV then
      (match d.partnerOf (imgNotify d.image p.nt) with
       | some k => d.post k type body
       | none => d.bump 0 bQm 0x338 1) else d
  if p.mgmt || mg then d1.post 64 type body else d1

/-- Remove a park entry (R182). -/
def Dev.unpark (d : Dev) (id : Nat) : Dev := d.modQm (fun q => { q with parks := q.parks.filter (fun p => p.id != id) })

/-- Answer a dequeue EMPTY. -/
def Dev.deqEmpty (d : Dev) (id : Nat) : Dev :=
  match d.req? id with
  | none => d.unpark id
  | some r => (d.unpark id).answer r .empty [] 0

/-- Freeze a queue (R187): store 0 middle unit, 1 head or tail, 2 state store. Its parked dequeues are answered EMPTY
(DEDUCED from R187: a frozen queue answers every dequeue under R182). -/
def Dev.freeze (d : Dev) (q store : Nat) : Dev :=
  if (d.queue q).frozen then d
  else
    let d1 := (d.modQueue q (fun x => { x with frozen := true })).orCsr 0 bQm 0x150 2
    let d2 := d1.qPost q 0x12 (leBytes 4 q ++ [byte store, 0, 0, 0]) true
    let d3 := d2.raise0 101 { kind := 8, inst := q, a := store }
    (d3.qm.parks.filter (fun p => p.q == q)).foldl (fun a p => a.deqEmpty p.id) d3

/-- Keys of stored SRAM errors: stack SRAM by its device address, internal SRAM and the queue manager's state store by
index above these bases (R253, SPACE 2 and 3). -/
def internalBase : Nat := 0x2000000000
def stateBase : Nat := 0x3000000000

/-- Read `n` bytes of an SRAM array for their errors alone (R245, R246): corrected bytes are rewritten, uncorrectable
ones are logged. Beyond two errors in a byte a free value decides whether they are detected. -/
def Dev.sramScan (d : Dev) (base n space src : Nat) : Dev × Bool :=
  (d.mem.sErr.filter (fun e => decide (base ≤ e.1 ∧ e.1 < base + n))).foldl
    (fun (acc : Dev × Bool) e =>
      let (a, bad) := acc
      let clean := fun (x : Dev) => x.modMem (fun m => { m with sErr := tabSet (fun _ => 0) m.sErr e.1 0 })
      let addr := if space = 1 then e.1 / 8 * 8 else (if space = 2 then e.1 - internalBase else e.1 - stateBase) / 8 * 8
      let log := fun (x : Dev) =>
        (x.elogWrite { addr := addr, space := space, kind := 1, source := src, sbyte := e.1 % 8 }).bump 0 bEcc 0x318 1
      match hamDecode e.2 with
      | some (.good, _) => (a, bad)
      | some (.corrected, _) => (((clean a).bump 0 bEcc 0x310 1).ceCount 64, bad)
      | some (.bad, _) => (log a, true)
      | none =>
        let (v, a1) := a.draw
        if v % 2 = 0 then (log a1, true) else (clean a1, bad)) (d, false)

/-- Read a queue's stores (R187): its state, then its head and tail entry. -/
def Dev.qCheckBy (d : Dev) (q src : Nat) : Dev :=
  if (d.queue q).frozen then d
  else
    let (d1, b1) := d.sramScan (stateBase + 32 * q) 32 3 src
    let (d2, b2) := d1.sramScan (0x1001000000 + 128 * q) 128 1 src
    if b1 then d2.freeze q 2 else if b2 then d2.freeze q 1 else d2

def Dev.qCheck (d : Dev) (q : Nat) : Dev := d.qCheckBy q 0

/-! ### Ends and stops (R292 to R294) -/

/-- The channel stops with a code: it enters DRAINING. For MODE and LEAVING it issues the rest of its descriptor, for STOPPED and RELEASED the
writes of the elements whose reads have been issued (R293). -/
def Dev.xStop (d : Dev) (x code : Nat) : Dev :=
  let c := d.xc x
  if c.st == .run || c.st == .chainWait then
    d.modXc x (fun c => { c with st := .draining, code := code, waitAt := none, ph := if c.ph == .moving && c.st == .run then .moving else .stop })
  else d

/-- A chain ends by an error: FS150 names the channel, the owner, the code and the descriptor (R297). In a channel that is
stopping already, the first happening has set the code and the error only ends the issue (R295). -/
def Dev.xFail (d : Dev) (x code : Nat) : Dev :=
  let c := d.xc x
  if c.st == .draining then d.modXc x (fun c => { c with ph := .stop })
  else
    let d1 := (d.modXc x (fun c => { c with st := .draining, code := code, ph := .stop, waitAt := none })).raise0
      150 { kind := 7, inst := x, wide := c.cur, a := c.owner.getD 0, b := code }
    d1.orCsr x bXfer 0x24 0x10

/-- Elements done: of a TRANSPOSE, the blocks whose units have all landed (R293). -/
def Xc.doneAt (c : Xc) (n : Nat) : Nat := if leAt c.desc 0 1 % 16 = 3 then (if c.wout = 0 then c.pos else c.done) else c.done + n

/-- An access of descriptor `seq` of channel `x` has returned or landed: a read fills the holding register, a write has its `n` elements done
(R284, R293). A write that cannot be made ends the chain with UNCORR. -/
def Dev.xReturn (d : Dev) (x seq n : Nat) (a : Access) (bs : List Byte) (bad : Bool) : Dev :=
  let d1 := d.modXc x (fun c =>
    if a.kind == .read then
      (if c.seq = seq then { c with pend := c.pend - 1, hold := c.hold ++ [(a.unit, if bad then none else some bs)] } else c)
    else if c.seq = seq then (let c1 := { c with wout := c.wout - 1 }; { c1 with done := if bad then c1.done else c1.doneAt n })
    else { c with finished := c.finished.map (fun f => if f.seq = seq then { f with out := f.out - 1 } else f) })
  if bad && a.kind != .read && (d1.xc x).st != .free then d1.xFail x 8 else d1

end Sys2Proof.Machine
end

