-- ==== Sys2Proof/Machine/Reg.lean ====
section
/-!
DEFINITION. The regulation unit (R258 to R276): capacity, budgets, rescaling, priority and the hand-over of accesses.
-/
namespace Sys2Proof.Machine

/-- Refresh fraction of a channel in units of 10^-5 (R228): its band's, doubled in a catch-up. -/
def Chan.refFraction (c : Chan) : Nat :=
  (if c.band = 0 then 2048 else if c.band = 1 then 4096 else 8192) * (if c.catchup.isSome then 2 else 1)

/-- Admitted fraction of a channel (R399): of its DRAM layer. -/
def Dev.admitOf (d : Dev) (c : Nat) : Nat × Nat := tabGet (fun _ => (1, 1)) d.reg.admitted (c / 4)

/-- TRR_TRIG of a channel. -/
def Dev.trrTrig (d : Dev) (c : Nat) : Nat := d.cfgFld c bDram 0x3C 0 9

/-- G(ch) of R263, with `share` in 0.1 %. -/
def Dev.capG (d : Dev) (share c : Nat) : Nat :=
  let f := (d.ch c).refFraction
  let t := d.trrTrig c
  let (n, dn) := d.admitOf c
  let x := (4000 - share * t) * 100
  let num1 := 100000 * t - f * t - x
  524288 * (num1 * n - 100 * share * t * dn) / (1000000 * t * dn)

/-- Channels counted in N (R262). -/
def Dev.countedChans (d : Dev) : List Nat := (List.range 64).filter d.serving

/-- Gmin, BIND and N under a share (R263). -/
def Dev.capacity (d : Dev) (share : Nat) : Nat × Nat × Nat :=
  let gs := d.countedChans.map (fun c => (c, d.capG share c))
  match gs with
  | [] => (0, 0, 0)
  | x :: t =>
    let best := t.foldl (fun (a : Nat × Nat) y => if y.2 < a.2 then y else a) x
    (best.2, best.1, gs.length)

/-- CAP_STATUS bits [27:24] (R275): refresh, throttle, retired, targeted-refresh excess. -/
def Dev.capCauses (d : Dev) (share : Nat) : Nat :=
  let cs := d.countedChans
  b2n (cs.any (fun c => (d.ch c).band != 0 || (d.ch c).catchup.isSome)) +
  2 * b2n (cs.any (fun c => decide ((d.admitOf c).1 < (d.admitOf c).2))) +
  4 * b2n (decide (cs.length < 64)) +
  8 * b2n (cs.any (fun c => decide (share * d.trrTrig c < 4000)))

/-- Valid reservation entries of an image, in the order of the record, with b_e for `n` channels. -/
def imgRsvs (img : List Byte) (n : Nat) : List RsvNow :=
  (List.range 256).filterMap (fun i =>
    let r := imgRsv img i
    if r.valid then some { idx := i, chipid := r.chipid, tc := r.tc, rate := r.rate, b := r.rate / n, bNow := r.rate / n } else none)

/-- The scaling of R272: for each class, S, the cut and the deficit left. -/
def scaleClasses (es : List RsvNow) : Nat → Nat → Nat → List (Nat × Nat × Nat)
  | 0, _, _ => []
  | fuel + 1, c, x =>
    let s := ((es.filter (fun e => e.tc == c)).map (·.b)).sum
    let cut := min x s
    (c, s, cut) :: scaleClasses es fuel (c + 1) (x - cut)

/-- Budgets in force under Gmin (R272). -/
def scaleAll (es : List RsvNow) (gmin : Nat) : List RsvNow :=
  let x := (es.map (·.b)).sum - gmin
  let ks := scaleClasses es 8 0 x
  es.map (fun e => match ks.find? (fun k => k.1 == e.tc) with
    | some (_, s, cut) => if s = 0 then e else { e with bNow := e.b * (s - cut) / s }
    | none => e)

/-- K(c) in 1/65,536, rounded down. -/
def kOf (es : List RsvNow) (gmin c : Nat) : Nat :=
  match (scaleClasses es 8 0 ((es.map (·.b)).sum - gmin)).find? (fun k => k.1 == c) with
  | some (_, s, cut) => if s = 0 then 65536 else (s - cut) * 65536 / s
  | none => 65536

/-- Body of the RESCALE event for one CHIPID (R312). -/
def Dev.rescaleBody (d : Dev) (chipid : Nat) : List Byte :=
  let es := (d.reg.rsv.filter (fun e => e.chipid == chipid)).take 8
  leBytes 2 d.reg.gmin ++ [byte d.reg.n, byte d.reg.bind, byte d.reg.causes, 0, byte es.length, 0] ++ leBytes 8 chipid ++
    (es.map (fun e => leBytes 4 (e.rate + e.tc * 2 ^ 24) ++ leBytes 4 (e.bNow * d.reg.n % 2 ^ 22))).flatten

/-- Post RESCALE events of some CHIPIDs to one owner, or hold them back within its gap (R273). -/
def Dev.rescalePost (d : Dev) (o : Nat) (ids : List Nat) : Dev :=
  let ids := ids.filter (fun c => d.reg.rsv.any (fun e => e.chipid == c))
  if ids.isEmpty then d
  else if d.dt < tabGet (fun _ => 0) d.reg.gapEnd o then
    d.modReg (fun r => { r with heldChg := tabMod (fun _ => []) r.heldChg o (fun l => (l ++ ids).eraseDups) })
  else
    let d1 := d.modReg (fun r => { r with gapEnd := tabSet (fun _ => 0) r.gapEnd o (d.dt + 1000 * d.cfgFld 0 bReg 0x14 16 16) })
    ids.foldl (fun a c => a.post o 0x30 (a.rescaleBody c)) d1

/-- Report changes of the budgets of some CHIPIDs: each to its attached partner and all to the management owner. -/
def Dev.rescaleReport (d : Dev) (ids : List Nat) : Dev :=
  let d1 := ids.foldl (fun a c => match a.partnerOf c with
    | some k => a.rescalePost k [c]
    | none => a) d
  d1.rescalePost 64 ids

/-- One CAP record (R485). -/
def Dev.capRecord (d : Dev) : Dev :=
  let r := d.reg
  d.tele 4 (leBytes 2 r.gmin ++ [byte r.n, byte r.bind, byte r.causes] ++ List.replicate 3 0 ++
    leBytes 4 ((r.rsv.map (·.b)).sum) ++ leBytes 2 ((r.rsv.map (·.bNow)).sum) ++ [0, 0])

/-- Charges belong to the epoch of the DT at which they are made (R261). -/
def Dev.epochSync (d : Dev) : Dev :=
  if d.dt / 1024 = d.reg.chargeEpoch then d
  else
    let d1 := d.modReg (fun r => { r with chargeEpoch := d.dt / 1024, charge := [] })
    (List.range 64).foldl (fun a c => a.modCh c (fun x => { x with fgSlots := 0 })) d1

/-- The computation of an epoch start (R263, R271 to R273). -/
def Dev.epochCompute (d0 : Dev) : Dev :=
  let d := d0.epochSync
  let share := imgShare d.image
  let (gmin, bind, n) := d.capacity share
  let es := scaleAll (imgRsvs d.image n) gmin
  let old := d.reg.rsv
  let oldOf := fun (e : RsvNow) => old.find? (fun o => o.chipid == e.chipid && o.tc == e.tc)
  let changed := es.filter (fun e => match oldOf e with | some o => o.bNow != e.bNow | none => false)
  let fell := es.any (fun e => match oldOf e with | some o => decide (e.bNow < o.bNow) | none => false)
  let scaled := es.any (fun e => decide (e.bNow < e.b))
  let causes := d.capCauses share
  let hadExcess := d.reg.causes ≥ 8
  let moved := gmin != d.reg.gmin || n != d.reg.n || !changed.isEmpty
  let was := d.reg.scaled
  let full := imgRsvs d.image n
  let d1 := d.modReg (fun r => { r with
    epoch := d.dt / 1024, rsv := es
    kScale := (List.range 8).foldl (fun t c => tabSet (fun _ => 65536) t c (kOf full gmin c)) []
    g := (List.range 64).foldl (fun t c => tabSet (fun _ => 49782) t c (if d.serving c then d.capG share c else 0)) []
    gmin := gmin, n := n, bind := bind, scaled := scaled, causes := causes, share := share
    cfg := (d.csrAt 0 bReg 0x10).toNat, urgent := d.cfgFld 0 bReg 0x14 0 16 })
  let d3 := if fell then d1.orCsr 0 bReg 0x50 1 else d1
  let d4 := if was && !scaled then d3.orCsr 0 bReg 0x50 2 else d3
  let d5 := if changed.isEmpty then d4 else d4.bump 0 bReg 0x300 1
  let d6 := if moved then d5.capRecord else d5
  let d7 := if scaled && !was then d6.raise0 140 { kind := 5, inst := bind, a := causes } else d6
  let d8 := if causes ≥ 8 && !hadExcess then
      (match d7.countedChans.find? (fun c => decide (share * d7.trrTrig c < 4000)) with
       | some c => d7.raise0 122 { kind := 5, inst := c }
       | none => d7) else d7
  d8.rescaleReport ((changed.map (·.chipid)).eraseDups)

/-- CHIPID of accesses that are background work: charged to no entry and counted in no class (R261). -/
def bgChip : Nat := 2 ^ 64

/-- The entry of a CHIPID and class; it is held back while no partner with the CHIPID is attached (R109, R260). -/
def Dev.rsvOf (d : Dev) (chipid tc : Nat) : Option RsvNow :=
  match d.reg.rsv.find? (fun e => e.chipid == chipid && e.tc == tc) with
  | some e => if (d.partnerOf chipid).isSome then some e else none
  | none => none

/-- An access of `cost` bytes is in budget (R262). -/
def Dev.inBudget (d : Dev) (chipid tc c cost : Nat) : Bool :=
  match d.rsvOf chipid tc with
  | some e => decide (tabGet (fun _ => 0) d.reg.charge (64 * e.idx + c) + cost ≤ e.bNow)
  | none => false

/-- Charge an access (R261, R269). -/
def Dev.chargeAcc (d : Dev) (chipid tc c cost : Nat) : Dev :=
  if chipid = bgChip then d
  else match d.rsvOf chipid tc, d.inBudget chipid tc c cost with
  | some e, true =>
    (d.modReg (fun r => { r with charge := tabMod (fun _ => 0) r.charge (64 * e.idx + c) (· + cost) })).bump 0 bReg (0x200 + 32 * tc) cost
  | _, _ => d.bump 0 bReg (0x208 + 32 * tc) cost

/-- PRI of an access (R264). -/
def Dev.priOf (d : Dev) (chipid tc c cost : Nat) (deadline : Option Nat) : Nat :=
  if d.inBudget chipid tc c cost then
    (match deadline with
     | some e => if e ≤ d.dt + d.reg.urgent then 3 else 2
     | none => 2)
  else if bits d.reg.cfg 8 3 ≤ tc then 1 else 0

/-- Cost of an access in bytes (R261). -/
def AccKind.cost : AccKind → Nat
  | .rmw => 128
  | _ => 64

/-- FILL of a channel (R227). -/
def Chan.fill (c : Chan) : Nat := min 7 (8 * (c.rdq.length + c.wrq.length) / 96)

/-- Background work is pending on a channel, a due targeted refresh left out (R267): a forced gap or training, an
evacuation, moves, firmware's own accesses, grooming. -/
def Dev.bgPending (d : Dev) (c : Nat) : Bool :=
  (d.dom (162 + c)).pending || d.txn.acc.any (fun a => a.chipid == bgChip && placeCh (d.phys (64 * a.unit)) == c) || (d.evacOf c).want || d.movesPending ||
    decide ((d.ch c).groomOff < 2 ^ 30) && d.mem.blkValid.any (fun b => b.1 / 262144 == c)

/-- The hold-backs of R266, and for foreground accesses those of R267 and R400, let an access of a PRI and cost go to channel `c`. -/
def Dev.mayHand (d : Dev) (c pri cost : Nat) (bg : Bool) : Bool :=
  let x := d.ch c
  let f := x.fill
  let cap := tabGet (fun _ => 49782) d.reg.g c / 64
  let ovr := decide (cap < x.fgSlots + cost / 64)
  let (n, dn) := d.admitOf c
  let m := d.clk.mode
  (pri == 3 || (decide (f < 7) && (decide (2 ≤ pri) || (if pri = 1 then decide (f < bits d.reg.cfg 16 3) else decide (f < bits d.reg.cfg 12 3))))) &&
  (bg || (!(decide (pri < 2) && decide (cap ≤ x.fgSlots) && d.bgPending c) && !(decide (n < dn) && ovr && (m == .service || m == .drain))))

/-- Order of R265: higher PRI, earlier deadline (none last), earlier stamp, recorded order. -/
def before (p1 : Nat) (d1 : Option Nat) (o1 : Nat) (p2 : Nat) (d2 : Option Nat) (o2 : Nat) : Bool :=
  if p1 != p2 then decide (p2 < p1)
  else
    let k := fun (x : Option Nat) => match x with | some e => e | none => 2 ^ 70
    if k d1 != k d2 then decide (k d1 < k d2) else decide (o1 < o2)

end Sys2Proof.Machine
end

