-- ==== Sys2Proof/Machine/Dram.lean ====
section
/-!
DEFINITION. The DRAM channels (R220 to R240) with grooming (R248 to R250): hand-over of accesses, the command slot,
refresh, self-refresh, gaps and link training.
-/
namespace Sys2Proof.Machine

/-- Place of an access. -/
def Access.place (a : Access) : Nat := 64 * a.unit

/-- One zero-fill unit (R155). -/
def Access.isFill (a : Access) : Bool := match a.for_ with | .fill _ => true | _ => false

/-- The partner a request belongs to. -/
def Dev.accPtn (d : Dev) (a : Access) : Option Nat :=
  match a.for_ with
  | .req id _ | .step id | .refill id _ => ((d.req? id).map (·.ptn)).filter (fun k => decide (k < 64))
  | .xfer x _ _ => (d.xc x).owner
  | _ => none

/-- SOURCE of R253 for a read of an access. -/
def Access.src (a : Access) : Nat :=
  match a.for_ with
  | .step _ => 4
  | .xfer _ _ _ => 5
  | _ => if a.kind == .read then 0 else 1

/-- An access is done with these bytes (R139, R215): a read returns its unit, a write lands. -/
def Dev.accDone (d : Dev) (c : Nat) (a : Access) (bs : List Byte) (bad : Bool) : Dev :=
  match a.for_ with
  | .enq id => d.modQm (fun q => { q with opens := q.opens.map (fun o => if o.id = id then { o with out := o.out - 1 } else o) })
  | .spill id => d.modQm (fun q => { q with opens := q.opens.map (fun o => if o.id = id then { o with spillOut := o.spillOut - 1 } else o) })
  | .refill id u => (d.freeUnit u).modReq id (fun r => { r with dpend := r.dpend - 1 })
  | .undo | .fill _ => d
  | .step id => d.modReq id (fun r => { r with spend := r.spend - 1, sdata := r.sdata ++ [(a.unit, bs, bad)] })
  | .xfer x seq n => d.xReturn x seq n a bs bad
  | .req id f =>
    let d1 : Dev := match d.req? id with
      | some r =>
        if r.opc.writes then d.landed id (if bad then .uncorr else .ok)
        else if (r.opc == .read || r.opc == .readLong) && decide (r.nextFrag = r.frags.length) &&
            r.frags.all (fun g => g.doneDt.isSome || (g.idx == f && decide (g.pend ≤ 1))) then
          d.modReq id (fun r => { r with st := .done })
        else d
      | none => d
    d1.accReturn id f c { idx := a.idx, bytes := bs, bad := bad }

/-- New bytes of a read-merge-write of an access, and the old value an atomic returns. -/
def Dev.rmwBytes (d : Dev) (a : Access) (old : List Byte) : List Byte × Option Nat :=
  let merged := mergeBytes old a.bytes a.mask
  match a.for_ with
  | .req id _ =>
    (match d.req? id with
     | some r => if r.opc.isAtom then (let (b, v) := r.atomApply old (r.addr % 64); (b, some v)) else (merged, none)
     | none => (merged, none))
  | _ => (merged, none)

/-- Note an access served by the DRAM for the wear accounts (R446). -/
def Dev.burst (d : Dev) (c n : Nat) : Dev := d.modGraft (fun g => { g with bursts := tabMod (fun _ => 0) g.bursts c (· + n) })

/-- Count an activation of a row in the tracker; a count that reaches TRR_TRIG makes neighbour refreshes due (R230). -/
def Dev.trackRow (d : Dev) (c b r : Nat) : Dev :=
  let k := 64 * c + b
  let l := tabGet (fun _ => ([] : List (Nat × Nat))) d.dram.track k
  let set := fun (d : Dev) l => { d with dram := { d.dram with track := tabSet (fun _ => []) d.dram.track k l } }
  match l.find? (fun e => e.1 == r) with
  | some e =>
    if e.2 + 1 ≥ d.trrTrig c then
      let ns := ([r - 2, r - 1, r + 1, r + 2]).filter (fun x => x / 8192 == r / 8192 && x != r && decide (x < 32768))
      let ns := if r = 0 then ns.filter (· != 0) else if r = 1 then [0] ++ ns.filter (fun x => x != 0) else ns
      (set d (l.filter (fun x => x.1 != r))).modCh c (fun x => { x with trr := x.trr ++ ns.map (fun n => { bank := b, row := n, by_ := d.dt + 1000 }) })
    else set d (l.map (fun x => if x.1 = r then (r, e.2 + 1) else x))
  | none =>
    if l.length < 256 then set d (l ++ [(r, 1)])
    else set d ((l.map (fun x => (x.1, x.2 - 1))).filter (fun x => x.2 != 0))


/-! ### Timings (R221 to R223), in units of 0.25 ns

DT counts whole nanoseconds. A command issued in a slot at DT t takes the earliest time in [t, t + 1) that the timings allow (DESIGN CHOICE,
log 122). -/

/-- A command that may come at `lower` at the earliest may be issued at this DT; and its time. -/
def Dev.mayAt (d : Dev) (lower : Nat) : Bool := decide (lower < 4 * d.dt + 4)
def Dev.cmdTime (d : Dev) (lower : Nat) : Nat := max (4 * d.dt) lower

/-- The earliest activation of bank `b`, for a request that arrived at DT `arrive`: tRC or tRFCpb, tRAS, tWR and tRP of an open row, which
is closed by the end of its window or by the request; tRRD, tAAW and tXS of the channel (R221 to R223). -/
def Dev.actLower (d : Dev) (c b arrive : Nat) : Nat :=
  let x := d.ch c
  let k := d.bank c b
  let pre := match k.row with | some _ => max k.pre (min k.close (4 * arrive)) + 44 | none => 0
  let rrd := match x.acts.getLast? with | some t => t + (if x.actBg = b / 4 then 10 else 5) | none => 0
  let aaw := if 16 ≤ x.acts.length then x.acts.head?.getD 0 + 80 else 0
  max (max k.ready pre) (max (max rrd aaw) x.notBefore)

/-- The earliest column command in bank group `bg`: tCCD, tWTR (after a write's data, tWL and one burst) and tRTW (R221). -/
def Dev.colLower (d : Dev) (c bg : Nat) (wr : Bool) : Nat :=
  (d.ch c).cols.foldl (fun m y =>
    let same := y.bg == bg
    let gap := if y.wr && !wr then 45 + (if same then 20 else 10) else if !y.wr && wr then 15 else if same then 10 else 5
    max m (y.at_ + gap)) (d.ch c).notBefore

/-- The bank timings and R222 allow an activation of bank `b` now. -/
def Dev.actReady (d : Dev) (c b : Nat) : Bool := d.mayAt (d.actLower c b d.dt)

/-- Issue one activation of bank `b`, row `r` (R222, R223, R230), for a request that arrived at `arrive`. The row stays open where a column
command follows. -/
def Dev.activate (d : Dev) (c b r arrive : Nat) (openRow : Bool) : Dev :=
  let t := d.cmdTime (d.actLower c b arrive)
  let d1 := d.modCh c (fun x => { x with acts := (x.acts ++ [t]).drop (x.acts.length - 15), actBg := b / 4 })
  let d2 := d1.modBank c b (fun _ => { row := if openRow then some r else none, colAt := t + 44, close := t + 44, pre := t + 88, ready := t + 132 })
  let d3 := d2.modGraft (fun g => { g with acts := tabMod (fun _ => 0) g.acts (256 * c + 4 * b + r / 8192) (· + 1) })
  (d3.bump c bDram 0x200 1).trackRow c b r

/-- Issue one column command to the open row of bank `b`: the coalescing window starts again (R223). -/
def Dev.column (d : Dev) (c b : Nat) (wr : Bool) : Dev :=
  let t := d.cmdTime (max (d.bank c b).colAt (d.colLower c (b / 4) wr))
  let d1 := d.modCh c (fun x => { x with
    cols := (x.cols.filter (fun y => decide (t < y.at_ + 65))) ++ [{ at_ := t, bg := b / 4, wr := wr }] })
  (d1.modBank c b (fun k => { k with
    colAt := t, close := t + d.cfgFld c bDram 0x30 0 8, pre := max k.pre (if wr then t + 93 else t) })).bump c bDram (if wr then 0x210 else 0x208) 1

/-- The access is a row hit: it became eligible while its row was open within the coalescing window (R223). -/
def Dev.rowHit (d : Dev) (c : Nat) (a : Access) : Bool :=
  let off := (d.phys a.place) % 2 ^ 30
  let k := d.bank c (bankOf off)
  k.row == some (rowOf off) && decide (max (4 * a.arrive) k.colAt < k.close)

/-- An entry of the write queue stands before another of the same unit: demand writes in stamp order, zero-fill apart (R155, R225). -/
def Access.ahead (x a : Access) : Bool := x.unit == a.unit && decide (x.ord < a.ord) && !x.isFill && !a.isFill

/-- Bank timings and R222 allow the entry, and R225 does not hold it; `inW` for an entry of the write queue. -/
def Dev.eligible (d : Dev) (c : Nat) (a : Access) (inW : Bool) : Bool :=
  let x := d.ch c
  let q := d.phys a.place
  let b := bankOf (q % 2 ^ 30)
  (if d.rowHit c a then d.mayAt (d.colLower c (b / 4) inW) else d.mayAt (d.actLower c b a.arrive)) &&
  (if inW then !(x.rdq ++ x.wrq).any (fun y => y.ahead a)
   else if a.kind == .rmw then !(x.rdq ++ x.wrq).any (fun y => y.ahead a) && decide (x.wrq.length < 32)
   else (d.fillOf (placeBlk q)).isNone || d.filled q)

/-- Pins that an upset has inverted in a stored unit of a valid block. -/
def Dev.upsetAt (d : Dev) (q upset : Nat) : Dev :=
  if upset % 2 ^ 36 = 0 || !d.blkValid (placeBlk q) then d
  else d.modMem (fun m => { m with dErr := tabMod (fun _ => 0) m.dErr (placeUnit q) (fun e => e ^^^ (upset % 2 ^ 36)) })

/-- The read half of a read-merge-write has returned: its write enters the write queue, where it lands (R225, R247); an update step gets its
data and holds the unit (R195). An uncorrectable unit is not written. -/
def Dev.rmwRead (d : Dev) (c : Nat) (a : Access) (old : List Byte) (bad : Bool) : Dev :=
  match a.for_ with
  | .step _ => d.accDone c a old bad
  | _ =>
    if bad then d.accDone c a [] true
    else
      let (new, v) := d.rmwBytes a old
      let d1 := d.modCh c (fun x => { x with wrq := x.wrq ++ [{ a with bytes := new, mask := 2 ^ 64 - 1, arrive := d.dt, passes := 0 }] })
      let d2 := match a.for_, v with
        | .req id _, some v => d1.modReq id (fun r => { r with resp := leBytes 8 v })
        | _, _ => d1
      d2.accDone c a [] false

/-- Serve an entry: its burst reads or writes the unit. `upset`: pins that an upset has inverted in the stored unit. A zero-fill unit written
meanwhile, and the read of a unit that has never been written, need no burst (R154, R155). -/
def Dev.serve (d : Dev) (c : Nat) (a : Access) (upset : Nat) : Dev :=
  let q := d.phys a.place
  let off := q % 2 ^ 30
  let inW := (d.ch c).wrq.contains a
  let d0 := d.modCh c (fun x => { x with rdq := x.rdq.erase a, wrq := x.wrq.erase a })
  if a.isFill && (d.filled q || (d.fillOf (placeBlk q)).isNone) then d0
  else if !inW && !d.filled q then
    (if a.kind == .rmw then d0.rmwRead c a (List.replicate 64 0) false else d0.accDone c a (List.replicate 64 0) false)
  else
    let d1 := if d.rowHit c a then d0.bump c bDram 0x218 1 else d0.activate c (bankOf off) (rowOf off) a.arrive true
    let d2 := ((d1.column c (bankOf off) inW).burst c 1).upsetAt q (if inW then 0 else upset)
    if inW then
      (let d3 := (d2.writeUnit a.place a.bytes a.tc a.chipid).1
       if a.kind == .rmw then d3.bump 0 bEcc 0x328 1 else d3)
    else match a.for_ with
      -- the unit was decoded when the queue manager took it
      | .refill _ _ => d2.accDone c a [] false
      | _ =>
        let (bs, bad, d3) := d2.readUnitWb a.place a.src (d.accPtn a) (a.kind == .read)
        if a.kind == .rmw then d3.rmwRead c a bs bad else d3.accDone c a bs bad

/-! ### Hand-over (R264 to R267) -/

/-- The write in the queue from which a read is forwarded: the youngest whole-unit write of earlier stamp (R225). -/
def Dev.forward (d : Dev) (c : Nat) (a : Access) : Option Access :=
  if a.kind == .read then
    ((d.ch c).wrq.filter (fun w => w.kind == .write && w.ahead a)).foldl
      (fun (b : Option Access) w => match b with
        | some x => if x.ord < w.ord then some w else b
        | none => some w) none
  else none

/-- The write a request's stream holds back (R136). -/
def Dev.streamHolds (d : Dev) (a : Access) : Bool :=
  match a.for_ with
  | .req id _ | .step id => (d.req? id).any d.streamBlocked
  | _ => false

/-- Nothing holds the access back but the hold-backs of R266: the orders of R135 and R136, a fill's place, a free entry. -/
def Dev.handable (d : Dev) (c : Nat) (a : Access) : Bool :=
  let x := d.ch c
  (a.isFill || !d.earlier a.ord a.unit) && !d.streamHolds a &&
  (a.kind == .read || d.fillRoom (d.phys a.place)) &&
  (if a.kind == .write then decide (x.wrq.length < 32) else decide (x.rdq.length < 64))

/-- Cost of a waiting access (R261). -/
def Dev.accCost (d : Dev) (c : Nat) (a : Access) : Nat := if (d.forward c a).isSome then 0 else a.kind.cost

/-- Priority of a waiting access, now (R264). -/
def Dev.accPri (d : Dev) (c : Nat) (a : Access) : Nat := d.priOf a.chipid a.tc c (d.accCost c a) a.deadline

/-- The next zero-fill unit of each fill of a channel (R155): one that a read waits for, else the first. Its access is the youngest of all
(DESIGN CHOICE, log 123: the manual gives it no stamp). -/
def Dev.fillNext (d : Dev) (c : Nat) : List Access :=
  if !d.serving c then [] else
  (d.mem.fills.filter (fun f => f.blk / 262144 == c)).filterMap (fun f =>
    let lu := fun i => placeUnit (d.logicalOf (f.blk * 4096 + 64 * i))
    let todo := (List.range 64).filter (fun i => !bit f.mask i && !(d.ch c).wrq.any (fun w => w.for_ == .fill f.blk && w.unit == lu i))
    let waited := fun i => ((d.ch c).rdq ++ d.txn.acc).any (fun a => a.kind == .read && a.unit == lu i)
    match (match todo.find? waited with | some i => some i | none => todo.head?) with
    | some i => some { for_ := .fill f.blk, unit := lu i, kind := .write, bytes := List.replicate 64 0, mask := 2 ^ 64 - 1
                       ord := d.txn.nextOrd, stamp := d.dt, tc := f.tc, chipid := f.chipid, arrive := d.dt }
    | none => none)

/-- The waiting access that goes first to channel `c` (R265), among those that may go. -/
def Dev.pickHand (d : Dev) (c : Nat) : Option Access :=
  let as := (d.txn.acc.filter (fun a => placeCh (d.phys a.place) == c) ++ d.fillNext c).filter (fun a => d.handable c a &&
    d.mayHand c (d.accPri c a) (d.accCost c a) (a.chipid == bgChip))
  as.foldl (fun (b : Option Access) a => match b with
    | none => some a
    | some x => if before (d.accPri c a) a.deadline a.ord (d.accPri c x) x.deadline x.ord then some a else b) none

/-- Both queues of a channel are empty from now on (R235). -/
def Dev.queueIdle (d : Dev) (c : Nat) : Dev :=
  d.modCh c (fun y => if y.rdq.isEmpty && y.wrq.isEmpty then { y with idleAt := some (y.idleAt.getD d.dt) } else { y with idleAt := none })

/-- The oldest queued write has waited WR_AGE_NS. -/
def Dev.writeAged (d : Dev) (c : Nat) : Bool :=
  (d.ch c).wrq.any (fun a => decide (a.arrive + d.cfgFld c bDram 0x34 0 16 ≤ d.dt))


/-- Write drain in progress, by R226: WQ_HI entries, an aged write, a read-merge-write whose write is queued, or self-refresh to be entered. -/
def Dev.drainNow (d : Dev) (c : Nat) : Bool :=
  let x := d.ch c
  decide (d.cfgFld c bDram 0x30 16 6 ≤ x.wrq.length) || d.writeAged c || x.wrq.any (fun a => a.kind == .rmw) || (x.srWait && !x.wrq.isEmpty) ||
    (x.wdrain && decide (d.cfgFld c bDram 0x30 24 6 < x.wrq.length))

/-- Begin or end a drain as the queues stand. -/
def Dev.drainSync (d : Dev) (c : Nat) : Dev := d.modCh c (fun x => { x with wdrain := d.drainNow c })

/-- A calibration phase that began in an idle gap runs to its end, at most LEN_NS; an access that arrives meanwhile waits (R235). -/
def Dev.phaseRuns (d : Dev) (c : Nat) : Bool :=
  (d.ch c).gap == some .idle && (match (d.dom (162 + c)).step with
    | some t => decide (d.dt < t + d.cfgFld c bDram 0x40 16 10)
    | none => false)

/-- An access has arrived: an idle gap ends, once no calibration phase runs in it (R235). -/
def Dev.gapArrive (d : Dev) (c : Nat) : Dev :=
  if (d.ch c).gap == some .idle && !d.phaseRuns c then d.modCh c (fun x => { x with gap := none }) else d

/-- ACCESS_HANDOVER (R266). A whole-unit write lands as it enters the write queue (R225). -/
def Dev.handover (d00 : Dev) (c : Nat) : Dev :=
  let d0 := d00.epochSync
  match d0.pickHand c with
  | none => d0
  | some a =>
    let ab : Option Req := match a.for_ with
      | .req id _ => (d0.req? id).filter (fun r => r.abandons d0.dt)
      | _ => none
    let late : Option OpenEnq := match a.for_ with
      | .enq id => (d0.open? id).filter (fun o => o.req.abandons d0.dt)
      | _ => none
    match ab, late with
    | some r, _ => d0.abandon r
    | _, some o => ((d0.enqGiveUp o).bump 0 bReg (0x200 + 32 * o.tc + 0x18) 1).answer o.req .late [] (d0.queue o.q).occ
    | _, _ =>
      let fw := d0.forward c a
      let cost := d0.accCost c a
      let pri := d0.accPri c a
      let d1 := (d0.chargeAcc a.chipid a.tc c cost).modTxn (fun t => { t with acc := t.acc.erase a })
      let d2 : Dev := match a.for_ with
        | .req id _ => d1.modReq id (fun r => { r with begun := true })
        | .enq id => d1.modOpen id (fun o => { o with begun := true })
        | _ => d1
      let d3 := (if a.chipid = bgChip then d2 else d2.modCh c (fun x => { x with fgSlots := x.fgSlots + cost / 64 })).gapArrive c
      if d3.mem.lost.contains (placeBlk a.place) || !d3.serving c then
        (if a.kind == AccKind.write then d3 else d3.dramBad a.place a.src 1 0 (d3.accPtn a)).accDone c a (List.replicate 64 0) true
      else match fw with
        | some w => (d3.bump c bDram 0x220 1).accDone c a w.bytes false
        | none =>
          let e := { a with pri := pri, arrive := d3.dt }
          if a.kind == .write then
            (((d3.modCh c (fun x => { x with wrq := x.wrq ++ [e] })).accDone c a [] false).drainSync c).queueIdle c
          else (d3.modCh c (fun x => { x with rdq := x.rdq ++ [e] })).queueIdle c

/-! ### Refresh (R228 to R231) -/

/-- Refresh window of a band in ns, halved in a catch-up: also the interval in units of 1/524,288 ns (R228). -/
def Chan.interval (c : Chan) : Nat :=
  (if c.band = 0 then 32000000 else if c.band = 1 then 16000000 else 8000000) / (if c.catchup.isSome then 2 else 1)

/-- Advance the pointer to the next refresh group; the tracker of a bank clears as its pointer wraps (R228, R230). -/
def Dev.advanceRef (d : Dev) (c : Nat) : Dev :=
  let g := (d.ch c).ptr
  let d1 := d.modCh c (fun x => { x with ptr := (g + 1) % 524288 })
  if g / 64 = 8191 then
    { d1 with dram := { d1.dram with track := tabSet (fun _ => []) d1.dram.track (64 * c + g % 64) [] } }
  else d1

/-- Issue one regular refresh. -/
def Dev.refresh (d : Dev) (c : Nat) : Dev :=
  let b := (d.ch c).ptr % 64
  if d.actReady c b then
    let t := d.cmdTime (d.actLower c b d.dt)
    let d1 := d.modCh c (fun x => { x with debt := x.debt - 1, acts := (x.acts ++ [t]).drop (x.acts.length - 15), actBg := b / 4 })
    let d2 := d1.modBank c b (fun _ => { ready := t + 176 })
    ((d2.bump c bDram 0x200 1).bump c bDram 0x228 1).advanceRef c
  else d

/-- The targeted refresh to be issued now: the one due first among those whose bank is ready (R224, R230). -/
def Dev.trrNow (d : Dev) (c : Nat) : Option Trr :=
  ((d.ch c).trr.filter (fun y => d.actReady c y.bank)).foldl (fun (b : Option Trr) y => match b with
    | none => some y
    | some x => if y.by_ < x.by_ then some y else b) none

/-- Issue a targeted refresh: one activation of its row, which the tracker counts as any other (R230). -/
def Dev.targeted (d : Dev) (c : Nat) (x : Trr) : Dev :=
  (((d.modCh c (fun y => { y with trr := y.trr.erase x })).activate c x.bank x.row d.dt false).bump c bDram 0x230 1).orCsr c bDram 0x14 0x10

/-! ### Grooming (R248 to R250) -/

/-- The next row of a valid block at or after the pointer: its offset. -/
def Dev.groomNext (d : Dev) (c : Nat) : Option Nat :=
  let p := (d.ch c).groomOff
  let bs := d.mem.blkValid.filterMap (fun b => if b.1 / 262144 = c then some (b.1 % 262144 * 4096) else none)
  match bs.find? (fun o => decide (p < o + 4096)) with
  | some o => some (max o p)
  | none => none

/-- One grooming read: a row of 8 units, decoded as demand reads; the pass ends after the last valid block. -/
def Dev.groomRow (d : Dev) (c upset : Nat) : Dev :=
  match d.groomNext c with
  | none => d.modCh c (fun x => { x with groomOff := 2 ^ 30 })
  | some o =>
    let o := o / 512 * 512
    if !d.actReady c (bankOf o) then d
    else
      let d1 := (d.activate c (bankOf o) (rowOf o) d.dt false).upsetAt (placeOf c o) upset
      let d2 := (List.range 8).foldl (fun (a : Dev) i =>
        (a.readUnit (a.logicalOf (placeOf c (o + 64 * i))) 2 none).2.2.bump c bDram 0x208 1) d1
      let d3 := d2.modCh c (fun x => { x with groomOff := o + 512 })
      let d4 := d3.burst c 8
      match d4.groomNext c with
      | some _ => d4
      | none =>
        let mins := (d.dt - (d.ch c).groomStart) / 60000000000
        (d4.modCh c (fun x => { x with groomOff := 2 ^ 30 })).modEcc (fun e => { e with
          dramLast := tabSet (fun _ => 0) e.dramLast c (min mins 65535), dramBehind := e.dramBehind.filter (· != c) })

/-! ### The command slot (R224) -/

/-- The entry served by rules 2 to 5 of R224. -/
def Dev.pickServe (d : Dev) (c : Nat) (drain : Bool) : Option Access :=
  let x := d.ch c
  let lim := d.cfgFld c bDram 0x30 8 8
  -- no access of a bank goes before a targeted refresh of it, or before a refresh whose debt has reached 8 (R223)
  let held := fun (a : Access) =>
    let b := bankOf ((d.phys a.place) % 2 ^ 30)
    (decide (8 ≤ x.debt) && b == x.ptr % 64) || x.trr.any (fun y => y.bank == b)
  let reads := x.rdq.filter (fun a => d.eligible c a false && !held a)
  let writes := x.wrq.filter (fun a => d.eligible c a true && !held a)
  let oldest := fun (q : List Access) => q.foldl (fun (b : Option Access) a => match b with
    | none => some a
    | some x => if a.arrive < x.arrive then some a else b) none
  match oldest ((reads ++ writes).filter (fun a => decide (lim ≤ a.passes))) with
  | some a => some a
  | none =>
    let inq := if drain then writes ++ reads.filter (fun a => a.pri == 3) else reads
    let top := inq.foldl (fun m a => max m a.pri) 0
    let best := inq.filter (fun a => a.pri == top)
    match oldest (best.filter (d.rowHit c)) with
    | some a => some a
    | none => oldest best

/-- Entries older than the one served, of its queue, have been passed over once more. -/
def passOver (q : List Access) (a : Access) : List Access :=
  if q.contains a then (q.takeWhile (· != a)).map (fun x => { x with passes := x.passes + 1 }) ++ q.dropWhile (· != a) else q

/-- A forced gap keeps the channel silent now. -/
def Dev.forcedNow (d : Dev) (c : Nat) : Bool := (d.ch c).gap == some .forced && decide (d.dt < (d.ch c).gapEnd)

/-- The channel's controller runs: out of BOOT (R371) it serves, in ACTIVE or DEGRADED, with no self-refresh signal out. -/
def Dev.chanRuns (d : Dev) (c : Nat) : Bool :=
  let x := d.ch c
  d.clk.mode != .boot && (x.st == .active || x.st == .degraded) && !x.failed && x.sr.isNone

/-- The mode grooms SRAM (R371). -/
def Dev.groomsSram (d : Dev) : Bool := d.clk.mode != .boot && d.clk.mode != .retain

/-- The mode grooms DRAM (R371). -/
def Dev.groomsDram (d : Dev) : Bool := d.clk.mode == .service || d.clk.mode == .drain

/-- A background access may use a slot of the channel for bank `b` now: no rule of R224 before the last yields a candidate. -/
def Dev.bgSlot (d : Dev) (c b : Nat) : Bool :=
  d.chanRuns c && !d.forcedNow c && !d.phaseRuns c && decide ((d.ch c).debt < 8) && (d.ch c).trr.isEmpty &&
    (d.pickServe c (d.drainNow c)).isNone && d.actReady c b

/-- The activation and the bursts of a background copy at place `q` of a channel. -/
def Dev.bgAccess (d : Dev) (q n : Nat) (wr : Bool) : Dev :=
  let off := q % 2 ^ 30
  let c := placeCh q
  ((d.activate c (bankOf off) (rowOf off) d.dt false).bump c bDram (if wr then 0x210 else 0x208) n).burst c n

/-- CONTROLLER_COMMAND_SLOT (R224): the first rule that yields a candidate decides. -/
def Dev.commandSlot (d0 : Dev) (c upset : Nat) : Dev :=
  let d := if (d0.ch c).rdq.isEmpty && (d0.ch c).wrq.isEmpty then d0 else d0.gapArrive c
  let x := d.ch c
  if !d.chanRuns c then d
  else if decide (8 ≤ x.debt) && d.actReady c (x.ptr % 64) then d.refresh c
  else match d.trrNow c with
    | some y => d.targeted c y
    | none =>
      if d.forcedNow c || d.phaseRuns c then d
      else
        let d1 := d.drainSync c
        match d1.pickServe c (d1.ch c).wdrain with
        | some a =>
          let d2 := d1.modCh c (fun y => { y with rdq := passOver y.rdq a, wrq := passOver y.wrq a })
          -- the entry as it stands after the others were passed over
          ((d2.serve c a upset).drainSync c).queueIdle c
        | none => if x.debt ≥ 1 && d1.actReady c (x.ptr % 64) then d1.refresh c else if d1.groomsDram then d1.groomRow c upset else d1

/-! ### Bands, self-refresh and gaps -/

/-- The channel enters a higher band: a catch-up pass, then the new interval (R229). -/
def Dev.bandUp (d : Dev) (c b : Nat) : Dev :=
  let w := if b = 0 then 32000000 else if b = 1 then 16000000 else 8000000
  (d.modCh c (fun x => { x with band := b, nextBand := none, catchup := some (d.dt + w / 2), refAt := d.dt * 524288 + w / 2 })).orCsr c bDram 0x14 1

/-- The channel takes a lower band, at the end of a catch-up if one runs (R229). -/
def Dev.bandDown (d : Dev) (c b : Nat) : Dev :=
  if (d.ch c).catchup.isSome then d.modCh c (fun x => { x with nextBand := some b })
  else (d.modCh c (fun x => { x with band := b })).orCsr c bDram 0x14 2

/-- Every row of a channel is precharged. -/
def Dev.precharge (d : Dev) (c : Nat) : Dev :=
  { d with dram := { d.dram with bank := d.dram.bank.filter (fun e => e.1 / 64 != c || e.2.row.isNone) } }

/-- Send SRE to a channel (R233): bursts begun are complete and no activation follows. An exit whose acknowledgement is out is overtaken. -/
def Dev.sendSre (d : Dev) (c : Nat) : Dev :=
  let x := d.ch c
  if d.retired c || x.failed || (x.st == .selfref && x.sr != some .srx) then d
  else d.modCh c (fun x => { x with sr := some .sre, srAt := d.dt, srxNext := false, srWait := false, gap := none })

/-- The write drain of a mode change is over: SRE goes out with every row precharged (R233). -/
def Dev.sreDrained (d : Dev) (c : Nat) : Dev :=
  let x := d.ch c
  if x.srWait && x.rdq.isEmpty && x.wrq.isEmpty && x.sr.isNone then (d.precharge c).sendSre c else d

/-- A mode change sends the channel to self-refresh: every queued access completes first (R233). -/
def Dev.sreSoon (d : Dev) (c : Nat) : Dev :=
  if d.retired c || (d.ch c).failed || (d.ch c).st == .selfref then d
  else ((d.modCh c (fun x => { x with srWait := true })).drainSync c).sreDrained c

/-- Send SRX to a channel in self-refresh, or have it follow the entry in progress; an entry not yet begun is given up (R233). -/
def Dev.sendSrx (d0 : Dev) (c : Nat) : Dev :=
  let d := d0.modCh c (fun x => { x with srWait := false })
  if (d.ch c).sr == some .sre then d.modCh c (fun x => { x with srxNext := true })
  else if (d.ch c).st == .selfref then d.modCh c (fun x => { x with sr := some .srx, srAt := d.dt, srxNext := false })
  else d

/-- One group's interval on the layer's own timer, 15.259 ns, in units of 1/524,288 ns (R232). -/
def ownInterval : Nat := 8000000

/-- The layer's acknowledgement (R232, R233): entry precharges every bank, and exit resumes at the interval of the band, without a catch-up,
tXS later. -/
def Dev.srAck (d : Dev) (c : Nat) : Dev :=
  let x := d.ch c
  match x.sr with
  | some .sre =>
    let d1 := ((d.precharge c).modCh c (fun x => { x with
      st := .selfref, wasDegraded := x.wasDegraded || x.st == .degraded
      sr := none, wdrain := false, paced := false, lastPulse := none, srIn := if x.st == .selfref then x.srIn else d.dt
      layerAt := d.dt * 524288 + ownInterval, pulseAt := d.dt * 524288 })).orCsr c bDram 0x14 4
    if x.srxNext then d1.sendSrx c else d1
  | some .srx =>
    let d1 := (d.modCh c (fun x => { x with
      st := if x.wasDegraded then .degraded else .active, wasDegraded := false
      sr := none, paced := false, lastPulse := none, groomStart := x.groomStart + (d.dt - x.srIn)
      catchup := none, band := x.nextBand.getD x.band, nextBand := none
      refAt := d.dt * 524288 + { x with catchup := none, band := x.nextBand.getD x.band }.interval
      notBefore := 4 * d.dt + 264, idleAt := if x.rdq.isEmpty && x.wrq.isEmpty then some d.dt else none })).orCsr c bDram 0x14 8
    if x.nextBand.isSome then d1.orCsr c bDram 0x14 2 else d1
  | none => d

/-- No acknowledgement within 10 µs (R234). -/
def Dev.srAckTimeout (d : Dev) (c : Nat) : Dev :=
  let x := d.ch c
  if x.sr.isSome && decide (x.srAt + 10000 ≤ d.dt) then
    (match x.sr with
     | some .sre => (d.raise0 121 { kind := 5, inst := c, a := 0 }).modCh c (fun x => { x with srAt := d.dt })
     | _ =>
       let (v, d1) := (d.raise0 121 { kind := 5, inst := c, a := 1 }).draw
       (d1.modCh c (fun x => { x with st := .degraded })).failChannel c (v % 2 ^ 32))
  else d

/-- The layer refreshes on pulses: it has had one within the last 1 µs (R232). -/
def Dev.pacedNow (d : Dev) (c : Nat) : Bool :=
  let x := d.ch c
  x.st == .selfref && (match x.lastPulse with | some t => decide (d.dt < t + 1000) | none => false)

/-- A gap of R235 is announced on the channel now. -/
def Dev.inGap (d : Dev) (c : Nat) : Bool :=
  let x := d.ch c
  match x.gap with
  | some .idle => (x.rdq.isEmpty && x.wrq.isEmpty) || d.phaseRuns c
  | some .forced => decide (d.dt < x.gapEnd)
  | none => false

/-- Apply one training of the 58 links (R236). -/
def Dev.trainLinks (d : Dev) (c : Nat) (res : List LinkRes) : Dev :=
  let min_ := d.cfgFld c bDram 0x48 16 6
  let one := fun (a : Dev) (x : LinkRes × Nat) =>
    let (r, l) := x
    let old := a.vlink c l
    let low := decide (r.eye < min_)
    let a1 := a.modVlink c l (fun _ => { eye := r.eye % 128, deskew := r.deskew % 256, vref := r.vref % 256, low := low })
    let carriesNothing := decide (l < 48) && (a.carrier c l).isSome
    if r.dead then
      let a2 := if l < 36 then a1.modMem (fun m => { m with badLink := tabMod (fun _ => 0) m.badLink c (fun e => e ||| 2 ^ l) }) else a1
      a2.linkFailed c l false
    else if low && old.low && !carriesNothing then
      ((a1.raise0 120 { kind := 5, inst := c, a := l }).orCsr c bDram 0x14 0x20).linkFailed c l false
    else a1
  -- training activates a row, which the manual does not name (R222; log 124)
  let (v, d0) := d.draw
  ((res.take 58).zipIdx.foldl one (d0.activate c (v % 64) (v / 64 % 32768) d.dt false)).modCh c (fun x => { x with trainAt := d.dt })

end Sys2Proof.Machine
end

