-- ==== Sys2Proof/Machine/Slalom.lean ====
section
/-!
DEFINITION. The Slalom engines (R192 to R214): homes, contexts, gates and the steps of every table operation.
-/
namespace Sys2Proof.Machine

/-- Read the unit at a place as the stamp order shows it: a write queued for it is seen (R225). -/
def Dev.readLogical (d : Dev) (p src : Nat) (ptn : Option Nat) : List Byte × Bool × Dev :=
  if inSram p then d.readSram p 64 src ptn
  else match d.queuedWrite p with
    | some w => (w.bytes, false, d)
    | none => d.readUnit p src ptn

/-- Address of the first unit a table request reads (R193). -/
def Req.firstAddr (r : Req) : Nat :=
  match r.opc with
  | .emLookup | .emInsert | .emDelete => (emBuckets r.td (r.data.take (tdKsize r.td))).1
  | .lpmLookup => tdBase r.td + 8 * keyBits r.data 0 (tdStride r.td 1)
  | _ => tdEntry r.td (r.addr / 256)

/-- Home channel of a table request (R193). -/
def Dev.homeOf (d : Dev) (r : Req) : Nat :=
  let a := r.firstAddr
  let c := match d.placeAt (a / 64 * 64) with
    | some (_, p) => if inSram p then (p - 0x1000000000) / 64 % 64 else placeCh p
    | none => 0
  let t := c / 16
  match (List.range 16).find? (fun i => d.serving (16 * t + (c + i) % 16)) with
  | some i => 16 * t + (c + i) % 16
  | none => c

/-- Admit a table request (R193, R201): the descriptor in force at the stamp serves all its steps. -/
def Dev.admitTable (d : Dev) (o : Opc) (h : ReqHdr) : Dev :=
  match d.takeReq o o.code h with
  | (d1, none) => d1
  | (d1, some r) =>
    let r1 := { r with td := d.td (r.addr % 64) }
    d1.modTxn (fun t => { t with reqs := t.reqs ++ [{ r1 with home := d.homeOf r1, frags := [{}], node := tdBase r1.td }] })

/-- Contexts held on a channel (R194). -/
def Dev.ctxBusy (d : Dev) (c : Nat) : Nat := (d.txn.reqs.filter (fun r => r.ctx && r.home == c)).length

/-- Response bytes for which a table request reserves staging; an operation for firmware has no response. -/
def Req.tableLen (r : Req) : Nat :=
  if r.posted || r.fw.isSome then 0 else match r.opc with
  | .emLookup | .lpmLookup => tdRsize r.td
  | .count => 16
  | _ => 0

/-- CHIPID that the accesses of a request are charged to; those for firmware are charged to no entry (R261, R335). -/
def Dev.chipOf (d : Dev) (r : Req) : Nat := if r.fw.isSome then bgChip else (d.ptn r.ptn).chipid

/-- TABLE_OPERATION_START (R194). -/
def Dev.tableStart (d : Dev) (id : Nat) : Dev :=
  match d.req? id with
  | none => d
  | some r =>
    if !r.opc.isTable || r.ctx || r.st != .waiting || d.fenceBlocked r || decide (64 ≤ d.ctxBusy r.home) ||
        !(tierChans (r.home / 16)).any d.serving then d
    else match d.reserve id r.ptn r.tableLen with
      | none => d.waitRoom id
      | some (a, b, d1) =>
        let n := d.ctxBusy r.home + 1
        let old := tabGet (fun _ => 0) d.sla.peak r.home
        let d2 := (d1.modReq id (fun r => { r with ctx := true, ready := true, st := .issued, frags := [{ rsv := a, shr := b }] })).rcNote
          (r.home / 16) bSlalom (0x20 + 4 * (r.home % 16)) old (max n)
        { d2 with sla := { d2.sla with peak := tabSet (fun _ => 0) d2.sla.peak r.home (max old n) } }

/-- Addresses and lengths that the next step of a request reaches (R195, R204, R205). -/
def Req.stepSpan (r : Req) : List (Nat × Nat) :=
  let t := r.td
  match r.opc with
  | .emLookup | .emInsert | .emDelete =>
    let (b1, b2) := emBuckets t (r.data.take (tdKsize t))
    let n := 4 * emEntry t
    if b1 = b2 then [(b1, n)]
    else if n ≤ 128 then [(b1, n), (b2, n)] else if r.step = 0 then [(b1, n)] else [(b2, n)]
  | .lpmLookup => [(r.node + 8 * keyBits r.data r.pos (tdStride t (r.step + 1)), 8)]
  | .count => [(tdEntry t (r.addr / 256), 16)]
  | _ => [(tdEntry t (r.addr / 256), 64)]

/-- Units of the next step; those in DRAM. -/
def Dev.stepUnits (d : Dev) (r : Req) : List Nat := ((r.stepSpan).map (fun s => d.unitsOf s.1 s.2)).flatten
def Dev.stepDram (d : Dev) (r : Req) : List Nat := (d.stepUnits r).filter (fun u => !inSram (64 * u))

/-- An update step is a locked read-modify-write of its units (R195). -/
def Req.stepKind (r : Req) : AccKind := match r.opc with
  | .emLookup | .lpmLookup => .read
  | _ => .rmw

/-- Place of a step in its gate's order: the least PRI of its accesses (DESIGN CHOICE, log 125: R264 gives each access its PRI and the step
none); without a DRAM access, as one of the home channel's. -/
def Dev.stepPri (d : Dev) (r : Req) : Nat :=
  let pri := fun c => d.priOf (d.chipOf r) r.tc c r.stepKind.cost r.deadline
  match (d.stepDram r).map (fun u => pri (placeCh (d.phys (64 * u)))) with
  | [] => pri r.home
  | x :: t => t.foldl min x

/-- The ready step that goes first in a channel's gate (R197, R265). -/
def Dev.pickStep (d : Dev) (c : Nat) : Option Req :=
  (d.txn.reqs.filter (fun r => r.ctx && r.ready && r.home == c)).foldl (fun (b : Option Req) r => match b with
    | none => some r
    | some x => if before (d.stepPri r) r.deadline r.ord (d.stepPri x) x.deadline x.ord then some r else b) none

/-- Issue a step: its DRAM accesses wait for their channels, each at the operation's stamp (R195, R197). -/
def Dev.stepIssue (d : Dev) (r : Req) : Dev :=
  let as := (d.stepDram r).map (fun u => ({ for_ := .step r.id, unit := u, kind := r.stepKind, ord := r.ord, stamp := r.stamp, tc := r.tc
                                            chipid := d.chipOf r, deadline := r.deadline, arrive := d.dt } : Access))
  (d.modReq r.id (fun r => { r with ready := false, begun := true, spend := as.length })).modTxn (fun t => { t with acc := t.acc ++ as })

/-- The gate of a channel of an engine has passed, issuing a step or not; the 16th ends the round (R192, R196). `len` in 0.1 ps. -/
def Dev.gatePassed (d : Dev) (e len : Nat) (stepped : Bool) : Dev :=
  let g := (d.eng e).gate
  let issued := (d.eng e).issued + b2n stepped
  let sum := (d.eng e).sum + len
  if g < 15 then d.modEng e (fun x => { x with gate := g + 1, sum := sum, issued := issued })
  else
    let r8 := min 255 (sum / 1250)
    let d1 := d.modEng e (fun x => { x with gate := 0, sum := 0, issued := 0 })
    let d2 := if issued = 16 then
        (d1.rcNote e bSlalom 0x10 (d.eng e).roundMax (max r8)).modEng e (fun x => { x with roundLast := r8, roundMax := max x.roundMax r8 })
      else d1
    if sum > 130000 then (d2.raise0 111 { kind := 6, inst := e }).orCsr e bSlalom 0x14 2 else d2

/-- SLALOM_GATE (R192, R196, R197): the gate of the next channel of the engine. An operation abandoned there issues no step (R130). -/
def Dev.gate (d : Dev) (e len : Nat) : Dev :=
  match d.pickStep (16 * e + (d.eng e).gate) with
  | none => d.gatePassed e len false
  | some r =>
    if r.abandons d.dt then (d.abandon r).gatePassed e len false
    else ((d.stepIssue r).bump e bSlalom 0x80 1).gatePassed e len true

/-! ### Steps -/

/-- Form the result of a table request; its completion goes to the collector (R215). -/
def Dev.tableDone (d : Dev) (r : Req) (st : Status) (data : List Byte) (aux ops : Nat) : Dev :=
  let e := r.home / 16
  let d1 := d.modReq r.id (fun r => { r with st := .done, status := st, resp := data, aux := aux
                                             frags := r.frags.map (fun f => { f with doneDt := some d.dt }) })
  let d2 := d1.modTxn (fun t => { t with comps := t.comps ++ [{ src := if r.fw.isSome then 64 + e else r.home, ref := .table r.id }] })
  let d3 := if st == .uncorr then d2.orCsr e bSlalom 0x14 4 else d2
  d3.bump e bSlalom ops 1

/-- The next step of the same operation is ready. -/
def Dev.nextStep (d : Dev) (r : Req) : Dev := d.modReq r.id (fun r => { r with step := r.step + 1, ready := true })

/-- `n` bytes from device address `a` of the units that the operation has read; any bad unit makes the whole bad. -/
def Dev.stepBytes (d : Dev) (r : Req) (a n : Nat) : List Byte × Bool :=
  let us := d.unitsOf a n
  let got := us.map (fun u => (r.sdata.find? (fun x => x.1 == u)).getD (u, List.replicate 64 0, false))
  (slice ((got.map (fun x => x.2.1)).flatten) (a % 64) n, got.any (fun x => x.2.2))

/-- An update has formed the new contents `bs` at address `a`, within one unit, and ends with this answer: the bytes alone in stack SRAM
(R211), and in DRAM a write of the whole unit that lands as it enters its channel's write queue (R225, R247). It waits for room there; a unit
that can no longer be written is UNCORR. -/
def Dev.tableWrite (d : Dev) (r : Req) (a : Nat) (bs : List Byte) (st : Status) (data : List Byte) (aux ops : Nat) : Dev :=
  match d.unitAt a with
  | none => d.tableDone r st data aux ops
  | some u =>
    if inSram (64 * u) then (d.writeSram a (offsets bs)).tableDone r st data aux ops
    else
      let c := placeCh (d.phys (64 * u))
      if d.mem.lost.contains (placeBlk (64 * u)) || !d.serving c then d.tableDone r .uncorr [] 0 ops
      else if 32 ≤ (d.ch c).wrq.length then d
      else
        let old := (d.stepBytes r (a / 64 * 64) 64).1
        let w : Access := { for_ := .step r.id, unit := u, kind := .rmw, bytes := overlay old (a % 64) bs, mask := 2 ^ 64 - 1
                            ord := r.ord, stamp := r.stamp, tc := r.tc, chipid := d.chipOf r, deadline := r.deadline, arrive := d.dt
                            pri := d.priOf (d.chipOf r) r.tc c 64 r.deadline }
        (((d.modCh c (fun x => { x with wrq := x.wrq ++ [w] })).drainSync c).queueIdle c).tableDone r st data aux ops

/-- Entries of a bucket read at `b`: address and bytes. -/
def bucketEntries (t : List Byte) (b : Nat) (bs : List Byte) : List (Nat × List Byte) :=
  let e := emEntry t
  (List.range 4).map (fun j => (b + e * j, slice bs (e * j) e))

/-- The first VALID entry with the key, in search order (R204). -/
def emFind (t key : List Byte) (es : List (Nat × List Byte)) : Option (Nat × List Byte) :=
  es.find? (fun x => bit (leAt x.2 0 1) 0 && slice x.2 4 (tdKsize t) == key)

/-- A whole entry (R202). -/
def emMake (t key res : List Byte) : List Byte := padTo (emEntry t) ([1, 0, 0, 0] ++ key ++ res)

/-- Steps of the EM operations (R204, R205), once their data have returned. -/
def Dev.emStep (d : Dev) (r : Req) : Dev :=
  let t := r.td
  let key := r.data.take (tdKsize t)
  let (b1, b2) := emBuckets t key
  let n := 4 * emEntry t
  let res := slice r.data (tdKsize t) (tdRsize t)
  let (x1, bad1) := d.stepBytes r b1 n
  let es1 := bucketEntries t b1 x1
  let (x2, bad2) := if b1 = b2 then ([], false) else d.stepBytes r b2 n
  let es := es1 ++ (if b1 = b2 then [] else bucketEntries t b2 x2)
  if bad1 then d.tableDone r .uncorr [] 0 0x88
  else if b1 != b2 && n > 128 && r.step == 0 then
    (match r.opc, emFind t key es1 with
     | .emLookup, some (_, e) => d.tableDone r .ok (slice e (4 + tdKsize t) (tdRsize t)) 1 0x88
     | _, _ => d.nextStep r)
  else if bad2 then d.tableDone r .uncorr [] 0 0x88
  else match r.opc, emFind t key es with
    | .emLookup, some (_, e) => d.tableDone r .ok (slice e (4 + tdKsize t) (tdRsize t)) 1 0x88
    | .emLookup, none => d.tableDone r .ok [] 0 0x88
    | .emInsert, some (a, e) => d.tableWrite r a (overlay e (4 + tdKsize t) res) .ok [] 2 0x88
    | .emInsert, none =>
      (match es.find? (fun x => !bit (leAt x.2 0 1) 0) with
       | some (a, _) => d.tableWrite r a (emMake t key res) .ok [] 0 0x88
       | none => d.tableDone r .tableFull [] 0 0x88)
    | _, some (a, _) => d.tableWrite r a (List.replicate (emEntry t) 0) .ok [] 1 0x88
    | _, none => d.tableDone r .ok [] 0 0x88

/-- One level of a walk (R208, R209). -/
def Dev.lpmStep (d : Dev) (r : Req) : Dev :=
  let t := r.td
  let k := r.step + 1
  let a := r.node + 8 * keyBits r.data r.pos (tdStride t k)
  let (bs, bad) := d.stepBytes r a 8
  if bad then d.tableDone r .uncorr [] 0 0x90
  else
    let w := leAt bs 4 4
    let bestV := r.bestV || bit w 31
    let best := if bit w 31 then leAt bs 0 4 else r.best
    let blen := if bit w 31 then bits w 22 8 else r.blen
    let child := bits w 0 22
    let fin := fun (d : Dev) =>
      if bestV then d.tableDone r .ok (leBytes 4 best) (1 + 256 * blen) 0x90 else d.tableDone r .ok [] 0 0x90
    if !bit w 30 || k = tdLevels t then fin d
    else if child ≥ tdNodes t (k + 1) then
      let e := r.home / 16
      let d2 := d.raise0 110 { kind := 18, inst := r.addr % 64, wide := a, a := e }
      fin ((d2.orCsr e bSlalom 0x14 1).bump e bSlalom 0xA8 1)
    else d.modReq r.id (fun r => { r with
      step := k, ready := true, bestV := bestV, best := best, blen := blen, sdata := []
      node := tdLbase t (k + 1) + child * lpmNodeBytes t (k + 1), pos := r.pos + tdStride t k })

/-- COUNT (R211). -/
def Dev.countStep (d : Dev) (r : Req) : Dev :=
  let a := tdEntry r.td (r.addr / 256)
  let (bs, bad) := d.stepBytes r a 16
  if bad then d.tableDone r .uncorr [] 0 0x98
  else
    let new := leBytes 8 (leAt bs 0 8 + 1) ++ leBytes 8 (leAt bs 8 8 + leAt r.data 0 8)
    d.tableWrite r a new .ok (if r.posted then [] else new) 0 0x98

/-- The policer of R213: new record and colour out. -/
def policeNew (rec : List Byte) (stamp bytes colour : Nat) : List Byte × Nat :=
  let cir := leAt rec 16 4
  let pir := leAt rec 20 4
  let cbs := leAt rec 24 4
  let pbs := leAt rec 28 4
  let last := leAt rec 32 8
  let aware := bit (leAt rec 40 1) 0
  let dt := stamp - last
  let tc := if last < stamp then min (leAt rec 0 8 + dt * cir) (cbs * 2 ^ 24) else leAt rec 0 8
  let tp := if last < stamp then min (leAt rec 8 8 + dt * pir) (pbs * 2 ^ 24) else leAt rec 8 8
  let b := bytes * 2 ^ 24
  let col := if aware && colour == 3 then 2 else colour
  let (out, tc', tp') :=
    if (aware && col == 2) || decide (tp < b) then (2, tc, tp)
    else if (aware && col == 1) || decide (tc < b) then (1, tc, tp - b)
    else (0, tc - b, tp - b)
  (overlay (overlay (overlay rec 0 (leBytes 8 tc')) 8 (leBytes 8 tp')) 32 (leBytes 8 (if last < stamp then stamp else last)), out)

/-- POLICE (R213). -/
def Dev.policeStep (d : Dev) (r : Req) : Dev :=
  let a := tdEntry r.td (r.addr / 256)
  let (bs, bad) := d.stepBytes r a 64
  if bad then d.tableDone r .uncorr [] 0 0xA0
  else
    let (new, out) := policeNew bs r.stamp (leAt r.data 0 4) (leAt r.data 4 1 % 4)
    d.tableWrite r a new .ok [] out 0xA0

/-- Read the stack SRAM units of a step that have not been read yet. -/
def Dev.stepSram (d : Dev) (r : Req) : Dev :=
  ((d.stepUnits r).filter (fun u => inSram (64 * u) && !r.sdata.any (fun x => x.1 == u))).foldl (fun (a : Dev) u =>
    let (bs, bad, a1) := a.readSram (64 * u) 64 4 (if r.fw.isSome then none else some r.ptn)
    a1.modReq r.id (fun r => { r with sdata := r.sdata ++ [(u, bs, bad)] })) d

/-- STEP_DATA_RETURN (R195): the step's DRAM accesses have returned, and its stack SRAM units take their place in the order of R135. -/
def Dev.stepReturn (d : Dev) (id : Nat) : Dev :=
  match d.req? id with
  | none => d
  | some r =>
    if !r.ctx || r.ready || r.st != .issued || !r.begun || r.spend ≠ 0 ||
        (d.stepUnits r).any (fun u => inSram (64 * u) && d.earlier r.ord u) || d.streamBlocked r then d
    else
      let d1 := d.stepSram r
      match d1.req? id with
      | none => d1
      | some r1 => match r1.opc with
        | .lpmLookup => d1.lpmStep r1
        | .count => d1.countStep r1
        | .police => d1.policeStep r1
        | _ => d1.emStep r1

/-- Status of a table command for the outcome of its operation (R335). -/
def fwTableStatus : Status → Nat
  | .ok => 0
  | .tableFull => 0x0601
  | .uncorr => 0x0604
  | _ => 0x0602

/-- Result of a table command for the outcome of its operation (R334). -/
def Req.fwResult (r : Req) : List Byte :=
  if r.status != .ok then []
  else match r.opc with
  | .emInsert => [byte (b2n (bit r.aux 1))]
  | .emDelete => [byte (b2n (bit r.aux 0))]
  | .lpmLookup => [byte (b2n (bit r.aux 0)), byte (r.aux / 256), 0, 0] ++ r.resp
  | _ => [byte (b2n (bit r.aux 0)), 0, 0, 0] ++ r.resp

/-- The completion of a table request is taken: its response is formed (R141), or firmware has its outcome (R335). -/
def Dev.tableDeliver (d : Dev) (id : Nat) : Dev :=
  match d.req? id with
  | none => d
  | some r =>
    match r.fw with
    | some p => (d.dropReq id).modPair (p / 8) (p % 8) (fun x => if x.wait && x.work == [id] then { x with eng := some (fwTableStatus r.status, r.fwResult) } else x)
    | none =>
      let f := r.frags.head?.getD {}
      let d1 := if r.posted || r.depart then d.unreserve r.ptn f.rsv f.shr else d
      d1.answerF r r.status r.resp r.aux (fun g => { g with
        rsv := f.rsv, shr := f.shr, doneDt := f.doneDt.getD d.dt, late := lateAt r.deadline (f.doneDt.getD d.dt) })

end Sys2Proof.Machine
end

