-- ==== Sys2Proof/Machine/Queue.lean ====
section
/-!
DEFINITION. The queue manager (R162 to R191): pools, descriptors, enqueues, dequeues, parking, watermarks, moves and
frozen queues.
-/
namespace Sys2Proof.Machine

/-- Descriptors of a queue in queue order (R165). -/
def Queue.descs (q : Queue) : List Desc := q.head ++ (q.mid.map (·.2)).flatten ++ q.tail

/-- Bytes of the head packet not yet dequeued (R172): up to the first EOP. -/
def headBytes : List Desc → Nat
  | [] => 0
  | x :: t => if x.eop then x.cbytes else x.cbytes + headBytes t

/-- Descriptors of the head packet. -/
def headCells : List Desc → Nat
  | [] => 0
  | x :: t => if x.eop then 1 else 1 + headCells t

/-- The 16 bytes of a descriptor (R163); `next` is the link kept in the fourth of a unit. -/
def Desc.bytes (x : Desc) (next : Option Nat) : List Byte :=
  leBytes 4 (x.cell + 2 ^ 28 * b2n x.sop + 2 ^ 29 * b2n x.eop) ++ leBytes 2 x.cbytes ++ leBytes 2 x.pktlen ++
    leBytes 4 (match next with | some u => u + 2 ^ 31 | none => 0) ++ leBytes 4 x.linkDt

/-! ### Moving descriptors (R166) -/

/-- Bytes of a descriptor unit, with the link to the next unit in its fourth descriptor (R163). -/
def unitBytes (ds : List Desc) (next : Option Nat) : List Byte :=
  (ds.zipIdx.map (fun e => e.1.bytes (if e.2 = 3 then next else none))).flatten

/-- Units of a middle, in order. -/
def Queue.units (y : Queue) : List Nat := y.mid.map (·.1)
/-- The unit after, or before, unit `u` in the middle. -/
def Queue.nextOf (y : Queue) (u : Nat) : Option Nat := ((y.units.dropWhile (· != u)).drop 1).head?
def Queue.prevOf (y : Queue) (u : Nat) : Option Nat := (y.units.takeWhile (· != u)).getLast?

/-- The head entry, or the tail entry, of a queue has been written (R165). -/
def Dev.headWritten (d : Dev) (q : Nat) : Dev := d.storeWritten (0x1001000000 + 128 * q) 64
def Dev.tailWritten (d : Dev) (q : Nat) : Dev := d.storeWritten (0x1001000000 + 128 * q + 64) 64

/-- Descriptors in the three parts of a queue, and the groups of four that append spills on the way (R166). -/
structure Spilled where
  head : List Desc := []
  mid : Bool := false
  tail : List Desc := []
  out : List (List Desc) := []
  deriving DecidableEq, Repr

/-- append of R166 on these parts. -/
def Spilled.append (s : Spilled) (x : Desc) : Spilled :=
  if !s.mid && s.tail.isEmpty && decide (s.head.length < 4) then { s with head := s.head ++ [x] }
  else if s.tail.length = 4 then { s with mid := true, tail := [x], out := s.out ++ [s.tail] }
  else { s with tail := s.tail ++ [x] }

/-- What appending a packet's descriptors leaves. -/
def Queue.appendAll (y : Queue) (xs : List Desc) : Spilled :=
  xs.foldl Spilled.append { head := y.head, mid := !y.mid.isEmpty, tail := y.tail }

/-- Write descriptor bytes where they stand: in the write still queued for the unit, or in storage. -/
def Dev.patchUnit (d : Dev) (p : Nat) (bs : List Byte) : Dev :=
  match d.queuedWrite p with
  | some w => d.modCh (placeCh (d.phys p)) (fun x => { x with wrq := x.wrq.map (fun a => if a = w then { a with bytes := bs } else a) })
  | none => d.modMem (fun m => m.put (d.phys p) bs)

/-- Refill an empty head from the middle, or from the tail, for dequeue `r` (R166). The unit is read as one access of the request and freed with
it; one that is uncorrectable freezes the queue. -/
def Dev.refill (d : Dev) (q : Nat) (r : Req) : Dev :=
  let y := d.queue q
  match y.mid with
  | [] => ((d.modQueue q (fun y => { y with head := y.tail, tail := [] })).headWritten q).tailWritten q
  | (u, ds) :: ms =>
    let (_, bad, d1) := d.readLogical (d.unitPlace u) 0 (some r.ptn)
    if bad then d1.freeze q 0
    else
      let a : Access := { for_ := .refill r.id u, unit := placeUnit (d.unitPlace u), ord := r.ord, stamp := r.stamp, tc := r.tc
                          chipid := d.chipOf r, deadline := r.deadline, arrive := d.dt }
      (((d1.modQueue q (fun y => { y with head := ds, mid := ms })).headWritten q).modTxn (fun t => { t with acc := t.acc ++ [a] })).modReq
        r.id (fun r => { r with dpend := r.dpend + 1 })

/-- take_head of R166. -/
def Dev.takeHead (d : Dev) (q : Nat) (r : Req) : Option Desc × Dev :=
  match (d.queue q).head with
  | [] => (none, d)
  | x :: t =>
    let d1 := (d.modQueue q (fun y => { y with head := t })).headWritten q
    (some x, if t.isEmpty then d1.refill q r else d1)

/-- Take up to `n` descriptors from the head. -/
def Dev.takeHeads : Nat → Dev → Nat → Req → List Desc → List Desc × Dev
  | 0, d, _, _, acc => (acc, d)
  | n + 1, d, q, r, acc =>
    match d.takeHead q r with
    | (none, d1) => (acc, d1)
    | (some x, d1) => Dev.takeHeads n d1 q r (acc ++ [x])

/-- WM_ARMED returns to 1 below QWM (R183). -/
def Dev.wmRearm (d : Dev) (q qwm : Nat) : Dev :=
  if (d.queue q).occ < qwm then d.modQueue q (fun y => { y with wmArmed := true }) else d

/-! ### Dequeue (R177 to R182) -/

/-- Park entries: from the partner's 64, then from the shared 12,288; answers whether the entry is shared (R182). -/
def Dev.parkRoom (d : Dev) (k : Nat) : Option Bool :=
  if (d.qm.parks.filter (fun p => p.ptn == k && !p.shared)).length < 64 then some false
  else if (d.qm.parks.filter (·.shared)).length < 12288 then some true else none

/-- What a request of queue `q` uses and reports as of now (R171, R172). -/
def Dev.qSnap (d : Dev) (q : Nat) : QSnap :=
  let y := d.queue q
  let p := d.profileOf q
  { full := y.full, overrun := y.overrun, drops := y.drops, prof := imgProfileOf d.image q, qlimit := p.qlimit, qwm := p.qwm, parkUs := p.parkUs }

/-- The dequeue takes effect (R177, R178): OCC is not 0 and the queue is not frozen. -/
def Dev.deqTake (d : Dev) (id : Nat) : Dev :=
  match d.req? id with
  | none => d
  | some r =>
    let q := r.addr
    let y := d.queue q
    let hc := headCells y.descs
    let left := headBytes y.descs
    let n := if r.mod = 0 then hc else min r.len hc
    let plan := y.descs.take n
    let pl := match plan with | x :: _ => x.pktlen | [] => 0
    let ld := match plan with | x :: _ => x.linkDt | [] => 0
    -- it is served: a freeze met while its descriptors are read leaves it alone (R187)
    let (ts, d1) := Dev.takeHeads n (d.unpark id) q r []
    let eop := ts.any (·.eop)
    let head := if r.mod = 1 then 16 else 0
    let rlen := head + (plan.map (·.cbytes)).sum
    let d2 := d1.modQueue q (fun y => { y with
      occ := y.occ - ts.length, pkts := y.pkts - b2n eop, headMid := if ts.isEmpty then y.headMid else !eop })
    let d3 := (d2.modQm (fun m => { m with cellQueued := m.cellQueued - ts.length, cellInfl := m.cellInfl + ts.length })).wmRearm q r.snap.qwm
    let d4 := if eop then d3.bump 0 bQm 0x308 1 else d3
    d4.modReq id (fun r => { r with
      st := .waiting, begun := true, cells := ts.map (fun x => (x.cell, x.cbytes)), sop := plan.any (·.sop), eop := plan.any (·.eop)
      poff := pl - left, pktlen := pl, linkDt := ld, rlen := rlen, aux := rlen
      frags := (List.range (ceilDiv rlen 1024)).map (fun i => { idx := i }) })

/-- A queue command of an earlier place has yet to take effect on the queue (R337). -/
def Dev.queueCmdAhead (d : Dev) (q ord : Nat) : Bool :=
  d.mbox.pair.any (fun x => (x.2.st == .posted || x.2.st == .running) && decide (x.2.ord < ord) &&
    [0x0701, 0x0703, 0x0704].contains (leAt x.2.cmd 0 2) && leAt x.2.cmd 16 4 == q)

/-- A queue request of an earlier place waits to begin: the queue order of R140 holds this one back. -/
def Dev.queueBlocked (d : Dev) (r : Req) : Bool :=
  d.queueCmdAhead r.addr r.ord || d.txn.reqs.any (fun x => (x.opc == .dequeue || x.opc == .qstatus) && x.addr == r.addr && decide (x.ord < r.ord) &&
    x.st == .waiting && !x.begun)

/-- Cut a list into units of four. -/
def chunk4 : Nat → List Desc → List (List Desc)
  | 0, _ => []
  | n + 1, l => if l.isEmpty then [] else l.take 4 :: chunk4 n (l.drop 4)

/-- Undo a dequeue at a departure (R179). Cells and units that should move are moved later, as the others of the queue (R185). -/
def Dev.undo (d : Dev) (r : Req) : Dev :=
  let q := r.addr
  let n := r.cells.length
  if n = 0 then d
  else
    let back := r.cells.zipIdx.map (fun c => ({
      cell := c.1.1, sop := r.sop && c.2 == 0, eop := r.eop && c.2 + 1 == n, cbytes := c.1.2, pktlen := r.pktlen, linkDt := r.linkDt } : Desc))
    let all := back ++ (d.queue q).head
    let k := if all.length % 4 = 0 then 4 else all.length % 4
    let rest := chunk4 all.length (all.drop k)
    let d1 := (d.modQueue q (fun y => { y with
      head := all.take k, occ := y.occ + n, pkts := y.pkts + b2n r.eop, headMid := decide (r.poff ≠ 0) })).headWritten q
    -- the last unit first, so that the units stand in order at the front of the middle
    let d2 := rest.reverse.foldl (fun (a : Dev) ds =>
      match a.takeUnit with
      | none => a
      | some (u, a1) =>
        let nx := ((a1.queue q).mid.head?).map (·.1)
        let w : Access := { for_ := .undo, unit := placeUnit (a1.unitPlace u), kind := .write, bytes := unitBytes ds nx, mask := 2 ^ 64 - 1
                            ord := a1.txn.nextOrd, stamp := a1.dt, tc := r.tc, chipid := a1.chipOf r, arrive := a1.dt }
        (a1.modTxn (fun t => { t with acc := t.acc ++ [w], nextOrd := t.nextOrd + 1 })).modQueue q (fun y => { y with mid := (u, ds) :: y.mid })) d1
    let d3 := d2.modQm (fun m => { m with cellQueued := m.cellQueued + n, cellInfl := m.cellInfl - n })
    let d4 := d3.bump 0 bQm 0x330 1
    if r.eop then d4.bump 0 bQm 0x308 (2 ^ 64 - 1) else d4

/-! ### Enqueue (R173 to R176) -/

/-- Take the cell of the bytes that have arrived, or issue the writes of a cell that is whole (R175, step 1). -/
def Dev.enqPump : Nat → Dev → Nat → Dev
  | 0, d, _ => d
  | n + 1, d, id =>
    match d.open? id with
    | none => d
    | some o =>
      if o.buf.isEmpty then d
      else if o.cells.length = o.issued then
        match d.rotate d.qm.cellUsed o.ptr d.cellLim false with
        | none => d
        | some (c, p) =>
          Dev.enqPump n ((d.modQm (fun q => { q with cellUsed := q.cellUsed ++ [c] })).modOpen id (fun o => { o with
            cells := o.cells ++ [c], ptr := p })) id
      else if 256 ≤ o.buf.length ∨ o.got = o.len then
        let bs := o.buf.take 256
        let c := o.cells.getLast?.getD 0
        let us := (List.range (ceilDiv bs.length 64)).map (fun j => ({
          for_ := .enq id, unit := placeUnit (d.cellPlace c) + j, idx := j, kind := .write, bytes := padTo 64 (slice bs (64 * j) 64)
          mask := 2 ^ 64 - 1, ord := o.ord, stamp := o.stamp, tc := o.tc, chipid := o.chipid
          deadline := o.req.deadline, arrive := d.dt } : Access))
        Dev.enqPump n ((d.modTxn (fun t => { t with acc := t.acc ++ us })).modOpen id (fun o => { o with
          issued := o.issued + 1, out := o.out + us.length, buf := o.buf.drop 256 })) id
      else d

/-- Packet bytes of an admitted enqueue arrive. -/
def Dev.enqFeed (d : Dev) (id : Nat) (bs : List Byte) : Dev :=
  Dev.enqPump 132 (d.modOpen id (fun o => { o with got := o.got + bs.length, buf := o.buf ++ bs })) id

/-- The cell-write buffers have no room for `n` bytes more: they are full of cells whose writes still wait to go to their channels (R84; their
size is Config.cellBuf). -/
def Dev.cellBufFull (d : Dev) (n : Nat) : Bool :=
  let used := 64 * (d.txn.acc.filter (fun a => match a.for_ with | .enq _ => true | _ => false)).length
  used != 0 && decide (Config.cellBuf < used + n)

/-- Take the flits that wait in their entries on a port while the buffers have room (R84). -/
def Dev.enqDrain : Nat → Dev → Nat → Dev
  | 0, d, _ => d
  | k + 1, d, port =>
    match (d.arr port).wait, (d.arr port).enq with
    | bs :: t, some id =>
      if d.cellBufFull bs.length then d
      else Dev.enqDrain k (((d.setArr port { d.arr port with wait := t }).rxFree port 2 1).enqFeed id bs) port
    | _, _ => d

/-- Take what waits on every port. -/
def Dev.enqDrainAll (d : Dev) : Dev := d.qm.arriving.foldl (fun (a : Dev) p => Dev.enqDrain p.2.wait.length a p.1) d

/-- The rest of an ENQUEUE packet is still to arrive on the port (R174). -/
def Dev.expect (d : Dev) (port left : Nat) (enq : Option Nat) : Dev := d.setArr port { left := left, enq := enq }

/-- A flit of an ENQUEUE's data has arrived on a port (R84, R174): of an admitted one it waits in its entry while the buffers are full, of a
refused one it is taken and discarded. -/
def Dev.enqFlit (d0 : Dev) (port : Nat) (bs : List Byte) : Dev :=
  let d := d0.enqDrainAll
  let a := d.arr port
  let n := min a.left (min bs.length (flitBytes (d.port port).gen))
  let d1 := d.setArr port { a with left := a.left - n, wait := if a.enq.isSome then a.wait ++ [bs.take n] else [] }
  if a.enq.isSome then Dev.enqDrain d1.txn.acc.length.succ d1 port else d1.rxFree port 2 1

/-- Move the rotating pointer past the last channel from which the `n` cells of a packet come (R167): channels without a free unquarantined
cell are skipped. -/
def Dev.advancePtr (d : Dev) (n : Nat) : Nat :=
  ((List.range n).foldl (fun (x : List Nat × Nat) _ =>
    match d.rotate x.1 x.2 d.cellLim false with
    | some (c, p) => (x.1 ++ [c], p)
    | none => x) (d.qm.cellUsed, d.qm.ptrCell)).2

/-- A refused enqueue (R173, R174): for lack of free cells, under QLIMIT (`ovr`), or FROZEN. -/
def Dev.enqRefuse (d : Dev) (r : Req) (nobuf ovr : Bool) (need : Nat) : Dev :=
  let q := r.addr
  let y := d.queue q
  let d0 := if ovr then d.evtNote q bQm 0x18 2 else d
  let d1 := d0.modQueue q (fun y => { y with full := true, drops := (y.drops + 1) % 2 ^ 32, overrun := y.overrun || ovr })
  let d2 := if nobuf then ((d1.bump 0 bQm 0x318 1).orCsr 0 bQm 0x150 1).raise0 100 { kind := 8, inst := q }
    else d1.bump 0 bQm 0x310 1
  let d3 := if ovr && !y.overrun then
      d2.qPost q 0x10 (leBytes 4 q ++ leBytes 4 (d.profileOf q).qlimit ++ leBytes 4 (y.occ + y.res) ++ [byte need, 0, 0, 0]) false
    else d2
  d3.answer r .full [] y.occ

/-- Admit an enqueue (R173). -/
def Dev.enqAdmit (d : Dev) (r : Req) (need : Nat) : Dev :=
  let q := r.addr
  let o : OpenEnq := { id := r.id, q := q, len := r.len, need := need, ptn := r.ptn, port := r.port, tag := r.tag
                       posted := r.posted, stamp := r.stamp, ord := r.ord, tc := r.tc, chipid := d.chipOf r
                       dline := r.dline, qwm := (d.profileOf q).qwm, dropLate := r.dropLate, ptr := d.qm.ptrCell, fence := r.fence }
  let np := d.advancePtr need
  (d.modQueue q (fun y => { y with res := y.res + need, full := false })).modQm (fun m => { m with
    opens := m.opens ++ [o], ptrCell := np, cellFree := m.cellFree - need, cellInfl := m.cellInfl + need })

/-- ENQUEUE, decided at its stamp (R173): `h.data` holds the packet bytes of the first flit, which is taken with its header. -/
def Dev.enqueue (d : Dev) (h : ReqHdr) : Dev :=
  let p := d.port h.port
  let first := min h.plen (flitBytes p.gen - 16)
  let left := h.plen - first
  match d.takeReq .enqueue Opc.enqueue.code h with
  | (d1, none) => if p.partner.isSome && h.vc = 2 then d1.expect h.port left none else d1
  | (d1, some r) =>
    let q := r.addr
    let need := ceilDiv r.len 256
    let d2 := d1.qCheck q
    let y := d2.queue q
    if y.frozen then (d2.enqRefuse r false false need).expect h.port left none
    else if (d2.profileOf q).qlimit < y.occ + y.res + need then (d2.enqRefuse r false true need).expect h.port left none
    else if d2.qm.cellFree - d2.quarCells < need then (d2.enqRefuse r true false need).expect h.port left none
    else ((d2.enqAdmit r need).enqFeed r.id (padTo first r.data)).expect h.port left (some r.id)

/-- Descriptors of a packet (R163). -/
def OpenEnq.descs (o : OpenEnq) (linkDt : Nat) : List Desc :=
  o.cells.zipIdx.map (fun c => {
    cell := c.1, sop := c.2 == 0, eop := c.2 + 1 == o.need, cbytes := min 256 (o.len - 256 * c.2), pktlen := o.len, linkDt := linkDt % 2 ^ 32 })

/-- The oldest parked dequeue of a queue whose park end has not passed (R180, R181). -/
def Dev.oldestPark (d : Dev) (q : Nat) : Option Park :=
  let ordOf := fun (p : Park) => match d.req? p.id with | some r => r.ord | none => 0
  (d.qm.parks.filter (fun p => p.q == q && decide (d.dt ≤ p.end_))).foldl
    (fun (b : Option Park) p => match b with
      | none => some p
      | some x => if ordOf p < ordOf x then some p else b) none

/-- Fence of an enqueue: its link waits for every earlier request of the partner (R138). -/
def Dev.enqFenced (d : Dev) (o : OpenEnq) : Bool :=
  o.fence && (d.txn.reqs.any (fun x => x.ptn == o.ptn && decide (x.ord < o.ord) && x.st != .done) ||
    d.qm.opens.any (fun x => x.ptn == o.ptn && decide (x.ord < o.ord)))

/-- Every cell write of an enqueue has landed, and neither a fence nor the queue's order holds its link back (R138, R140, R175). -/
def Dev.enqReady (d : Dev) (o : OpenEnq) : Bool :=
  decide (o.got = o.len) && o.issued == o.need && o.out == 0 && !d.enqFenced o && !d.queueBlocked o.req

/-- Take the units that a packet's descriptors spill and issue their writes, at the request's class (R166, R175, step 2). -/
def Dev.enqSpill (d : Dev) (o : OpenEnq) (groups : List (List Desc)) : Dev :=
  let d0 := (o.spill.foldl (fun (a : Dev) u => a.freeUnit u.1) d).modOpen o.id (fun o => { o with spill := [], spillOut := 0 })
  groups.foldl (fun (a : Dev) ds => match a.takeUnit with
    | none => a
    | some (u, a1) =>
      let w : Access := { for_ := .spill o.id, unit := placeUnit (a1.unitPlace u), kind := .write, bytes := unitBytes ds none, mask := 2 ^ 64 - 1
                          ord := o.ord, stamp := o.stamp, tc := o.tc, chipid := o.chipid, deadline := o.req.deadline, arrive := a1.dt }
      (a1.modTxn (fun t => { t with acc := t.acc ++ [w] })).modOpen o.id (fun o => { o with
        spill := o.spill ++ [(u, ds)], spillOut := o.spillOut + 1 })) d0

/-- The link itself (R175, step 3): counts, descriptors with the link's DT and the links between units, in one step. -/
def Dev.enqJoin (d : Dev) (o : OpenEnq) (sp : Spilled) : Dev :=
  let q := o.q
  let us := (o.spill.map (·.1)).zip sp.out
  let last := (d.queue q).units.getLast?
  let d1 := d.modQueue q (fun y => { y with
    head := sp.head, mid := y.mid ++ us, tail := sp.tail, occ := y.occ + o.need, res := y.res - o.need, pkts := y.pkts + 1 })
  let y := d1.queue q
  let d2 := (if us.isEmpty then [] else last.toList ++ us.map (·.1)).foldl (fun (a : Dev) u => match y.mid.find? (fun e => e.1 == u) with
    | some (_, ds) => a.patchUnit (a.unitPlace u) (unitBytes ds (y.nextOf u))
    | none => a) d1
  (((d2.headWritten q).tailWritten q).modQm (fun m => { m with
    opens := m.opens.filter (fun x => x.id != o.id), cellInfl := m.cellInfl - o.need, cellQueued := m.cellQueued + o.need })).bump 0 bQm 0x300 1

/-- What follows a link: the watermark (R183), the answer (R176), and the oldest parked dequeue (R180). -/
def Dev.enqLinked (d : Dev) (o : OpenEnq) (occ0 : Nat) : Dev :=
  let q := o.q
  let occ := occ0 + o.need
  let d4 : Dev := if (d.queue q).wmArmed && o.qwm != 0 && decide (occ0 < o.qwm) && decide (o.qwm ≤ occ) then
      (d.modQueue q (fun y => { y with wmArmed := false })).qPost q 0x11
        (leBytes 4 q ++ leBytes 4 occ ++ leBytes 4 o.qwm ++ leBytes 4 0 ++ leBytes 8 d.dt) false
    else d
  let d5 := d4.answer o.req .ok [] occ
  if (d5.queue q).frozen then d5
  else match d5.oldestPark q with
    | some p => d5.deqTake p.id
    | none => d5

/-- The earliest admitted enqueue of queue `q` links, or takes and writes the units that its descriptors spill (R166, R175). LINK_DT is put
into the written units at the link (DESIGN CHOICE, log 126: they are written before its DT is known). -/
def Dev.enqFirst (d0 : Dev) (q : Nat) : Dev :=
  match (d0.qm.opens.filter (fun o => o.q == q)).head? with
  | none => d0
  | some o =>
    if !d0.enqReady o || o.spillOut ≠ 0 then d0
    else
      let d := (d0.qCheck q).arb 7 q q 0
      if ((d.queue q).appendAll (o.descs 0)).out = o.spill.map (·.2) then
        (d.enqJoin o ((d.queue q).appendAll (o.descs d.dt))).enqLinked o (d.queue q).occ
      else d.enqSpill o ((d.queue q).appendAll (o.descs 0)).out

/-- ENQUEUE_LINK (R175, R176). -/
def Dev.enqLink (d : Dev) (q : Nat) : Dev :=
  let d0 := (d.qm.opens.foldl (fun (a : Dev) o => if o.q = q then Dev.enqPump 132 a o.id else a) d).enqDrainAll
  d0.enqFirst q

/-- Enqueues of queue `q` stamped before `ord` whose link is due at this DT link first (R181, R184). -/
def Dev.linkDue : Nat → Dev → Nat → Nat → Dev
  | 0, d, _, _ => d
  | k + 1, d, q, ord =>
    match (d.qm.opens.filter (fun o => o.q == q)).head? with
    | some o =>
      if decide (o.ord < ord) && d.enqReady o && o.spillOut == 0 && decide (((d.queue q).appendAll (o.descs 0)).out = o.spill.map (·.2)) then
        Dev.linkDue k (d.enqFirst q) q ord
      else d
    | none => d

/-- Discard an admitted enqueue whose packet cannot complete (R112). -/
def Dev.enqDiscard (d : Dev) (o : OpenEnq) : Dev := if o.posted then d.enqGiveUp o else (d.enqGiveUp o).freeTag o.ptn o.tag

/-! ### Dequeue and status (R172, R177 to R182) -/

/-- A dequeue begins (R177, R180, R182). -/
def Dev.deqBegin (d00 : Dev) (r : Req) : Dev :=
  let q := r.addr
  let d := (Dev.linkDue d00.qm.opens.length d00 q r.ord).qCheck q
  let y := d.queue q
  if y.frozen then d.answer r .empty [] 0
  else if y.occ ≠ 0 then d.deqTake r.id
  else if (d.ptn r.ptn).st == .leaving then d.answer r .empty [] 0
  else match d.parkRoom r.ptn with
    | none => (((d.bump 0 bQm 0x328 1).orCsr 0 bQm 0x150 4).raise0 102 { kind := 8, inst := q }).answer r .empty [] 0
    | some sh =>
      let end_ := match r.deadline with | some e => e | none => r.stamp + 1000 * r.snap.parkUs
      (d.modReq r.id (fun x => { x with st := .parked, begun := true })).modQm (fun m => { m with
        parks := m.parks ++ [{ id := r.id, q := q, ptn := r.ptn, end_ := end_, shared := sh }] })

/-- Admit a request of a queue with what it uses and reports as of its stamp; it begins there unless a fence or an earlier request of the
queue holds it back. -/
def Dev.queueReq (d : Dev) (o : Opc) (h : ReqHdr) (begin_ : Dev → Req → Dev) : Dev :=
  match d.takeReq o o.code h with
  | (d1, none) => d1
  | (d1, some r0) =>
    let r := { r0 with snap := d1.qSnap r0.addr }
    let d2 := d1.modTxn (fun t => { t with reqs := t.reqs ++ [r] })
    if d2.fenceBlocked r || d2.queueBlocked r then d2 else begin_ d2 r

def Dev.dequeue (d : Dev) (h : ReqHdr) : Dev := d.queueReq .dequeue h Dev.deqBegin

/-- PARK_END (R181): the first DT later than the park end. -/
def Dev.parkEnd (d : Dev) (id : Nat) : Dev :=
  match d.qm.parks.find? (fun p => p.id == id) with
  | some p => if p.end_ < d.dt then ((d.arb 7 p.q p.q 0).bump 0 bQm 0x320 1).deqEmpty id else d
  | none => d

/-- The status record of R172 for a request at place `ord`, with what it reports as of its stamp: RES counts the enqueues that stand before it. -/
def Dev.qRecordAt (d : Dev) (q ord : Nat) (s : QSnap) : List Byte :=
  let y := d.queue q
  let res := ((d.qm.opens.filter (fun o => o.q == q && decide (o.ord < ord))).map (·.need)).sum
  let parked := (d.qm.parks.filter (fun x => x.q == q)).length
  let hp := match y.descs with | x :: _ => x.pktlen | [] => 0
  leBytes 4 y.occ ++ leBytes 4 res ++ leBytes 4 y.pkts ++ leBytes 4 s.qlimit ++ leBytes 4 s.qwm ++
    leBytes 4 (b2n s.full + 2 * b2n s.overrun + 4 * b2n y.wmArmed + 8 * b2n y.frozen + 16 * b2n y.headMid +
      256 * s.prof + 65536 * (parked % 32768)) ++
    leBytes 4 s.drops ++ leBytes 4 (headBytes y.descs + 65536 * hp)

/-- The status record as of now. -/
def Dev.qRecord (d : Dev) (q : Nat) : List Byte := d.qRecordAt q d.txn.nextOrd (d.qSnap q)

/-- QSTATUS begins (R172). -/
def Dev.qstatBegin (d : Dev) (r : Req) : Dev :=
  let d1 := (Dev.linkDue d.qm.opens.length d r.addr r.ord).qCheck r.addr
  d1.answer r .ok (d1.qRecordAt r.addr r.ord r.snap) 0

def Dev.qstatus (d : Dev) (h : ReqHdr) : Dev := d.queueReq .qstatus h Dev.qstatBegin

/-! ### Flush and recovery -/

/-- Empty a queue (R184): cells and units return to the pools; the number of cells freed. -/
def Dev.flushQueue (d : Dev) (q : Nat) : Dev × Nat :=
  let y := d.queue q
  let cs := y.descs.map (·.cell)
  let d1 := y.mid.foldl (fun (a : Dev) u => a.freeUnit u.1) d
  let d2 := d1.modQm (fun m => { m with
    cellUsed := m.cellUsed.filter (fun c => !cs.contains c), cellFree := m.cellFree + cs.length, cellQueued := m.cellQueued - cs.length })
  ((((d2.modQueue q (fun y => { y with occ := 0, pkts := 0, headMid := false, head := [], mid := [], tail := [] })).headWritten q).tailWritten
    q).wmRearm q (d.profileOf q).qwm, cs.length)

/-- Descriptor units being written or read: those that an enqueue has taken for its descriptors, and those that a dequeue has yet to read. -/
def Dev.unitsInUse (d : Dev) : List Nat :=
  (d.qm.opens.map (fun o => o.spill.map (·.1))).flatten ++
    (d.txn.acc ++ (d.dram.ch.map (fun c => c.2.rdq)).flatten).filterMap (fun a => match a.for_ with | .refill _ u => some u | _ => none)

/-- QUEUE_RECOVER (R188): empty every frozen queue where what no other holder has equals what they count. Answers the
cells and units returned, or none where the numbers differ. -/
def Dev.recoverQueues (d : Dev) : Option (Nat × Nat × Nat) × Dev :=
  let fz := d.qm.queue.filter (fun q => q.2.frozen)
  let held := ((d.qm.queue.filter (fun q => !q.2.frozen)).map (fun q => q.2.descs.map (·.cell))).flatten ++
    ((d.txn.reqs.filter (fun r => r.opc == .dequeue)).map (fun r => r.cells.map (·.1))).flatten ++ (d.qm.opens.map (·.cells)).flatten
  let uheld := ((d.qm.queue.filter (fun q => !q.2.frozen)).map (fun q => q.2.units)).flatten ++ d.unitsInUse
  let cells := d.qm.cellUsed.filter (fun c => !held.contains c)
  let units := d.qm.unitUsed.filter (fun u => !uheld.contains u)
  let occ := (fz.map (fun q => q.2.occ)).sum
  let slots := (fz.map (fun q => q.2.mid.length)).sum
  if cells.length = occ ∧ units.length = slots then
    let d1 := fz.foldl (fun (a : Dev) q => (a.flushQueue q.1).1.modQueue q.1 (fun y => { y with frozen := false })) d
    -- the stores of the emptied queues are written anew
    let d2 := fz.foldl (fun (a : Dev) q => a.modMem (fun m => { m with sErr := m.sErr.filter (fun e =>
      !(decide (stateBase + 32 * q.1 ≤ e.1 ∧ e.1 < stateBase + 32 * q.1 + 32) ||
        decide (0x1001000000 + 128 * q.1 ≤ e.1 ∧ e.1 < 0x1001000000 + 128 * q.1 + 128))) })) d1
    (some (cells.length, units.length, fz.length), d2)
  else
    let cd : Int := (cells.length : Int) - occ
    (none, d.raise0 1 (if cells.length = occ then { kind := 17, inst := 4, a := 0xFF, c := ofSigned 32 (4 * ((units.length : Int) - slots)) }
      else { kind := 17, inst := 3, a := 0xFF, c := ofSigned 32 cd }))

/-! ### Moving queued data (R185, R186) -/

/-- Put descriptor changes into every part of a queue. -/
def Queue.mapDescs (y : Queue) (f : Desc → Desc) : Queue :=
  { y with head := y.head.map f, mid := y.mid.map (fun u => (u.1, u.2.map f)), tail := y.tail.map f }

/-- A background copy may use both its channels now. -/
def Dev.copySlots (d : Dev) (src dst : Nat) : Bool :=
  d.bgSlot (placeCh src) (bankOf (src % 2 ^ 30)) && d.bgSlot (placeCh dst) (bankOf (dst % 2 ^ 30))

/-- Copy `n` units from `src` to `dst` in the background, an access of each channel (R185, R251); answers whether it is made. -/
def Dev.bgCopy (d : Dev) (src dst n : Nat) : Dev × Bool :=
  (List.range n).foldl (fun (acc : Dev × Bool) j =>
    if acc.2 then acc.1.copyUnit (src + 64 * j) (dst + 64 * j) else acc) ((d.bgAccess src n false).bgAccess dst n true, true)

/-- Write a middle unit anew, whole, with the link in its fourth descriptor (R163, R186). -/
def Dev.rewriteUnit (d : Dev) (q u : Nat) : Dev :=
  let y := d.queue q
  match y.mid.find? (fun e => e.1 == u) with
  | some (_, ds) => d.writeNow (d.unitPlace u) (unitBytes ds (y.nextOf u)) 0 bgChip
  | none => d

/-- A middle unit is read for a move: one that is uncorrectable freezes the queue (R187). -/
def Dev.unitRead (d : Dev) (q u : Nat) : Dev :=
  let (_, bad, d1) := d.readLogical (d.unitPlace u) 3 none
  if bad then d1.freeze q 0 else d1

/-- Move one queued cell of a queue, named by descriptor `x`, to cell `c` (R186); `p` is the rotation's next place. -/
def Dev.moveCell (d0 : Dev) (q : Nat) (x : Desc) (c p : Nat) : Dev :=
  let named := (d0.queue q).mid.find? (fun u => u.2.any (fun e => e.cell == x.cell))
  let d := match named with | some (u, _) => d0.unitRead q u | none => d0
  if (d.queue q).frozen then d
  else
    let r := d.bgCopy (d.cellPlace x.cell) (d.cellPlace c) (ceilDiv x.cbytes 64)
    if !r.2 then r.1
    else
      let d1 := r.1.modQm (fun m => { m with cellUsed := (m.cellUsed.filter (· != x.cell)) ++ [c], ptrCell := p })
      let d2 := d1.modQueue q (fun y => y.mapDescs (fun e => if e.cell = x.cell then { e with cell := c } else e))
      match named with
      | some (u, _) => d2.rewriteUnit q u
      | none => (d2.headWritten q).tailWritten q

/-- Move middle unit `u` of a queue to unit `v`, and relink its predecessor (R186). -/
def Dev.moveUnit (d0 : Dev) (q u v p : Nat) : Dev :=
  let d := match (d0.queue q).prevOf u with
    | some w => (d0.unitRead q u).unitRead q w
    | none => d0.unitRead q u
  if (d.queue q).frozen then d
  else
    let (d1, ok) := d.bgCopy (d.unitPlace u) (d.unitPlace v) 1
    if !ok then d1
    else
      let d2 := (d1.modQm (fun m => { m with unitUsed := (m.unitUsed.filter (· != u)) ++ [v], ptrUnit := p })).modQueue q
        (fun y => { y with mid := y.mid.map (fun e => if e.1 = u then (v, e.2) else e) })
      match (d2.queue q).prevOf v with
      | some w => d2.rewriteUnit q w
      | none => d2

/-- Move one queued cell of queue `q`, or one middle unit, where a free one takes it and the channels have slots for background work. -/
def Dev.moveOne (d0 : Dev) (q : Nat) : Dev :=
  let d := d0.qCheckBy q 3
  let y := d.queue q
  if y.frozen then d
  else match y.descs.find? (fun x => d.cellMoves x.cell) with
    | some x =>
      (match d.rotate d.qm.cellUsed d.qm.ptrCell d.cellLim false with
       | none => d
       | some (c, p) => if d.copySlots (d.cellPlace x.cell) (d.cellPlace c) then d.moveCell q x c p else d)
    | none =>
      match y.mid.find? (fun u => d.unitMoves u.1 && !d.txn.acc.any (fun a => a.unit == placeUnit (d.unitPlace u.1))) with
      | some (u, _) =>
        (match d.rotate d.qm.unitUsed d.qm.ptrUnit d.unitLim false with
         | none => d
         | some (v, p) => if d.copySlots (d.unitPlace u) (d.unitPlace v) then d.moveUnit q u v p else d)
      | none => d

/-- MOVE_DONE (R186): for a pending shrink once no cell or unit lies above it, and for each channel once all of its cells and slots are free. -/
def Dev.movesEnd (d : Dev) : Dev :=
  let d1 := if d.qm.moving && !d.qm.cellUsed.any (fun c => decide (d.cellLim ≤ c)) && !d.qm.unitUsed.any (fun u => decide (d.unitLim ≤ u)) then
      (d.modQm (fun m => { m with moving := false })).orCsr 0 bQm 0x150 8 else d
  (List.range 64).foldl (fun (a : Dev) c =>
    if a.chMoving c && !a.qm.cellUsed.any (fun x => x % 64 == c) && !a.qm.unitUsed.any (fun u => u % 64 == c) then
      (a.modEvac c (fun e => { e with moveDone := true })).orCsr 0 bQm 0x150 8 else a) d1

/-- CELL_MOVE (R185, R186): one move of queue `q`, or the end of the moves. -/
def Dev.cellMove (d : Dev) (q : Nat) : Dev := if d.movesPending then (d.moveOne q).movesEnd else d

end Sys2Proof.Machine
end

