-- ==== Sys2Proof/Machine/Xfer.lean ====
section
/-!
DEFINITION. The transfer engine (R277 to R299): descriptors and their checks, the five operations, chains, stops, and
the transfer requests.
-/
namespace Sys2Proof.Machine

/-! ### Descriptor fields (R278) -/

def xOp (b : List Byte) : Nat := leAt b 0 1 % 16
def xEvt (b : List Byte) : Bool := bit (leAt b 0 1) 4
def xDir (b : List Byte) : Bool := bit (leAt b 0 1) 5
def xTc (b : List Byte) : Nat := leAt b 1 1 % 8
/-- Element widths in bytes. -/
def xWs (b : List Byte) : Nat := 2 ^ bits (leAt b 2 1) 0 3
def xWd (b : List Byte) : Nat := 2 ^ bits (leAt b 2 1) 3 3
def xKlog (b : List Byte) : Nat := leAt b 3 1 % 8
def xN (b : List Byte) : Nat := leAt b 4 4
def xSrc (b : List Byte) : Nat := leAt b 8 5
def xDst (b : List Byte) : Nat := leAt b 16 5
def xIdx (b : List Byte) : Nat := leAt b 24 5
def xPstride (b : List Byte) : Nat := leAt b 40 4
def xUser (b : List Byte) : Nat := leAt b 44 4
def xNext (b : List Byte) : Nat := leAt b 56 5
def xNextV (b : List Byte) : Bool := bit (leAt b 63 1) 7

/-- Widths, fields and limits that R280 allows, with its further conditions; what fails is BAD_DESC. -/
def xWellFormed (b : List Byte) : Bool :=
  let op := xOp b
  let ws := xWs b
  let wd := xWd b
  let n := xN b
  let res := leAt b 0 1 < 64 && leAt b 1 1 < 8 && leAt b 2 1 < 64 && leAt b 3 1 < 8 && leAt b 13 3 == 0 && leAt b 21 3 == 0 &&
    leAt b 29 3 == 0 && leAt b 48 8 == 0 && leAt b 61 2 == 0 && leAt b 63 1 % 128 == 0
  res && decide (op ≤ 4) && decide (1 ≤ n) && decide (ws ≤ 64) && decide (wd ≤ 64) &&
  (op == 3 || op == 4 || !xDir b) && (op == 4 || xKlog b == 0) && (op == 2 || xIdx b == 0) &&
  (match op with
   | 0 => xSrc b % ws == 0 && xDst b % wd == 0
   | 1 => xDst b % wd == 0
   | 2 => xDst b % wd == 0 && xSrc b % ws == 0 && xIdx b % 4 == 0
   | 3 => decide (ws ≤ 8) && wd == 1 && n % 512 == 0 && decide (n / 8 ≤ xPstride b) && xPstride b % 64 == 0 &&
          xSrc b % 64 == 0 && xDst b % 64 == 0
   | _ => ws == wd && decide (1 ≤ xKlog b ∧ xKlog b ≤ 6) && n % 2 ^ xKlog b == 0 && xSrc b % ws == 0 && xDst b % ws == 0)

/-- Byte ranges (address, length) that a descriptor reads and writes. -/
def xSources (b : List Byte) : List (Nat × Nat) :=
  match xOp b with
  | 1 => []
  | 2 => [(xIdx b, 4 * xN b)]
  | 3 => if xDir b then (List.range (8 * xWs b)).map (fun j => (xSrc b + j * xPstride b, xN b / 8)) else [(xSrc b, xN b * xWs b)]
  | _ => [(xSrc b, xN b * xWs b)]

def xDests (b : List Byte) : List (Nat × Nat) :=
  match xOp b with
  | 3 => if xDir b then [(xDst b, xN b * xWs b)] else (List.range (8 * xWs b)).map (fun j => (xDst b + j * xPstride b, xN b / 8))
  | _ => [(xDst b, xN b * xWd b)]

/-- Two byte ranges overlap. -/
def rangesMeet (x y : Nat × Nat) : Bool := decide (x.1 < y.1 + y.2) && decide (y.1 < x.1 + x.2)

/-- Check of a byte range, region by region (R152, R280): ADDR where a byte is unmapped, DENIED where it is refused. -/
def Dev.extentWalk : Nat → Dev → Nat → Nat → Bool → Bool → Option Status
  | 0, _, _, _, _, den => if den then some .denied else none
  | fuel + 1, d, a, e, write, den =>
    if e ≤ a then (if den then some .denied else none)
    else if inQueueStore a then Dev.extentWalk fuel d 0x1002000000 e write true
    else match d.regionAt a with
      | none => some .addr
      | some (_, r) =>
        let no := (r.type != 1 && r.type != 2) || (write && r.wp)
        Dev.extentWalk fuel d (r.start + r.bytes) e write (den || no)

def Dev.extentCheck (d : Dev) (x : Nat × Nat) (write : Bool) : Option Status :=
  if addrRange x.1 ≠ addrRange (x.1 + x.2 - 1) then some .addr else Dev.extentWalk 40 d x.1 (x.1 + x.2) write false

/-- End code of a descriptor that fails a check of R280. -/
def Dev.xCheck (d : Dev) (b : List Byte) : Option Nat :=
  if !xWellFormed b then some 5
  else
    let cs := (xSources b).filterMap (fun x => d.extentCheck x false) ++ (xDests b).filterMap (fun x => d.extentCheck x true)
    if cs.contains .addr then some 6
    else if cs.contains .denied then some 7
    else if (xSources b).any (fun x => (xDests b).any (rangesMeet x)) then some 9
    else none

/-! ### Steps of a descriptor: one destination unit, or one block of 512 elements -/

/-- Number of steps. -/
def xSteps (b : List Byte) : Nat :=
  if xOp b = 3 then xN b / 512 else (xDst b + xN b * xWd b - 1) / 64 - xDst b / 64 + 1

/-- Elements [lo, hi) that destination unit `p` carries. -/
def xElems (b : List Byte) (p : Nat) : Nat × Nat :=
  let u := (xDst b / 64 + p) * 64
  ((u - xDst b) / xWd b, min (xN b) ((u + 64 - xDst b) / xWd b))

/-- Source element that goes to destination element `e` of a SHUFFLE (R283). -/
def xShuffle (b : List Byte) (e : Nat) : Nat :=
  let k := 2 ^ xKlog b
  let run := xN b / k
  if xDir b then e % k * run + e / k else e % run * k + e / run

/-- Bytes of one block of a TRANSPOSE (R282): the units written, by address. -/
def xTranspose (b : List Byte) (p : Nat) (rd : Nat → Byte) : List (Nat × List Byte) :=
  let ws := xWs b
  let nb := 8 * ws
  if xDir b then
    (List.range nb).map (fun u =>
      (xDst b + 512 * ws * p + 64 * u, (List.range 64).map (fun t =>
        let off := 64 * u + t
        let i := off / ws
        let m := off % ws
        byte (maskOf ((List.range 8).filter (fun y => bit ((rd (xSrc b + (8 * m + y) * xPstride b + 64 * p + i / 8)).toNat) (i % 8)))))))
  else
    (List.range nb).map (fun j =>
      (xDst b + j * xPstride b + 64 * p, (List.range 64).map (fun x =>
        byte (maskOf ((List.range 8).filter (fun y => bit ((rd (xSrc b + (512 * p + 8 * x + y) * ws + j / 8)).toNat) (j % 8)))))))

/-- Source units of one block of a TRANSPOSE. -/
def xTransUnits (b : List Byte) (p : Nat) : List Nat :=
  let ws := xWs b
  if xDir b then (List.range (8 * ws)).map (fun j => xSrc b + j * xPstride b + 64 * p)
  else (List.range (8 * ws)).map (fun u => xSrc b + 512 * ws * p + 64 * u)

/-! ### Issuing accesses (R284, R286) -/

/-- Accesses outstanding. -/
def Xc.inflight (c : Xc) : Nat := c.pend + c.wout + ((c.finished.filter (fun f => f.seq != c.seq)).map (·.out)).sum

/-- CHIPID that a channel's accesses are charged to: those of XC31 to no entry. -/
def Dev.xChip (d : Dev) (x : Nat) : Nat := match (d.xc x).owner with | some k => (d.ptn k).chipid | none => bgChip

/-- An access of channel `x`, stamped at its issue (R284), without a deadline (R286). -/
def Dev.xAccess (d : Dev) (x u n : Nat) (k : AccKind) (bs : List Byte) (m : Nat) : Access :=
  { for_ := .xfer x (d.xc x).seq n, unit := u, kind := k, bytes := bs, mask := m, ord := d.txn.nextOrd, stamp := d.dt, tc := xTc (d.xc x).desc
    chipid := d.xChip x, arrive := d.dt }

/-- Issue an access to a DRAM unit. -/
def Dev.xPush (d : Dev) (a : Access) : Dev := d.modTxn (fun t => { t with acc := t.acc ++ [a], nextOrd := t.nextOrd + 1 })

/-- Issue the read of the unit at device address `a`; one of stack SRAM waits for the accesses of earlier stamps (R135). -/
def Dev.xReadIssue (d : Dev) (x a : Nat) : Dev :=
  match d.unitAt a with
  | none => d
  | some u =>
    if inSram (64 * u) then
      (if d.earlier d.txn.nextOrd u then d
       else
         let (bs, bad, d1) := d.readSram (64 * u) 64 5 (d.xc x).owner
         (d1.modXc x (fun c => { c with hold := c.hold ++ [(u, if bad then none else some bs)] })).bump x bXfer 0x48 64)
    else ((d.xPush (d.xAccess x u 0 .read [] 0)).modXc x (fun c => { c with pend := c.pend + 1 })).bump x bXfer 0x48 64

/-- Issue the reads of `as` that are not held, while the channel may have more accesses outstanding and the holding register has room. -/
def Dev.xReads (d : Dev) (x : Nat) (as : List Nat) : Dev :=
  as.foldl (fun (a : Dev) u =>
    let c := a.xc x
    let asked := fun (k : Nat) => (a.txn.acc ++ (a.ch (placeCh (a.phys (64 * k)))).rdq).any (fun y => y.for_ == .xfer x c.seq 0 && y.kind == .read && y.unit == k)
    if decide (c.inflight < a.cfgFld 0 bXfer 0x100 0 7) && decide (c.hold.length + c.pend < 64) &&
        !(match a.unitAt u with | some k => c.hold.any (fun h => h.1 == k) || asked k | none => true)
    then a.xReadIssue x u else a) d

/-- Issue the write of selected bytes of the unit at device address `a`, which carries `n` elements: a whole unit as one, any other with byte
enables. Answers false where it has to wait: for a place among the accesses outstanding, or in stack SRAM for those of earlier stamps. -/
def Dev.xWriteIssue (d : Dev) (x a n : Nat) (bs : List (Nat × Byte)) : Dev × Bool :=
  match d.unitAt a with
  | none => (d, true)
  | some u =>
    if d.cfgFld 0 bXfer 0x100 0 7 ≤ (d.xc x).inflight then (d, false)
    else if inSram (64 * u) then
      (if d.earlier d.txn.nextOrd u then (d, false)
       else (((d.writeSram (64 * u) bs).modXc x (fun c => { c with done := c.doneAt n })).bump x bXfer 0x50 bs.length, true))
    else
      let bytes := (List.range 64).map (fun i => match bs.find? (fun e => e.1 == i) with | some e => e.2 | none => 0)
      let w := d.xAccess x u n (if bs.length = 64 then .write else .rmw) bytes (maskOf (bs.map (·.1)))
      (((d.xPush w).modXc x (fun c => { c with wout := c.wout + 1 })).bump x bXfer 0x50 bs.length, true)

/-! ### One step: one destination unit -/

/-- A unit in the holding register, by device address: absent, uncorrectable, or its bytes. -/
def Dev.xHeld (d : Dev) (x a : Nat) : Option (Option (List Byte)) :=
  match d.unitAt a with
  | some u => ((d.xc x).hold.find? (fun h => h.1 == u)).map (·.2)
  | none => none

/-- Units that must be read first for elements [lo, hi): indexes for GATHER, else the source elements. -/
def xNeeds (b : List Byte) (lo hi : Nat) : List Nat :=
  ((List.range (hi - lo)).filterMap (fun i => match xOp b with
    | 0 => some ((xSrc b + (lo + i) * xWs b) / 64 * 64)
    | 1 => none
    | 2 => some ((xIdx b + 4 * (lo + i)) / 64 * 64)
    | _ => some ((xSrc b + xShuffle b (lo + i) * xWs b) / 64 * 64))).eraseDups

/-- The same for step `p`. -/
def stepNeeds (b : List Byte) (p : Nat) : List Nat := xNeeds b (xElems b p).1 (xElems b p).2

/-- End code of a GATHER element at address `a` (R280, R293). -/
def Dev.xGatherCheck (d : Dev) (b : List Byte) (a : Nat) : Option Nat :=
  match d.extentCheck (a, xWs b) false with
  | some .addr => some 6
  | some _ => some 7
  | none => if rangesMeet (a, xWs b) (xDst b, xN b * xWd b) then some 9 else none

/-- The indexes of a GATHER step, from the units held: those before the first that is uncorrectable. -/
def Dev.xIndexes (d : Dev) (x lo hi : Nat) : List Nat :=
  let b := (d.xc x).desc
  ((List.range (hi - lo)).map (fun i =>
    let a := xIdx b + 4 * (lo + i)
    match d.xHeld x (a / 64 * 64) with
    | some (some bs) => some (leAt bs (a % 64) 4)
    | _ => none)).takeWhile (·.isSome) |>.map (·.getD 0)

/-- Source address of element `e`; of GATHER, from the indexes read. -/
def Xc.srcOf (c : Xc) (lo e : Nat) : Nat :=
  let b := c.desc
  match xOp b with
  | 0 => xSrc b + e * xWs b
  | 2 => xSrc b + ((c.idx.getD []).getD (e - lo) 0) * xWs b
  | _ => xSrc b + xShuffle b e * xWs b

/-- Value of destination element `e`, the end code that stops the descriptor at it, or none while its unit is not held (R281, R283, R285). -/
def Dev.xElem (d : Dev) (x lo e : Nat) : Option (List Byte ⊕ Nat) :=
  let c := d.xc x
  let b := c.desc
  if xOp b = 1 then some (.inl ((List.range (xWd b)).map (fun j => b.getD (32 + j % 8) 0)))
  else if xOp b = 2 && decide ((c.idx.getD []).length ≤ e - lo) then some (.inr 8)
  else
    let a := c.srcOf lo e
    match (if xOp b = 2 then d.xGatherCheck b a else none) with
    | some code => some (.inr code)
    | none => match d.xHeld x (a / 64 * 64) with
      | none => none
      | some none => some (.inr 8)
      | some (some bs) => some (.inl (padTo (xWd b) (slice bs (a % 64) (xWs b))))

/-- Values of elements up to the first that fails or is not held, and the end code of one that fails. -/
def Dev.xValues (d : Dev) (x lo : Nat) : Nat → Nat → List (List Byte) → List (List Byte) × Option Nat
  | 0, _, acc => (acc, none)
  | n + 1, e, acc => match d.xElem x lo e with
    | some (.inl v) => d.xValues x lo n (e + 1) (acc ++ [v])
    | some (.inr code) => (acc, some code)
    | none => (acc, none)

/-- The last write of a descriptor has been issued: its completion follows in chain order (R287). -/
def Dev.xLast (d : Dev) (x : Nat) : Dev :=
  d.modXc x (fun c => { c with
    ph := if c.st == .draining then .stop else .link
    finished := c.finished ++ [{ seq := c.seq, addr := c.cur, user := xUser c.desc, evt := xEvt c.desc }] })

/-- The step is issued: the next one begins, keeping the units that it needs too. -/
def Dev.xNextStep (d : Dev) (x : Nat) : Dev :=
  let c := d.xc x
  let keep := (stepNeeds c.desc (c.pos + 1)).filterMap d.unitAt
  let d1 := d.modXc x (fun c => { c with pos := c.pos + 1, idx := none, sub := 0, hold := c.hold.filter (fun h => xOp c.desc != 3 && keep.contains h.1) })
  if c.pos + 1 = xSteps c.desc then d1.xLast x else d1

/-- STOPPED and RELEASED let no new read be issued (R293). -/
def Xc.noReads (c : Xc) : Bool := c.st == .draining && (c.code == 1 || c.code == 2)

/-- One step of COPY, FILL, GATHER or SHUFFLE: its reads, then its write with the elements before the first that fails. -/
def Dev.xMove (d : Dev) (x : Nat) : Dev :=
  let c := d.xc x
  let b := c.desc
  let (lo, hi) := xElems b c.pos
  -- reads first: the indexes of a GATHER before its elements
  let d1 := if c.noReads then d
    else if xOp b = 2 && c.idx.isNone then d.xReads x (xNeeds b lo hi)
    else if xOp b = 2 then d.xReads x (((List.range (c.idx.getD []).length).map (fun i => c.srcOf lo (lo + i))).takeWhile (fun a => (d.xGatherCheck b a).isNone) |>.map
      (fun a => a / 64 * 64)).eraseDups
    else d.xReads x (xNeeds b lo hi)
  let c1 := d1.xc x
  if c1.pend ≠ 0 then d1
  else if xOp b = 2 && c1.idx.isNone && (xNeeds b lo hi).all (fun a => (d1.xHeld x a).isSome) then
    (let keep := (stepNeeds b (c.pos + 1)).filterMap d.unitAt
     let kept := c1.hold.filter (fun h => keep.contains h.1)
     d1.modXc x (fun c => { c with idx := some (d1.xIndexes x lo hi), hold := if kept.length + (hi - lo) ≤ 64 then kept else [] }))
  else if xOp b = 2 && c1.idx.isNone then (if c1.noReads then d1.modXc x (fun c => { c with ph := .stop }) else d1)
  else
    let (vs, fail) := d1.xValues x lo (hi - lo) lo []
    if vs.length < hi - lo && fail.isNone && !c1.noReads then d1
    else
      let u := (xDst b / 64 + c1.pos) * 64
      let bs := vs.flatten.zipIdx.map (fun e => (xDst b + lo * xWd b - u + e.2, e.1))
      -- STOPPED and RELEASED write what has been read
      let none_ := bs.isEmpty || (c1.noReads && xOp b == 1)
      let (d2, ok) := if none_ then (d1, true) else d1.xWriteIssue x u vs.length bs
      if !ok then d2
      else if c1.noReads then d2.modXc x (fun c => { c with ph := .stop })
      else match fail with
        | some code => d2.xFail x code
        | none => d2.xNextStep x

/-- One step of TRANSPOSE: the block's units are read, then written one by one; a block begins once the one before has landed. -/
def Dev.xMoveBlock (d : Dev) (x : Nat) : Dev :=
  let c := d.xc x
  let b := c.desc
  let src := xTransUnits b c.pos
  if c.sub = 0 && c.wout ≠ 0 then d
  else
    let d1 := if c.noReads || c.sub ≠ 0 then d else d.xReads x src
    let held := src.map (fun a => d1.xHeld x a)
    if (d1.xc x).pend ≠ 0 then d1
    else if held.contains none then (if c.noReads then d1.modXc x (fun c => { c with ph := .stop }) else d1)
    else if held.contains (some none) then d1.xFail x 8
    else
      let rd := fun a => match d1.xHeld x (a / 64 * 64) with
        | some (some bs) => bs.getD (a % 64) 0
        | _ => 0
      let us := xTranspose b c.pos rd
      let r := (us.drop c.sub).foldl (fun (acc : Dev × Bool × Nat) u =>
        if !acc.2.1 then acc
        else
          let w := acc.1.xWriteIssue x u.1 0 (offsets u.2)
          (w.1, w.2, acc.2.2 + b2n w.2)) (d1, true, c.sub)
      let d2 := r.1.modXc x (fun c => { c with sub := r.2.2 })
      if r.2.2 < us.length then d2
      else
        let d3 := d2.xNextStep x
        d3.modXc x (fun c => { c with ph := if c.noReads then .stop else c.ph, done := if c.wout = 0 then c.pos else c.done })

/-- A step of the descriptor in progress (R284); XC31 copies by BLOCK_SWITCH. -/
def Dev.xStep (d : Dev) (x : Nat) : Dev :=
  let c := d.xc x
  if c.ph != .moving || !(c.st == .run || c.st == .draining) || x = 31 then d
  else if xOp c.desc = 3 then d.xMoveBlock x else d.xMove x

/-! ### Descriptors and chains (R279, R280, R287, R288) -/

/-- A descriptor's unit has an access of an earlier stamp still to come, which the channel's read must follow (R135, R288). -/
def Dev.xDescHeld (d : Dev) (x : Nat) : Bool :=
  x != 31 && (match d.placeAt (d.xc x).cur with
    | some (_, p) => d.earlier d.txn.nextOrd (placeUnit p)
    | none => false)

/-- Read a channel's descriptor: from stack SRAM, and that of XC31 over Heartwood's private bus (R279). -/
def Dev.xDescRead (d : Dev) (x : Nat) : List Byte × Bool × Dev :=
  let c := d.xc x
  if x = 31 then (padTo 64 (tabGet (fun _ => []) d.xfer.hwDesc c.cur), false, d.bump x bXfer 0x48 64)
  else
    let (bs, bad, d1) := d.readSram c.cur 64 5 c.owner
    (bs, bad, d1.bump x bXfer 0x48 64)

/-- Read the link field of the last descriptor (R288, R290). -/
def Dev.xLink (d : Dev) (x : Nat) : Dev :=
  let c := d.xc x
  let (bs, bad, d2) := d.xDescRead x
  if bad then d2.xFail x 0xA
  else if xNextV bs then
    (let d3 := d2.modXc x (fun c => { c with st := .run, ph := .fetch, cur := xNext bs, waitAt := none })
     if c.st == .chainWait then (d3.bump x bXfer 0x60 1).orCsr x bXfer 0x24 4 else d3)
  else if c.st == .chainWait then d2
  else (d2.modXc x (fun c => { c with st := .chainWait, ph := .link, waitAt := some (d.dt + 1000) })).orCsr x bXfer 0x24 2

/-- A descriptor address is valid (R277, R278); for XC31, an offset into Heartwood's private SRAM of 1 MiB (R279, R298). -/
def Dev.xAddrOk (d : Dev) (x a : Nat) : Bool :=
  a % 64 == 0 && (if x = 31 then decide (a < mib) else match d.regionAt a with
    | some (_, r) => r.sram && (r.type == 1 || r.type == 2) && !inQueueStore a
    | none => false)

/-- End code of a descriptor of XC31 that fails a check (R279, R280): its extents are places of channel storage, in any region of R151. -/
def Dev.xCheck31 (d : Dev) (b : List Byte) : Option Nat :=
  if !xWellFormed b || xOp b != 0 then some 5
  else
    let out := fun (p : Nat) => decide (2 ^ 36 ≤ p) || [0, 6].contains (d.bandType (p % 2 ^ 30))
    if out (xSrc b) || out (xDst b) then some 6
    else if rangesMeet (xSrc b, xN b * xWs b) (xDst b, xN b * xWd b) then some 9 else none

/-- DESC_FETCH (R280): the descriptor before it leaves the holding register with its writes still outstanding. -/
def Dev.xFetch (d : Dev) (x : Nat) : Dev :=
  let c := d.xc x
  if c.st != .run || c.ph != .fetch then d
  else if !d.xAddrOk x c.cur then d.xFail x 6
  else if d.xDescHeld x then d
  else
    let d0 := d.modXc x (fun c => { c with
      finished := c.finished.map (fun f => if f.seq = c.seq then { f with out := c.wout } else f)
      seq := c.seq + 1, wout := 0, pos := 0, done := 0, sub := 0, idx := none, hold := [] })
    let (bs, bad, d2) := d0.xDescRead x
    if bad then d2.xFail x 0xA
    else match (if x = 31 then d2.xCheck31 bs else d2.xCheck bs) with
      | some code => d2.xFail x code
      | none => d2.modXc x (fun c => { c with ph := .moving, desc := bs })

/-- DESC_COMPLETE (R287): the earliest descriptor whose accesses are issued, once they have landed. -/
def Dev.xComplete (d : Dev) (x : Nat) : Dev :=
  let c := d.xc x
  match c.finished with
  | [] => d
  | f :: t =>
    if (if f.seq = c.seq then c.wout + c.pend else f.out) ≠ 0 then d
    else
      let d1 := (d.modXc x (fun c => { c with finished := t })).modTxn (fun u => { u with comps := u.comps ++ [{ src := 68 + x, ref := .desc x }] })
      let d2 := (d1.bump x bXfer 0x40 1).orCsr x bXfer 0x24 1
      match c.owner with
      | some k =>
        if f.evt && !c.silent then
          d2.post k 0x20 ([byte x] ++ List.replicate 7 0 ++ leBytes 5 f.addr ++ List.replicate 3 0 ++ leBytes 4 f.user ++ leBytes 4 0 ++ leBytes 8 d.dt)
        else d2
      | none => d2

/-- Answer the requests held until the channel is IDLE or FREE. -/
def Dev.xAnswerHeld (d : Dev) (ids : List Nat) : Dev :=
  ids.foldl (fun (a : Dev) id => match a.req? id with
    | some r => a.answer r .ok [] 0
    | none => a) d

/-- XFER_DRAIN_COMPLETE (R292, R293): nothing is left to issue or complete. -/
def Dev.xDrained (d : Dev) (x : Nat) : Dev :=
  let c := d.xc x
  if c.st != .draining || c.ph == .moving || !c.finished.isEmpty || c.inflight != 0 then d
  else
    let d1 := d.modXc x (fun c => { c with
      st := if c.release || c.silent then .free else .idle
      owner := if c.release || c.silent then none else c.owner
      heldReq := [], release := false, silent := false, ph := .fetch, hold := [], idx := none })
    let d2 : Dev := match c.owner with
      | some k =>
        if c.silent then d1
        else (d1.post k 0x21 ([byte x, byte c.code] ++ List.replicate 6 0 ++ leBytes 5 c.cur ++ List.replicate 3 0 ++ leBytes 4 c.done)).orCsr x bXfer 0x24 8
      | none => d1
    d2.xAnswerHeld c.heldReq

/-! ### Transfer requests (R277, R292) -/

/-- A transfer request of an earlier place waits to begin (R140). -/
def Dev.xferBlocked (d : Dev) (r : Req) : Bool :=
  d.txn.reqs.any (fun x => (x.opc == .xferClaim || x.opc == .xferStart || x.opc == .xferAppend || x.opc == .xferStop || x.opc == .xferRelease) &&
    x.addr == r.addr && decide (x.ord < r.ord) && x.st == .waiting)

/-- A transfer request begins. -/
def Dev.xferBegin (d00 : Dev) (r : Req) : Dev :=
  let x := r.addr
  let d := d00.arb 8 x x 0
  let c := d.xc x
  let mine := c.owner == some r.ptn
  let hold := fun (d : Dev) => (d.modReq r.id (fun q => { q with st := .issued })).modXc x (fun c => { c with heldReq := c.heldReq ++ [r.id] })
  match r.opc with
  | .xferClaim =>
    if mine then d.answer r .ok [] 0
    else if c.st == .free && x != 31 then
      (d.modXc x (fun c => { c with st := .idle, owner := some r.ptn })).answer r .ok [] 0
    else d.answer r .busy [] 0
  | .xferStart =>
    if !mine then d.answer r .notOwner [] 0
    else if c.st != .idle then d.answer r .busy [] 0
    else
      let a := leAt r.data 0 8
      if d.xAddrOk x a then
        (d.modXc x (fun c => { c with st := .run, ph := .fetch, cur := a })).answer r .ok [] 0
      else d.answer r .addr [] 0
  | .xferAppend =>
    if !mine then d.answer r .notOwner [] 0
    else if c.st == .chainWait then (if d.xDescHeld x then d00 else ((d.modXc x (fun c => { c with waitAt := if due c.waitAt d.dt then none else c.waitAt })).xLink x).answer r .ok [] 0)
    else (d.bump x bXfer 0x58 1).answer r .ok [] 0
  | .xferStop =>
    if !mine then d.answer r .notOwner [] 0
    else if c.st == .idle then d.answer r .ok [] 0
    else hold (d.xStop x 1)
  | _ =>
    if !mine then d.answer r .notOwner [] 0
    else if c.st == .idle then (d.modXc x (fun c => { c with st := .free, owner := none })).answer r .ok [] 0
    else hold ((d.xStop x 2).modXc x (fun c => { c with release := true }))

/-- Take a transfer request. -/
def Dev.xferReq (d : Dev) (o : Opc) (h : ReqHdr) : Dev :=
  match d.takeReq o o.code h with
  | (d1, none) => d1
  | (d1, some r) =>
    let d2 := d1.modTxn (fun t => { t with reqs := t.reqs ++ [r] })
    if d2.fenceBlocked r || d2.xferBlocked r then d2 else d2.xferBegin r

/-- Stop every partner-owned channel in RUN or CHAIN_WAIT (R294, R111). -/
def Dev.xStopAll (d : Dev) (code : Nat) (own : Nat → Bool) : Dev :=
  (List.range 31).foldl (fun (a : Dev) x => match (a.xc x).owner with
    | some k => if own k then a.xStop x code else a
    | none => a) d

/-- The owner enters RECLAIM (R112, R292): its channels become FREE once their writes land, without an event. -/
def Dev.xReclaim (d : Dev) (k : Nat) : Dev :=
  (List.range 31).foldl (fun (a : Dev) x =>
    let c := a.xc x
    if c.owner == some k then (fun (a : Dev) => a.arb 8 x x 0)
      (if c.st == .idle then a.modXc x (fun c => { c with st := .free, owner := none })
       else (a.xStop x c.code).modXc x (fun c => { c with st := .draining, ph := .stop, silent := true, heldReq := [] }))
    else a) d

end Sys2Proof.Machine
end

