-- ==== Sys2Proof/Machine/Evac.lean ====
section
/-!
DEFINITION. Evacuation on XC31 and retirement (R159 to R161, R296, R437 to R440), with the TOTALS and AVAIL events of R14
and R19.
-/
namespace Sys2Proof.Machine

/-- TOTALS to every mailbox owner present (R14, R312): cause 0 entry to SERVICE, 1 commit, 2 retirement. -/
def Dev.totalsEvent (d : Dev) (cause : Nat) (dc ds : Int) : Dev :=
  d.postAll d.owners 0x41 ([byte cause, 0, 0, 0] ++ leBytes 4 d.qm.cellTotal ++ leBytes 4 d.qm.descTotal ++ leBytes 2 512 ++ [0, 0] ++
    leBytes 4 (ofSigned 32 dc) ++ leBytes 4 (ofSigned 32 ds))

/-- A free EVAC block, on the next channel of the rotation that is neither DEGRADED nor RETIRED: block and next channel. -/
def Dev.evacTarget (d : Dev) (ptr : Nat) : Option (Nat × Nat) :=
  let base := (imgRegionOfType d.image 5).base * 256
  (List.range 64).findSome? (fun i =>
    let c := (ptr + i) % 64
    if d.retired c || d.chQuar c then none
    else
      let used := d.evacUsedOn c
      (((List.range (min (used.length + 1) d.evacSlice)).map (fun j => c * 262144 + base + j)).find? (fun b => !used.contains b)).map
        (fun b => (b, (c + 1) % 64)))

/-- Blocks the evacuation of a channel has still to move: valid RAW and TABLE blocks (R437), then evacuated data of other
channels that its EVAC slice holds. A pair gives the block and where it is now. -/
def Dev.evacWork (d : Dev) (c : Nat) : List (Nat × Nat) :=
  ((d.evacBlocks c).map (fun b => (b, b))) ++
    (d.mem.evac.filterMap (fun e => if (e.2 - 1) / 262144 = c then some (e.1, e.2 - 1) else none))

/-- The channel being evacuated. -/
def Dev.evacuating (d : Dev) : Option Nat := (List.range 64).find? (fun c => (d.evacOf c).run)

/-- A COPY descriptor of one block (R278, R296): SRC and DST are places of channel storage, 2^30 × channel + offset (DESIGN CHOICE, log 127:
a block of one channel has no range of device addresses). -/
def copyDesc (src dst : Nat) : List Byte :=
  [0, 0, 54, 0] ++ leBytes 4 64 ++ leBytes 5 src ++ [0, 0, 0] ++ leBytes 5 dst ++ List.replicate 43 0

/-- Firmware writes the descriptor of the next block to be copied, behind the one in force, and links it where there is one (R279, R289). -/
def Dev.evacDesc (d : Dev) (c : Nat) (link : Bool) : Option Dev :=
  match d.evacWork c with
  | [] => none
  | (_, now) :: _ =>
    match d.evacTarget d.xfer.evacPtr with
    | none => none
    | some (t, p) =>
      let cur := (d.xc 31).cur
      let next := if link then (cur + 64) % mib else cur
      let put := fun (h : Tab (List Byte)) a (bs : List Byte) => tabSet (fun _ => ([] : List Byte)) h a bs
      let h1 := put d.xfer.hwDesc next (copyDesc (4096 * now) (4096 * t))
      let h2 := if link then put h1 cur (overlay (padTo 64 (tabGet (fun _ => []) h1 cur)) 56 (leBytes 5 next ++ [0, 0, 0x80])) else h1
      some { d with xfer := { d.xfer with hwDesc := h2, evacPtr := p } }

/-- EVACUATION_START (R296): one channel at a time. Firmware writes the first descriptor and starts XC31. -/
def Dev.evacStart (d : Dev) (c : Nat) : Dev :=
  if (d.evacOf c).want && d.evacuating.isNone && !d.retired c && d.chQuar c then
    let d1 := d.modEvac c (fun e => { e with run := true, trig := none, total := max e.total (e.done + (d.evacWork c).length) })
    match d1.evacDesc c false with
    | some d2 => d2.modXc 31 (fun x => { x with st := .run, ph := .fetch })
    | none => d1
  else d

/-- The evacuation of a channel has nothing left to move: firmware stops XC31. -/
def Dev.evacStop (d : Dev) (c : Nat) : Dev :=
  if (d.evacOf c).run then
    (d.modEvac c (fun e => { e with run := false, stuck := false })).modXc 31 (fun x => { x with
      st := .idle, ph := .fetch, waitAt := none, code := if x.st == .idle then x.code else 1 })
  else d.modEvac c (fun e => { e with stuck := false })

/-- The last byte of a channel's RAW and TABLE slices, as a channel offset. -/
def Dev.sliceEnd (d : Dev) : Nat :=
  ((imgRegions d.image).filter (fun r => !r.2.sram && (r.2.type == 1 || r.2.type == 2))).foldl (fun m r => max m ((r.2.base + r.2.size) * mib)) 0 - 1

/-- Evacuation stops at a block (R438): FS182 names the channel and the range from that block to the end of its slices, in
channel offsets. -/
def Dev.evacStuck (d : Dev) (c b : Nat) : Dev :=
  if (d.evacOf c).stuck then d
  else
    ((d.modEvac c (fun e => { e with stuck := true })).raise0 182 { kind := 5, inst := c, a := b % 262144 * 4096, b := d.sliceEnd }).orCsr
      0 bGraft 0x320 4

/-- Every access to block `b` stamped so far has been performed: those that come after use its new place (R160). -/
def Dev.blockQuiet (d : Dev) (b now : Nat) : Bool :=
  let x := d.ch (now / 262144)
  let inB := fun (u : Nat) => placeBlk (64 * u) == b
  !(x.rdq ++ x.wrq ++ d.txn.acc).any (fun a => inB a.unit) &&
    !d.txn.reqs.any (fun r => (r.unitsLeft d).any inB || (List.range 64).any (fun i => r.walkReach d (64 * b + i)))

/-- Copy a block in the background, row by row of each channel (R296), under the poison rule of R251. -/
def Dev.blockCopy (d : Dev) (now t : Nat) : Dev × Bool :=
  let d1 := (List.range 8).foldl (fun (a : Dev) j => (a.bgAccess (now * 4096 + 512 * j) 8 false).bgAccess (t * 4096 + 512 * j) 8 true) d
  (List.range 64).foldl (fun (acc : Dev × Bool) i =>
    if acc.2 then acc.1.copyUnit (now * 4096 + 64 * i) (t * 4096 + 64 * i) else acc) (d1, true)

/-- XC31 reads its link field, or its descriptor, where it stands at one of them: firmware has linked the next block, if one has room. -/
def Dev.evacReady (d : Dev) (c : Nat) : Dev :=
  let x := d.xc 31
  let d1 :=
    if x.st == .idle then (match d.evacDesc c false with
      | some d1 => d1.modXc 31 (fun y => { y with st := .run, ph := .fetch })
      | none => d)
    else if x.ph == .link then (match d.evacDesc c true with | some d1 => d1.xLink 31 | none => d)
    else d
  if (d1.xc 31).ph == .fetch then d1.xFetch 31 else d1

/-- BLOCK_SWITCH (R160, R296): the block of XC31's descriptor is copied and switched to its new place in one step; a descriptor whose block has
gone, or whose target is no longer free, ends without a copy. A block without a target stops the evacuation there (R438). -/
def Dev.blockSwitch (d00 : Dev) : Dev :=
  match d00.evacuating with
  | none => d00
  | some c =>
    if !(d00.clk.mode == .service || d00.clk.mode == .drain || d00.clk.mode == .maint) then d00
    else match d00.evacWork c with
      | [] => d00.evacStop c
      | (first, _) :: _ =>
        let d := d00.evacReady c
        let x := d.xc 31
        let t := xDst x.desc / 4096
        if x.st != .run || x.ph != .moving then (if (d.evacTarget d.xfer.evacPtr).isNone then d.evacStuck c first else d)
        else match (d.evacWork c).find? (fun w => 4096 * w.2 == xSrc x.desc) with
        | none => d.xLast 31
        | some (b, now) =>
        if (d.evacUsedOn (t / 262144)).contains t || d.chQuar (t / 262144) || d.retired (t / 262144) then d.xLast 31
        else if !d.blockQuiet b now || !d.copySlots (4096 * now) (4096 * t) then d
        else
          let r := d.blockCopy now t
          if !r.2 then r.1.evacStuck c b
          else
            let d1 := r.1.modMem (fun m => { m with
              evac := tabSet (fun _ => 0) m.evac b (t + 1)
              blkValid := tabSet (fun _ => false) m.blkValid now false
              poison := m.poison.filter (fun u => u / 64 != now) })
            let d2 := ((d1.modEvac c (fun e => { e with done := e.done + 1, stuck := false })).modXc 31 (fun x => { x with done := 64 })).bump 0 bGraft 0x398 1
            let d3 := Dev.reserveReport d ((d2.xLast 31).bump 31 bXfer 0x50 4096)
            if (d3.evacWork c).isEmpty then d3.evacStop c else d3

/-- RAW and TABLE blocks of a channel that nothing redirects and that are not LOST. -/
def Dev.slicesLeft (d : Dev) (c : Nat) : List Nat :=
  let bands := (imgRegions d.image).filter (fun r => !r.2.sram && (r.2.type == 1 || r.2.type == 2))
  let blocks := (bands.map (fun r => (List.range (r.2.size * 256)).map (fun i => c * 262144 + r.2.base * 256 + i))).flatten
  blocks.filter (fun b => tabGet (fun _ => 0) d.mem.evac b == 0 && !d.mem.lost.contains b)

/-- The reserve holds the rest of a channel's RAW and TABLE slices (R161). -/
def Dev.reserveHolds (d : Dev) (c : Nat) : Bool :=
  decide ((d.slicesLeft c).length ≤
    ((List.range 64).map (fun k => if k = c || d.retired k || d.chQuar k then 0 else d.evacSlice - (d.evacUsedOn k).length)).sum)

/-- Map the blocks of a retired channel that nothing redirects to free EVAC blocks, which read as zero; those without
room are LOST, with FS182 (R159, R440). -/
def Dev.mapRetired (d : Dev) (c : Nat) : Dev :=
  let r := (d.slicesLeft c).foldl (fun (acc : Dev × Nat × List Nat) b =>
    match acc.1.evacTarget acc.2.1 with
    | some (t, p) => (acc.1.modMem (fun m => { m with evac := tabSet (fun _ => 0) m.evac b (t + 1) }), p, acc.2.2)
    | none => (acc.1, acc.2.1, acc.2.2 ++ [b])) (d, d.xfer.evacPtr, [])
  let d1 := { r.1 with xfer := { r.1.xfer with evacPtr := r.2.1 } }
  match r.2.2 with
  | [] => d1
  | b :: _ =>
    ((d1.modMem (fun m => { m with lost := m.lost ++ r.2.2 })).raise0 182
      { kind := 5, inst := c, a := b % 262144 * 4096, b := (r.2.2.foldl max b) % 262144 * 4096 + 4095 }).orCsr 0 bGraft 0x320 4

/-- The conditions of R437 for retirement hold; of a failed channel its last cell and unit must be free (R439). -/
def Dev.mayRetire (d : Dev) (c : Nat) : Bool :=
  (d.ch c).st == .degraded && (d.evacWork c).isEmpty && ((d.evacOf c).moveDone || (d.ch c).failed) &&
    !d.qm.cellUsed.any (fun x => x % 64 == c) && !d.qm.unitUsed.any (fun x => x % 64 == c)

/-- CHANNEL_RETIREMENT (R437), once the reserve holds the channel's slices (R161, R438). -/
def Dev.retire (d : Dev) (c : Nat) : Dev :=
  if !d.mayRetire c then d
  else if !d.reserveHolds c then (match d.slicesLeft c with | b :: _ => d.evacStuck c b | [] => d)
  else
    let cells := (imgRegionOfType d.image 3).size * 4096
    let slots := (imgRegionOfType d.image 4).size * 16384 * 4
    let d1 := (d.evacStop c).modEvac c (fun e => { e with want := false })
    let d2 := d1.modCh c (fun x => { x with st := .retired, gap := none, sr := none })
    let d3 := d2.mapRetired c
    let d4 := d3.modQm (fun q => { q with
      cellTotal := q.cellTotal - cells, cellFree := q.cellFree - cells, descTotal := q.descTotal - slots, descFree := q.descFree - slots })
    let d5 := ((d4.raise0 183 { kind := 5, inst := c }).orCsr 0 bGraft 0x320 8).bump 0 bGraft 0x390 1
    Dev.reserveReport d ((d5.totalsEvent 2 (-(cells : Int)) (-(slots : Int))).repairDue)

/-! ### Result collector -/

/-- RESULT_COMPLETE (R215): a transfer channel issues its next step; a source that has completed claims a slot. -/
def Dev.resultComplete (d : Dev) (src : Nat) : Dev :=
  let d1 := if 68 ≤ src ∧ src < 100 ∧ !d.txn.comps.any (fun c => c.src == src && c.slot == .none) then d.xStep (src - 68) else d
  (d1.claim src).freeCtx

/-- Deliver one completion. -/
def Dev.deliver (d : Dev) (c : Comp) : Dev :=
  let d1 := (d.modTxn (fun t => { t with comps := t.comps.erase c })).bump 0 bSlalom 0x140 1
  match c.ref with
  | .frag id f => d1.deliverFrag id f
  | .table id => d1.tableDeliver id
  | .desc _ | .own _ => d1

/-- COLLECTOR_PASS (R216): from the start source on, at most one completion of each source that held one as the pass
began; then the completions held back claim the slots freed. -/
def Dev.collectorPass (d : Dev) : Dev :=
  let s := d.sla.passStart
  let order := (List.range 101).map (fun i => (s + i) % 101)
  let d1 := d.tele 2 ([byte s, 0, 0, 0] ++ leBytes 4 d.sla.passDelivered ++ List.replicate 8 0)
  let pick := order.filterMap (fun x => d.txn.comps.find? (fun c => c.src == x && c.slot != .none))
  let d2 := pick.foldl (fun a c => a.deliver c) d1
  let d3 := { d2 with sla := { d2.sla with passStart := (s + 1) % 101, passDelivered := pick.length } }
  let d4 := order.foldl (fun (a : Dev) x => if a.txn.comps.any (fun c => c.src == x && c.slot == .none && c.waited) then a.claim x else a) d3
  d4.freeCtx

end Sys2Proof.Machine
end

