-- ==== Sys2Proof/Machine/LaneBase.lean ====
section
/-!
DEFINITION. The lane state machine (R43 to R63) as transitions of one lane, without what the link layer makes of them, and what
a lane sends and takes in: its scrambler, its frames and its training frames.
-/
namespace Sys2Proof.Machine

/-- A path may write fields other than selects and TELEM.SNAP (R475): not a partner, and not JTAG in END. -/
def Dev.mayWrite (d : Dev) (p : Path) : Bool :=
  match p with
  | .partner _ => false
  | .jtag => d.otp.lc != .ended
  | _ => true

/-- Clause of an octet (R43), and its symbol rate class. -/
def Dev.clauseOf (d : Dev) (o : Nat) : Nat := d.cfgFld (8 * o) bLane 0x10 0 3
def clausePam4 (c : Nat) : Bool := c == 1 || c == 2 || c == 3
/-- Frame time in units of 0.1 ns (R49). -/
def frame10 (c : Nat) : Nat := if c = 3 then 1024 else if c = 4 then 2048 else 512
/-- Number of the frame that an octet sends now, counted on its grid (R497). -/
def Dev.frameNo (d : Dev) (o : Nat) : Nat := (10 * d.dt + (d.oct o).grid) / frame10 (d.clauseOf o)

/-- LANE_CTRL of a lane. -/
def Dev.laneCtrl (d : Dev) (l : Nat) : Word := d.csrAt l bLane 0x20
def Dev.laneEnabled (d : Dev) (l : Nat) : Bool := fld (d.laneCtrl l) 0 1 == 1
def Dev.setLaneEnable (d : Dev) (l : Nat) (on : Bool) : Dev :=
  d.setCsr l bLane 0x20 (word (clearBits (d.laneCtrl l).toNat 1 + b2n on))

/-- Width of the port configured at a number; 0 where none is. -/
def Dev.portWidth (d : Dev) (n : Nat) : Nat := d.cfgFld n bPort 0x10 1 5
/-- The configured port that holds a lane (R68). -/
def Dev.portOfLane (d : Dev) (l : Nat) : Option Nat :=
  ([1, 2, 4, 8, 16].find? (fun w => d.portWidth (l / w * w) == w)).map (fun w => l / w * w)
/-- Lanes of a port. -/
def Dev.portLanes (d : Dev) (n : Nat) : List Nat := (List.range (d.portWidth n)).map (fun i => n + i)
/-- The lane of index `i` of a port as the link layer numbers its lanes, and back: in reversed order the lane layer turns them round
(R57). -/
def Dev.laneAt (d : Dev) (n i : Nat) : Nat := if (d.port n).order = some true then n + (d.portWidth n - 1 - i) else n + i
def Dev.laneIx (d : Dev) (n l : Nat) : Nat := if (d.port n).order = some true then d.portWidth n - 1 - (l - n) else l - n

/-! ### Octet PLLs (R61, R378, R380) -/

/-- Bits of GATE_CFG that hold in a mode, POLICY among them (R390). -/
def gateBits (m : Mode) : Nat := if m == .doze then 0x2221 else if m == .retain then 0x4441 else 0x1111
/-- An island class may stop in the mode in force (R380): AUTO, or an enable of 0; `lo` is its RUN bit. -/
def Dev.gated (d : Dev) (lo : Nat) : Bool := !bit d.clk.gateNow 0 || d.clk.gateNow &&& (gateBits d.clk.mode &&& (7 * 2 ^ lo)) == 0

/-- Every lane of the octet is OFF, DEEP or FAIL, and none runs a PRBS pattern (R61, R380). -/
def Dev.octIdle (d : Dev) (o : Nat) : Bool :=
  (List.range 8).all (fun i =>
    let x := d.lane (8 * o + i)
    (x.st == .off || x.st == .deep || x.st == .fail) && x.genRun == 0 && x.chkRun == 0)
/-- Octet and PHY islands that run (R378, R380, R384, R385). -/
def Dev.octRuns (d : Dev) (o : Nat) : Bool := (d.oct o).pllOn && d.clk.refOk
def Dev.phyRuns (d : Dev) (c : Nat) : Bool :=
  d.clk.refOk && d.clk.mode != .boot && !(d.gated 8 && ((d.ch c).st == .selfref || d.retired c))

/-- The octet PLL stops with the last lane that needs it, where the gating policy lets it (R61, R380). -/
def Dev.octStop (d : Dev) (o : Nat) : Dev :=
  if d.gated 4 && d.octIdle o && (d.oct o).pllOn then d.modOct o (fun x => { x with pllOn := false, pllLock := false }) else d
/-- A lane needs its octet: a PLL that has stopped starts again. -/
def Dev.octStart (d : Dev) (o : Nat) : Dev :=
  if (d.oct o).pllOn || d.clauseOf o = 0 then d else d.modOct o (fun x => { x with pllOn := true, pllLock := false, onAt := d.dt })

/-- The gating policy or the mode has changed (R380, R390): an octet that may stop does so, one that is to be kept running starts. -/
def Dev.octGates (d : Dev) : Dev := (List.range 18).foldl (fun (a : Dev) o => if a.gated 4 then a.octStop o else a.octStart o) d

/-- The octet PLL locks and fixes the transmit frame grid at a place not specified (R497); the higher octet of a port of
width 16 takes the grid of the lower. -/
def Dev.octLock (d : Dev) (o : Nat) : Dev :=
  if !(d.oct o).pllOn || (d.oct o).pllLock || !d.clk.refOk then d
  else
    let (g, d1) := d.draw
    let wide := d.portWidth (8 * (o / 2 * 2)) == 16
    if o % 2 = 1 ∧ wide ∧ (d.oct (o - 1)).pllLock then
      d1.modOct o (fun x => { x with pllLock := true, grid := (d.oct (o - 1)).grid })
    else
      let d2 := d1.modOct o (fun x => { x with pllLock := true, grid := g })
      if o % 2 = 0 ∧ wide ∧ (d.oct (o + 1)).pllLock then d2.modOct (o + 1) (fun x => { x with grid := g }) else d2
/-- A PLL that has run for 50 µs with REFCLK valid has locked (R45, R378). -/
def Dev.octLocked (d : Dev) (o : Nat) : Dev := if (d.oct o).onAt + 50000 ≤ d.dt then d.octLock o else d

/-! ### Calibration gaps (R52, R406) -/

/-- The octet gap of R52: every lane in OFF, QUIET, DEEP or FAIL. -/
def Dev.octGap (d : Dev) (o : Nat) : Bool :=
  (List.range 8).all (fun i =>
    let s := (d.lane (8 * o + i)).st
    s == .off || s == .quiet || s == .deep || s == .fail)

/-- The gap of a calibration domain of the lanes has been withdrawn: a step that runs in it is abandoned at once (R406). -/
def Dev.calWithdraw (d : Dev) (n : Nat) (gap : Bool) : Dev :=
  if (d.dom n).step.isSome && !gap then
    ((d.arb 9 n n 0).modDom n (fun x => { x with step := none, inRun := false, pending := true })).bump 0 bThermal 0x98 1
  else d
/-- The gaps of a lane and of its octet as they now stand. -/
def Dev.gapsNow (d : Dev) (l : Nat) : Dev := (d.calWithdraw l (d.lane l).gap).calWithdraw (144 + l / 8) (d.octGap (l / 8))

/-! ### What a lane sends (R46, R47, R53 to R55) -/

/-- LSIG of frame number `f` of a lane: it goes out in two frames (R59). -/
def Lane.lsigIn (x : Lane) (f : Nat) : Nat := if x.lsigAt ≤ f ∧ f < x.lsigAt + 2 then x.lsig else 0

/-- The training control word a lane sends (R53). -/
def Lane.trainWord (x : Lane) : Word :=
  word (x.reqCmd + 4 * x.reqTap + 32 * x.stat + 128 * b2n x.rxReadyOut + 256 * x.reqSeq + 65536 * x.echo)

/-- The capability block that the device sends (R55): its index, the port number as bonding key, FEC_REQ of NRZ_FEC, QUIET and DEEP
supported, clause and port width. -/
def Dev.capOut (d : Dev) (l : Nat) : List Byte :=
  let n := (d.portOfLane l).getD 0
  let w := match d.portOfLane l with | some n => d.portWidth n | none => 0
  [1, byte (if w = 0 then 0 else l - n)] ++ leBytes 2 n ++ [byte (d.cfgFld (8 * (l / 8)) bLane 0x10 3 1 + 6), byte (d.clauseOf (l / 8)), byte w] ++
    List.replicate 9 0

/-- Bits of a lane frame's message, of its payload and of a codeword (R46). -/
def msgBits : Nat := 5140
def cwBits : Nat := 5440

/-- The message of a lane frame: the control field, then 640 bytes of payload, byte 0 first (R46). -/
def laneMessage (ctl : Nat) (payload : List Byte) : Nat := ctl % 2 ^ 20 + 2 ^ 20 * leNat (padTo 640 payload)

/-- The self-synchronising scrambler x^58 + x^39 + 1 (R46) after the 58 bits `h`, the most recent highest: bits are taken 39 at a time,
since none of them depends on another of the same group. -/
def scramble (h m : Nat) : Nat :=
  ((List.range 132).foldl (fun x k =>
    x + 2 ^ (58 + 39 * k) * ((m / 2 ^ (39 * k) ^^^ x / 2 ^ (19 + 39 * k) ^^^ x / 2 ^ (39 * k)) % 2 ^ 39)) (h % 2 ^ 58)) / 2 ^ 58 % 2 ^ msgBits

/-- The descrambler: each bit with those 39 and 58 before it. -/
def descramble (h r : Nat) : Nat :=
  let x := h % 2 ^ 58 + 2 ^ 58 * (r % 2 ^ msgBits)
  (x / 2 ^ 58 ^^^ x / 2 ^ 19 ^^^ x) % 2 ^ msgBits

/-- The last 58 bits after `r`. -/
def scrTail (h r : Nat) : Nat := (h % 2 ^ 58 + 2 ^ 58 * (r % 2 ^ msgBits)) / 2 ^ msgBits % 2 ^ 58

/-- Gray coding of bit pairs, the first bit of a pair the higher one of its symbol: 00, 01, 11 and 10 become 0, 1, 2 and 3 (R46; PRESUMED,
log 116: the mapping is that of the clauses named). -/
def grayCode (c : Nat) : Nat :=
  let m0 := (2 ^ cwBits - 1) / 3
  let a := c &&& m0
  let b := c / 2 &&& m0
  (a ^^^ b) + 2 * a

/-- What goes on the line for a scrambled message (R46, R66): message and check symbols, Gray-coded at PAM4, inverted by TXPOL. -/
def lineCode (pam4 inv : Bool) (msg : Nat) : Nat :=
  let cw := msg + 2 ^ msgBits * (Config.rsCheck msg % 2 ^ 300)
  let s := if pam4 then grayCode cw else cw
  if inv then 2 ^ cwBits - 1 - s else s

/-- A training frame (R53, R54): the marker, the control word and its inverse, and the pattern; sent without scrambling or FEC. -/
def trainLine (pam4 inv : Bool) (w : Word) : Nat :=
  let s := 0xF0F0F0F03333CCCC + 2 ^ 64 * (w.toNat + 2 ^ 32 * (~~~w).toNat) + 2 ^ 128 * (Config.trainPattern pam4 % 2 ^ 5312)
  if inv then 2 ^ cwBits - 1 - s else s

/-- The control field of frame number `f` of a lane (R47): its index in its port, FCNT, LSIG, reserved bits zero. -/
def Dev.laneCtl (d : Dev) (l f : Nat) : Nat :=
  (match d.portOfLane l with | some n => l - n | none => 0) + 16 * (f % 2048) + 2 ^ 15 * (d.lane l).lsigIn f

/-- Begin frame number `f` on lane `l`: the one in formation goes out. -/
def Dev.frameOut (d : Dev) (l f : Nat) (payload : List Byte) : Dev :=
  let pam4 := clausePam4 (d.clauseOf (l / 8))
  let inv := fld (d.laneCtrl l) 1 1 == 1
  d.modLout l (fun o =>
    let m := scramble o.scr (laneMessage o.ctl o.payload)
    { kind := .frames, ctl := d.laneCtl l f, payload := padTo 640 payload
      scr := if o.kind == .frames then scrTail o.scr m else o.scr
      sent := if o.kind == .frames then lineCode pam4 inv m else o.sent })

/-- A slot of the frame in formation takes a flit. -/
def Dev.slotOut (d : Dev) (l off : Nat) (bytes : List Byte) : Dev := d.modLout l (fun o => { o with payload := overlay o.payload off bytes })

/-- What a lane sends in its present state (R59, R65): in ACTIVE idle frames, until its port puts flits into them. The two frames with an
LSIG come before the idle of QUIET and DEEP, and before the training frames of a retrain. In FAIL, of which the manual says nothing, the
transmitter is idle (DESIGN CHOICE, log 117). -/
def Dev.laneSend (d : Dev) (l : Nat) : Dev :=
  let x := d.lane l
  let f := d.frameNo (l / 8)
  let pam4 := clausePam4 (d.clauseOf (l / 8))
  if x.lsig != 0 && decide (f < x.lsigAt + 2) then d.frameOut l (max f x.lsigAt) []
  else
    match x.st with
    | .detect => d.modLout l (fun o => { kind := .pulses, scr := o.scr })
    | .train =>
      d.modLout l (fun o => { kind := .training, ctl := x.trainWord.toNat, scr := o.scr
                              sent := trainLine pam4 (fld (d.laneCtrl l) 1 1 == 1) x.trainWord })
    | .lock | .active => d.frameOut l f []
    | .capx => d.frameOut l f (d.capOut l)
    | .quiet | .deep => d.modLout l (fun o => { scr := o.scr })
    | .off | .fail => if x.genRun = 0 then d.modLout l (fun _ => {}) else d.modLout l (fun o => { kind := .prbs, ctl := x.genRun, scr := o.scr })

/-! ### PRBS (R65) -/

/-- The condition of R65 for a running generator or checker. -/
def Dev.prbsMay (d : Dev) (l : Nat) : Bool :=
  let x := d.lane l
  d.clauseOf (l / 8) != 0 && ((x.st == .off && !d.laneEnabled l) || (x.st == .fail && x.waiting && d.laneEnabled l))

/-- A pattern that the octet can run: PRBS13Q is available only at PAM4. A reserved code, and PRBS13Q selected in an NRZ octet, run
nothing (DESIGN CHOICE, log 112: the manual is silent on both). -/
def Dev.prbsOk (d : Dev) (l v : Nat) : Nat :=
  if v = 1 ∨ v = 3 ∨ (v = 2 ∧ clausePam4 (d.clauseOf (l / 8))) then v else 0

/-- Start or stop the generator and checker as the lane's condition asks (R65). Their octet's PLL runs with them. -/
def Dev.prbsSync (d : Dev) (l : Nat) : Dev :=
  let may := d.prbsMay l
  let g := if may then d.prbsOk l (fld (d.laneCtrl l) 8 3) else 0
  let c := if may then d.prbsOk l (fld (d.laneCtrl l) 12 3) else 0
  let d1 := d.modLane l (fun x => { x with
    genRun := g, chkRun := c
    prbsLock := x.prbsLock && x.chkRun == c && c != 0
    prbsGood := if x.chkRun == c then x.prbsGood else 0
    prbsErrs := if x.chkRun == c then x.prbsErrs else [] })
  let d2 := if g != 0 || c != 0 then d1.octStart (l / 8) else d1
  if (d.lane l).st == .off || (d.lane l).st == .fail then d2.laneSend l else d2

/-! ### Transitions (R59) -/

/-- LANE_EVENT.DOWN where the lane leaves ACTIVE, QUIET or DEEP (R59). -/
def Dev.laneDown (d : Dev) (l : Nat) : Dev :=
  let s := (d.lane l).st
  if s == .active || s == .quiet || s == .deep then d.orCsr l bLane 0x28 2 else d

/-- A lane's fields as it changes state: timers and counts of the state left are dropped, and a running LSIG is not carried on. -/
def Lane.goTo (x : Lane) (s : LaneSt) (timer : Option Nat) : Lane :=
  { x with st := s, timer := timer, pulses := 0, goodCw := 0, fromDeep := false, deepBy := none, lidxMiss := 0, uncorrRun := 0
           winEnd := none, winUncorr := 0, winCorr := 0, restAt := none, gap := false, waiting := false, lsig := 0, restFr := none }

/-- The last frame received says nothing of the frames to come (R71). -/
def Dev.linDrop (d : Dev) (l : Nat) : Dev := d.modLin l (fun x => { scr := x.scr })

/-- To OFF (R59): transmitter idle. -/
def Dev.laneOff (d : Dev) (l : Nat) : Dev :=
  let d1 := ((((d.laneDown l).setLaneEnable l false).modLane l (fun x => { x.goTo .off none with
    eq := none, eqStored := none, rxReadyOut := false, rxReadyIn := false, farFec := false })).prbsSync l).modLin l (fun _ => {})
  if (d.lane l).st == .off then d1 else d1.octStop (l / 8)

/-- To DETECT: pulses every 1 ms. -/
def Dev.laneDetect (d : Dev) (l : Nat) : Dev :=
  (((((d.laneDown l).modLane l (fun x => { x.goTo .detect (some (d.dt + 1000000)) with eq := none, eqStored := none, farFec := false })).prbsSync l).octStart
    (l / 8)).linDrop l).laneSend l

/-- To TRAIN. A request that the far end has not answered stays open (R54). -/
def Dev.laneTrain (d : Dev) (l : Nat) : Dev :=
  (((d.laneDown l).modLane l (fun x => { x.goTo .train (some (d.dt + 1000000 * d.cfgFld l bLane 0x70 0 16)) with
    rxReadyOut := false, rxReadyIn := false, eq := none, eqStored := none, farFec := false })).linDrop l).laneSend l

/-- To LOCK. -/
def Dev.laneLock (d : Dev) (l : Nat) : Dev :=
  (d.modLane l (fun x => x.goTo .lock (some (d.dt + 1000 * d.cfgFld l bLane 0x70 16 16)))).laneSend l

/-- To FAIL with a cause; the failure counts (R59). -/
def Dev.laneFail (d : Dev) (l cause : Nat) : Dev :=
  (((d.modLane l (fun x => { x.goTo .fail (some (d.dt + 10000000)) with failCause := cause, failCount := x.failCount + 1 })).linDrop l).laneSend
    l).octStop (l / 8)

/-- To ACTIVE: both window counts restart (R63), under the limits now set (R67); what the receiver held of its frames is of the past. -/
def Dev.laneActive (d : Dev) (l : Nat) : Dev :=
  (((d.modLane l (fun x => { x.goTo .active none with
    winEnd := some (d.dt + 1000 * d.cfgFld l bLane 0x60 16 16), limU := d.cfgFld l bLane 0x60 0 16, limC := d.cfgFld l bLane 0x64 0 32
    failCount := 0 })).orCsr l bLane 0x28 1).linDrop l).laneSend l

/-- ENABLE set (R59). Written 1 again on a lane that stands in OFF it counts as set again (DESIGN CHOICE, log 113: the manual does not say
whether the event is the write or the change). -/
def Dev.laneEnable (d : Dev) (l : Nat) : Dev :=
  let d1 := d.setLaneEnable l true
  if (d.lane l).st == .off then
    (if d.clauseOf (l / 8) = 0 then (d1.modLane l (fun x => { x with failCause := 5 })).prbsSync l else d1.laneDetect l)
  else d1

/-- The event of this lane happens in the frame numbered so (R60). -/
def Dev.inFrame (d : Dev) (l : Nat) (f : Option Nat) : Bool := f == some (d.frameNo (l / 8))

/-- An LSIG goes out in the two frames that follow the present one (R59, R61). -/
def Dev.sendLsig (d : Dev) (l sig : Nat) : Dev :=
  (d.modLane l (fun x => { x with lsig := sig, lsigAt := d.frameNo (l / 8) + 1 })).laneSend l

/-- A retrain cause reaches an ACTIVE lane: LSIG 3 goes out in two frames (R59). It wins over a request for QUIET or DEEP that was taken
in the same frame (R60). -/
def Dev.laneRetrainNow (d : Dev) (l : Nat) : Dev :=
  let x := d.lane l
  if x.st == .active || ((x.st == .quiet || x.st == .deep) && d.inFrame l x.restFr) then (d.laneTrain l).sendLsig l 3 else d

/-- RETRAIN written, or asked for by the link layer (R59). -/
def Dev.laneRetrain (d : Dev) (l : Nat) : Dev :=
  match (d.lane l).st with
  | .fail => (d.laneDetect l).modLane l (fun x => { x with failCount := 0 })
  | _ => d.laneRetrainNow l

/-- From ACTIVE to rest in state `s`, with its LSIG (R59). In DEEP the adapted values are stored (R51). -/
def Dev.laneRest (d : Dev) (l : Nat) (s : LaneSt) (sig : Nat) : Dev :=
  let d1 := ((d.modLane l (fun x => { x.goTo s none with
    restAt := some d.dt, restFr := some (d.frameNo (l / 8))
    eqStored := if s == .deep then x.eq else none, eq := if s == .deep then none else x.eq })).sendLsig l sig).linDrop l
  if s == .deep then d1.octStop (l / 8) else d1

/-- QUIET requested, or LSIG 1 received (R56, R59). A request to return to ACTIVE of the same frame wins over it, and it over one for DEEP
(R60). -/
def Dev.laneQuiet (d : Dev) (l : Nat) : Dev :=
  let x := d.lane l
  match x.st with
  | .active =>
    if d.inFrame l x.actAt then d
    else if !x.farQuiet then d.orCsr l bLane 0x28 8
    else d.laneRest l .quiet 1
  | .deep =>
    if d.inFrame l x.restFr && x.farQuiet then
      ((d.modLane l (fun x => { x with st := .quiet, eq := x.eqStored, eqStored := none })).octStart (l / 8)).sendLsig l 1
    else d
  | _ => d

/-- DEEP requested, or LSIG 2 received. On a lane in QUIET whose ends do not both support DEEP the lane stays in QUIET and REQ_REFUSED is
set (DESIGN CHOICE, log 114: R56 speaks of a lane in ACTIVE). A request of the same frame for ACTIVE or for QUIET wins (R60). -/
def Dev.laneDeep (d : Dev) (l : Nat) : Dev :=
  let x := d.lane l
  match x.st with
  | .active =>
    if d.inFrame l x.actAt then d
    else if !x.farDeep then d.orCsr l bLane 0x28 8
    else d.laneRest l .deep 2
  | .quiet =>
    if d.inFrame l x.restFr then d
    else if !x.farDeep then d.orCsr l bLane 0x28 8
    else ((d.modLane l (fun y => { y.goTo .deep none with
        restAt := x.restAt, gap := x.gap, eqStored := y.eq, eq := none })).laneSend l).octStop (l / 8)
  | _ => d

/-- ACTIVE requested, or far-end signal: return to service from QUIET or DEEP (R59, R61); the gap is withdrawn with it (R406). The frame of
the request is kept, for R60. -/
def Dev.laneWake (d0 : Dev) (l : Nat) : Dev :=
  let d := d0.modLane l (fun x => if x.st == .active || x.st == .quiet then { x with actAt := some (d0.frameNo (l / 8)) } else x)
  match (d.lane l).st with
  | .quiet => (d.laneActive l).gapsNow l
  | .deep =>
    let d1 := d.octStart (l / 8)
    ((d1.modLane l (fun x => { x.goTo .lock (some (d.dt + 100000)) with
      fromDeep := true, deepBy := some (d.dt + 100000), eq := x.eqStored, eqStored := none })).laneSend l).gapsNow l
  | _ => d

/-! ### Transmitter taps (R50, R54) -/

/-- Tap ranges and the limit of 63 on the sum of magnitudes. -/
def tapsOk (pam4 : Bool) (t : Taps) : Bool :=
  (if pam4 then decide (-6 ≤ t.pre2 ∧ t.pre2 ≤ 0) && decide (-16 ≤ t.pre1 ∧ t.pre1 ≤ 0)
   else t.pre2 == 0 && decide (-12 ≤ t.pre1 ∧ t.pre1 ≤ 0)) &&
  decide (32 ≤ t.main ∧ t.main ≤ 63) && decide (-16 ≤ t.post1 ∧ t.post1 ≤ 0) &&
  decide (t.pre2.natAbs + t.pre1.natAbs + t.main.natAbs + t.post1.natAbs ≤ 63)

def tapsPreset (pam4 : Bool) : Taps :=
  if pam4 then { pre2 := 0, pre1 := -4, main := 52, post1 := -6 } else { pre2 := 0, pre1 := -2, main := 55, post1 := -6 }

def Taps.add (t : Taps) (tap : Nat) (v : Int) : Taps :=
  match tap with
  | 0 => { t with pre2 := t.pre2 + v }
  | 1 => { t with pre1 := t.pre1 + v }
  | 2 => { t with main := t.main + v }
  | _ => { t with post1 := t.post1 + v }

/-- Apply a far request: new taps and STAT (R53). A reserved TAP changes nothing and is answered 0 (DESIGN CHOICE, log 115). Taps that stand
outside R50's ranges (the reset value 0, or values left by another clause) answer every step at maximum or at minimum until a preset
(DESIGN CHOICE, log 115). -/
def tapsApply (pam4 : Bool) (t : Taps) (cmd tap : Nat) : Taps × Nat :=
  if cmd = 3 then (tapsPreset pam4, 1)
  else if cmd = 0 then (t, 1)
  else if tap > 3 then (t, 0)
  else
    let t' := t.add tap (if cmd = 1 then 1 else -1)
    if tapsOk pam4 t' then (t', 1) else (t, if cmd = 1 then 3 else 2)

/-! ### Adaptation and training (R50 to R54) -/

/-- Values a receiver has adapted to, of a free number: CTLE peaking of 0 to 36 half decibels, 24 FFE taps and 3 DFE taps in PAM4 octets, 8
DFE taps in NRZ octets (R50). -/
def rxEqOf (pam4 : Bool) (v : Nat) : RxEq :=
  let tap := fun i => v / 37 / 2 ^ (16 * i)  % 2 ^ 16
  if pam4 then { ctle := v % 37, ffe := (List.range 24).map tap, dfe := (List.range 3).map (fun i => tap (24 + i)) }
  else { ctle := v % 37, ffe := [], dfe := (List.range 8).map tap }

/-- The receiver adapts (R51): to what is its own affair, a free value. -/
def Dev.laneAdapt (d : Dev) (l : Nat) : Dev :=
  let (v, d1) := d.draw
  d1.modLane l (fun x => { x with eq := some (rxEqOf (clausePam4 (d.clauseOf (l / 8))) v) })

/-- A receiver that still adapts may ask the far transmitter for a change once its last request is answered (R53, R54). What it
asks for is its own adaptation's: a free value. -/
def Dev.trainAsk (d : Dev) (l : Nat) : Dev :=
  let x := d.lane l
  if x.rxReadyOut || x.reqOpen then d
  else
    let (v, d1) := d.draw
    if v % 2 = 0 then d1
    else d1.modLane l (fun y => { y with reqSeq := (y.reqSeq + 1) % 256, reqCmd := 1 + v / 2 % 3, reqTap := v / 6 % 4, reqOpen := true })

/-- A training frame is received (R54): true where both ends are ready and the lane goes to LOCK. With FIR_MANUAL 1 a request changes no
tap and is answered with STAT 0 (DESIGN CHOICE, log 115). Readiness at or after the end of the TRAIN timer does not count (R258). -/
def Dev.trainFrame (d0 : Dev) (l : Nat) (ctl inv : Word) (inverted adapted : Bool) : Dev :=
  if (d0.lane l).st != .train || inv != ~~~ctl then d0
  else
    let d := if (d0.lane l).rxReadyOut then d0 else d0.laneAdapt l
    let x := d.lane l
    let c := d.laneCtrl l
    let pol := if fld c 2 1 = 1 then inverted else fld c 3 1 == 1
    let pam4 := clausePam4 (d.clauseOf (l / 8))
    let seq := fld ctl 8 8
    let new := seq != x.echo
    let r := if fld c 7 1 = 1 then (x.taps, 0) else tapsApply pam4 x.taps (fld ctl 0 2) (fld ctl 2 3)
    let answered := fld ctl 16 8 == x.reqSeq
    let y := { x with
      rxpolInv := pol
      taps := if new then r.1 else x.taps
      stat := if new then r.2 else x.stat
      echo := seq
      reqOpen := x.reqOpen && !answered
      farStat := if x.reqOpen && answered then fld ctl 5 2 else x.farStat
      rxReadyIn := fld ctl 7 1 == 1
      rxReadyOut := x.rxReadyOut || adapted }
    let d1 := d.modLane l (fun _ => y)
    if y.rxReadyIn && y.rxReadyOut && !due x.timer d.dt then d1.laneLock l else (d1.trainAsk l).laneSend l

/-! ### Capability exchange (R55, R56) -/

/-- FEC decoding is in use on a lane (R48): always at PAM4; at NRZ where either end asks for it. -/
def Dev.fecOn (d : Dev) (l : Nat) : Bool :=
  clausePam4 (d.clauseOf (l / 8)) || d.cfgFld (8 * (l / 8)) bLane 0x10 3 1 == 1 || (d.lane l).farFec

/-- A capability block arrives in CAPX; zero payload comes from a far end that is still in LOCK. -/
def Dev.capBlock (d : Dev) (l : Nat) (b : List Byte) : Dev :=
  if allZero (b.take 16) then d
  else
    let w := match d.portOfLane l with | some n => d.portWidth n | none => 0
    let pw := leAt b 6 1
    if leAt b 5 1 % 8 = d.clauseOf (l / 8) ∧ pw = w ∧ [1, 2, 4, 8, 16].contains pw then
      let f := leAt b 4 1
      (d.laneActive l).modLane l (fun x => { x with
        farLidx := leAt b 1 1 % 16, farBkey := leAt b 2 2, farQuiet := bit f 1, farDeep := bit f 2
        farFec := bit f 0 && !clausePam4 (d.clauseOf (l / 8)) })
    else d.laneFail l 4

/-! ### Error windows (R63) -/

/-- Restart the counts of a window that has ended; windows follow one another without a break, and the next takes the limits now set
(R67). -/
def Dev.laneWindow (d : Dev) (l : Nat) : Dev :=
  let x := d.lane l
  if x.st == .active && due x.winEnd d.dt then
    let w := 1000 * d.cfgFld l bLane 0x60 16 16
    let e := x.winEnd.getD d.dt
    d.modLane l (fun x => { x with
      winUncorr := 0, winCorr := 0, winEnd := some (e + ((d.dt - e) / w + 1) * w)
      limU := d.cfgFld l bLane 0x60 0 16, limC := d.cfgFld l bLane 0x64 0 32 })
  else d

end Sys2Proof.Machine
end

