-- ==== Sys2Proof/Machine/Pairs.lean ====
section
/-!
DEFINITION. Slot pairs (R303 to R309): taking a command, answering it, freeing it.
-/
namespace Sys2Proof.Machine

/-- Fields of a command slot image (R303). -/
def cmdOpcode (b : List Byte) : Nat := leAt b 0 2
def cmdSeq (b : List Byte) : Nat := leAt b 2 2
def cmdSlot (b : List Byte) : Nat := leAt b 4 1 % 8
def cmdFence (b : List Byte) : Bool := bit (leAt b 4 1) 3
def cmdSerial (b : List Byte) : Bool := bit (leAt b 4 1) 4
def cmdPlen (b : List Byte) : Nat := leAt b 6 2
def cmdExpire (b : List Byte) : Nat := leAt b 8 2
def cmdParams (b : List Byte) : List Byte := slice b 16 (cmdPlen b)

/-- The header is valid (R303, R308). -/
def cmdHeaderOk (b : List Byte) : Bool :=
  decide (leAt b 4 1 < 32) && leAt b 5 1 == 0 && decide (cmdPlen b ≤ 240) && decide (cmdExpire b ≤ 60000) && leAt b 10 6 == 0

/-- A response slot image (R304). -/
def rspImage (opcode seq slot status now : Nat) (result : List Byte) : List Byte :=
  leBytes 2 opcode ++ leBytes 2 seq ++ [byte slot, 0] ++ leBytes 2 status ++ leBytes 2 result.length ++ List.replicate 6 0 ++
    leBytes 8 now ++ result

/-- Complete a command: its pair goes to DONE with the response; a response of an owner that has gone is discarded
(R112, R305). -/
def Dev.respond (d : Dev) (o i status : Nat) (result : List Byte) : Dev :=
  let p := d.pair o i
  let d := if o = 65 && i = 0 && d.boot.listWait then d.modBoot (fun b => { b with listStat := some (b.listStat.getD status) }) else d
  let d := if p.st == .running then d.bump 0 bMbox 0x500 1 else d
  if p.drop then d.modPair o i (fun _ => {})
  else d.modPair o i (fun p => { p with
    st := .done, wait := false, eng := none, work := [], resp := rspImage (cmdOpcode p.cmd) (cmdSeq p.cmd) (cmdSlot p.cmd) status d.dt result })

/-- Commands are not served: BOOT, or Heartwood held after FS160 (R308, R309). -/
def Dev.notReady (d : Dev) (o : Nat) : Bool := d.mbox.fwState == 4 || (d.mbox.fwState == 0 && o != 65)

/-- Take a command for pair `i` of owner `o` (R305, R307); `port`: that of a packet on VC3. -/
def Dev.postCmd (d : Dev) (o i : Nat) (img : List Byte) (port : Option Nat) : Dev :=
  let p := d.pair o i
  if p.st != .free then
    (match port with
     | some n =>
       if (d.mb o).rejects.length < 4 then
         d.modMb o (fun m => { m with rejects := m.rejects ++ [{ slot := i, seq := cmdSeq img, opcode := cmdOpcode img, port := n }] })
       else d.bump 0 bMbox 0x520 1
     | none => d.orCsr o bMbox 0x114 1)
  else
    let d1 := d.modPair o i (fun _ => { st := .posted, cmd := img, stamp := d.dt, ord := d.txn.nextOrd, port := port })
    let d2 := d1.modTxn (fun t => { t with nextOrd := t.nextOrd + 1 })
    if !cmdHeaderOk img then d2.respond o i 2 []
    else if o < 64 && (d.ptn o).st == .leaving then d2.respond o i 7 []
    else if d.notReady o then d2.respond o i 5 []
    else d2

/-- Owner and slot numbers of every pair. -/
def allPairs : List (Nat × Nat) := ((List.range 66).map (fun o => (List.range 8).map (fun i => (o, i)))).flatten

/-- Every RUNNING command is answered FW_RESTART (R309). -/
def Dev.restartPairs (d : Dev) : Dev :=
  allPairs.foldl (fun (a : Dev) x => if (a.pair x.1 x.2).st == .running then a.respond x.1 x.2 6 [] else a) d

/-- An owner's POSTED commands are answered (R305). -/
def Dev.answerPosted (d : Dev) (o status : Nat) : Dev :=
  (List.range 8).foldl (fun (a : Dev) i => if (a.pair o i).st == .posted then a.respond o i status [] else a) d

/-- The owner enters RECLAIM (R112, R305): a RUNNING command runs on, its response to be discarded; every other pair,
the events and the answers held are freed; its update session ends (R347). -/
def Dev.mboxReclaim (d : Dev) (o : Nat) : Dev :=
  let d1 := (List.range 8).foldl (fun (a : Dev) i =>
    if (a.pair o i).st == .running then a.modPair o i (fun p => { p with drop := true }) else a.modPair o i (fun _ => {})) d
  (d1.modMb o (fun _ => {})).modMbox (fun m => { m with updOpen := if m.updOpen == some o then none else m.updOpen })

end Sys2Proof.Machine
end

