-- ==== Sys2Proof/Machine/Partner.lean ====
section
/-!
DEFINITION. The partner manager (R102 to R119) and the port states it needs: numbers, attachment, the loss of a port,
departure and reclamation, and the census laws of R11.
-/
namespace Sys2Proof.Machine

/-! ### Numbers (R103, R104) -/

/-- The number a CHIPID may be given now. -/
def Dev.numberFor (d : Dev) (chipid : Nat) : Option Nat :=
  let ks := List.range 64
  let free := fun k => (d.ptn k).st == .free
  let unpinned := fun k => d.pin_ k == 0
  match ks.find? (fun k => d.pin_ k == chipid) with
  | some k => if free k then some k else none
  | none =>
    let last := tabGet (fun _ => 0) d.link.lastNo chipid
    if last != 0 && free (last - 1) && unpinned (last - 1) then some (last - 1)
    else
      match ks.find? (fun k => free k && unpinned k && (d.ptn k).past.all (fun c => c == chipid)) with
      | some k => some k
      | none => ks.find? (fun k => free k && unpinned k)

/-- The partner that a CHIPID belongs to, in any state but FREE. -/
def Dev.holderOf (d : Dev) (chipid : Nat) : Option Nat :=
  (List.range 64).find? (fun k => (d.ptn k).st != .free && (d.ptn k).chipid == chipid)

/-! ### Events -/

/-- Partner `k`, the management owner and every other attached partner (R108). -/
def Dev.attachOwners (d : Dev) (k : Nat) : List Nat := k :: 64 :: (List.range 64).filter (fun j => j != k && d.present j)

/-- The port has a spare: configured N+1, at least two lanes, its standby not used (R90). -/
def Dev.portSpare (d : Dev) (n : Nat) : Bool :=
  d.cfgFld n bPort 0x10 10 1 == 1 && decide (2 ≤ d.portWidth n) && !(d.port n).stbyUsed

/-- The lowest port of a partner without a spare. -/
def Dev.spareless (d : Dev) (k : Nat) : Option Nat := (d.portsOf k).find? (fun n => !d.portSpare n)

/-- Post the event of R19, condition 1, where the condition changes for an attached partner (R90). -/
def Dev.spareCheck (d : Dev) (k : Nat) : Dev :=
  if !d.present k then d
  else
    let s := d.spareless k
    if s.isSome == (d.ptn k).noSpare then d
    else
      let d1 := d.modPtn k (fun p => { p with noSpare := s.isSome })
      d1.availEvent 1 s.isNone (s.getD ((d.portsOf k).head?.getD 0xFFFF))

/-! ### Port state that a loss or a fresh start drops -/

/-- Discard what was arriving on a port: entries are freed, a packet only partly received has no effect (R112). -/
def Dev.dropArriving (d : Dev) (n : Nat) : Dev :=
  let a := tabGet (fun _ => ({} : Arriving)) d.qm.arriving n
  let d1 := d.expect n 0 none
  match a.enq with
  | none => d1
  | some id => match d1.open? id with
    | some o => if o.got < o.len then d1.enqDiscard o else d1
    | none => d1

/-- Count a discarded response and tell its partner (R106). -/
def Dev.rspDropped (d : Dev) (k : Nat) : Dev :=
  ((d.rcNote k bPartner 0x54 (d.ptn k).rspDrop (fun v => min 255 (v + 1))).modPtn k (fun p => { p with rspDrop := min 255 (p.rspDrop + 1) })).post k 5 ([byte k, 0] ++ leBytes 2 1)

/-- A mailbox response or event that had begun on a port whose link state goes is discarded (R106). -/
def Dev.dropVc3 (d : Dev) (n : Nat) : Dev :=
  match (d.ptx n).p3 with
  | some x =>
    if x.first || !d.present x.partner then d
    else
      (match x.ref with
       | .rsp i => (d.modPair x.partner i (fun _ => {})).rspDropped x.partner
       | .reject => (d.modMb x.partner (fun m => { m with rejects := m.rejects.drop 1 })).rspDropped x.partner
       | .event => (d.popEvent x.partner).rspDropped x.partner
       | .frag _ _ => d)
  | none => d

/-- Link state of a port back to nothing: replay buffer, sequence numbers, credits and resume state (R93). What its formation has found
so far stays, where it is in NEG or INIT. -/
def Dev.portClear (d : Dev) (n : Nat) : Dev :=
  let d1 := ((d.dropArriving n).dropVc3 n).modPort n (fun p =>
    if p.st == .neg || p.st == .init then {
      st := p.st, failCause := p.failCause, gen := p.gen, order := p.order, bkey := p.bkey, accepted := p.accepted, timer := p.timer
      hello := p.hello, helloG := p.helloG, acked := p.acked, flitAt := p.flitAt, farFlitAt := p.farFlitAt, farOn := p.farOn
      chipid := p.chipid, rotIdx := p.rotIdx }
    else { st := p.st, failCause := p.failCause, timer := p.timer, rotIdx := p.rotIdx })
  { d1 with link := { d1.link with
      rx := d1.link.rx.filter (fun e => e.1 / 4 != n)
      tx := d1.link.tx.filter (fun e => e.1 / 4 != n)
      ptx := d1.link.ptx.filter (fun e => e.1 != n) } }

/-- PORT_EVENT.DOWN where the port leaves UP. -/
def Dev.portDown (d : Dev) (n : Nat) : Dev := if (d.port n).st == .up then d.orCsr n bPort 0x1C 2 else d

/-- BOND_MS and HOLD_MS of a port in ns. -/
def Dev.bondNs (d : Dev) (n : Nat) : Nat := 1000000 * d.cfgFld n bPort 0x34 16 16
def Dev.holdNs (d : Dev) (n : Nat) : Nat := 1000000 * d.cfgFld n bPort 0x34 0 16

/-- To NEG: the hello is sent. -/
def Dev.portNeg (d : Dev) (n : Nat) : Dev :=
  d.modPort n (fun p => { p with
    st := .neg, timer := some (d.dt + d.bondNs n), hello := false, helloG := 0, acked := false, flitAt := none, farFlitAt := none
    farOn := false })

/-- To BOND, keeping link state or (`fresh`) dropping it; lanes already ACTIVE are collected by `portCollect`. -/
def Dev.portBond (d : Dev) (n : Nat) (fresh : Bool) : Dev :=
  let d0 := (d.portDown n).modPort n (fun p => { p with st := .bond })
  let d1 := if fresh then d0.portClear n else d0
  d1.modPort n (fun p => { p with
    timer := some (d.dt + d.bondNs n), accepted := 0, bkey := none, order := none, initRx := false, doneRx := false
    doneOk := false, doneSent := false, waitPm := false, prop := none, farProp := none, plan := none, planAns := false, planRest := none
    nakOut := false, nakBy := none, statusBy := none, ackBy := none, replayPos := none })

/-! ### The census laws (R11) -/

def Dev.lawCells (d : Dev) : Bool := d.qm.cellFree + d.qm.cellQueued + d.qm.cellInfl == d.qm.cellTotal
def Dev.lawDesc (d : Dev) : Bool := d.qm.descFree + d.qm.descInuse == d.qm.descTotal
/-- Completion slots: held ones never exceed 512, and the rest are free (R217). -/
def Dev.lawSlots (d : Dev) : Bool := decide (d.slotsHeld ≤ 512)
/-- Receive credits of one port and VC: granted and not consumed, occupied, and free and not granted make the pool. -/
def Dev.rxGrant (d : Dev) (n vc : Nat) : Nat := let r := d.rx n vc; r.pool - r.occ - r.unrep
def Dev.lawRx (d : Dev) (k vc : Nat) : Bool :=
  ((d.portsOf k).map (fun n => d.rxGrant n vc + (d.rx n vc).occ + (d.rx n vc).unrep)).sum == ((d.portsOf k).map (fun n => (d.rx n vc).pool)).sum
/-- Transmit credits: held, and spent without return, make the pool advertised. -/
def Dev.txOut (d : Dev) (n vc : Nat) : Nat := let t := d.tx n vc; t.pool - t.held
def Dev.lawTx (d : Dev) (k vc : Nat) : Bool :=
  ((d.portsOf k).map (fun n => (d.tx n vc).held + d.txOut n vc)).sum == ((d.portsOf k).map (fun n => (d.tx n vc).pool)).sum

/-- Sum of the terms of a law less its total: 1 receive credits, 2 transmit credits of partner `k` and a VC, 3 cells,
4 descriptor slots, 5 completion slots (R11, R427). -/
def Dev.lawDiff (d : Dev) (law k vc : Nat) : Int :=
  match law with
  | 1 => ((((d.portsOf k).map (fun n => d.rxGrant n vc + (d.rx n vc).occ + (d.rx n vc).unrep)).sum : Nat) : Int) -
      (((d.portsOf k).map (fun n => (d.rx n vc).pool)).sum : Nat)
  | 2 => ((((d.portsOf k).map (fun n => (d.tx n vc).held + d.txOut n vc)).sum : Nat) : Int) - (((d.portsOf k).map (fun n => (d.tx n vc).pool)).sum : Nat)
  | 3 => ((d.qm.cellFree + d.qm.cellQueued + d.qm.cellInfl : Nat) : Int) - (d.qm.cellTotal : Nat)
  | 4 => ((d.qm.descFree + d.qm.descInuse : Nat) : Int) - (d.qm.descTotal : Nat)
  | _ => if d.lawSlots then 0 else (d.slotsHeld : Int) - 512

/-- FS001 names the law, the partner or 0xFF, the VC and the difference (R427). -/
def Dev.raiseLaw (d : Dev) (law k vc : Nat) (diff : Int) (inj : Bool) : Dev :=
  d.raise0 1 { kind := 17, inst := law, a := if law ≤ 2 then k else 0xFF, b := if law ≤ 2 then vc else 0, c := ofSigned 32 diff, injected := inj }

/-- The first law that fails, of those a reclamation proves (R113). -/
def Dev.lawFails (d : Dev) (k : Nat) : Option (Nat × Nat) :=
  if !d.lawCells then some (3, 0)
  else if !d.lawSlots then some (5, 0)
  else match (List.range 4).find? (fun v => !d.lawRx k v) with
    | some v => some (1, v)
    | none => ((List.range 4).find? (fun v => !d.lawTx k v)).map (fun v => (2, v))

/-! ### Departure (R110 to R112) -/

/-- One admitted request of a departing partner (R112): undone, withdrawn, or run to completion without a response. -/
def Dev.departReq (d : Dev) (r : Req) : Dev :=
  let accs := fun (d : Dev) => d.modTxn (fun t => { t with acc := t.acc.filter (fun a => match a.for_ with | .req i _ => i != r.id | _ => true) })
  let room := fun (d : Dev) => r.frags.foldl (fun (a : Dev) f => if f.doneDt.isSome && f.pend == 0 && f.out == 0 then a else a.unreserve r.ptn f.rsv f.shr) d
  match r.opc with
  | .dequeue =>
    if r.st == .parked || !r.begun then ((d.unpark r.id).dropReq r.id).freeTag r.ptn r.tag
    else if !r.sent then (((room (accs d)).undo r).dropReq r.id).freeTag r.ptn r.tag
    else
      -- counted as delivered: the cells of the fragments that have not left are freed
      (((room (accs d)).freeCells (r.cells.map (·.1))).dropReq r.id).freeTag r.ptn r.tag
  | .qstatus | .xferClaim | .xferStart | .xferAppend | .xferStop | .xferRelease | .csrRead | .csrWrite =>
    (d.dropReq r.id).freeTag r.ptn r.tag
  | _ => d.modReq r.id (fun r => { r with depart := true })

/-- Staged fragments of a partner are discarded, with the tags of responses that are complete (R112). -/
def Dev.departFrags (d : Dev) (k : Nat) : Dev :=
  let fs := d.txn.frags.filter (fun f => f.ptn == k)
  let d1 := fs.foldl (fun (a : Dev) f =>
    let a1 := a.unreserve k f.rsv f.shr
    if (a1.req? f.id).isNone then a1.freeTag k f.tag else a1) d
  d1.modTxn (fun t => { t with frags := t.frags.filter (fun f => f.ptn != k) })

/-- The partner enters RECLAIM (R110, R112). Every port of it but `keep` goes to BOND fresh; `keep` loses its link state
alone. -/
def Dev.depart (d : Dev) (k : Nat) (abrupt : Bool) (keep : Option Nat) : Dev :=
  if !d.present k then d
  else
    let ports := d.portsOf k
    let ms := d.cfgFld 0 bPartner 0x100 16 16
    let d1 := d.modPtn k (fun p => { p with st := .reclaim, timer := some (d.dt + 1000000 * ms), abrupt := abrupt })
    let d2 := (d1.qm.opens.filter (fun o => o.ptn == k)).foldl (fun (a : Dev) o =>
      if o.got < o.len then a.enqDiscard o else a.modOpen o.id (fun o => { o with depart := true })) d1
    -- the latest first, so that undone dequeues of one queue return in their order
    let d3 := (d2.txn.reqs.filter (fun r => r.ptn == k)).reverse.foldl (fun a r => a.departReq r) d2
    let d4 := d3.departFrags k
    let d5 := ports.foldl (fun (a : Dev) n => if keep == some n then a.portClear n else a.portBond n true) d4
    let d6 := ((d5.xReclaim k).mboxReclaim k).clearSel k
    if abrupt then
      (((d6.raise0 81 { kind := 4, inst := k, wide := (d.ptn k).chipid }).orCsr k bPartner 0x38 4).bump 0 bPartner 0x120 1)
    else d6

/-- Everything of a partner in RECLAIM has been returned (R113). -/
def Dev.reclaimed (d : Dev) (k : Nat) : Bool :=
  (d.ptn k).st == .reclaim && !d.txn.reqs.any (fun r => r.ptn == k) && !d.qm.opens.any (fun o => o.ptn == k) &&
    !d.txn.frags.any (fun f => f.ptn == k) && !d.txn.tags.any (fun t => t / 4096 == k) && !d.qm.parks.any (fun p => p.ptn == k) &&
    (List.range 31).all (fun x => (d.xc x).owner != some k) && (List.range 8).all (fun i => (d.pair k i).st == .free)

/-- A port is lost to its partner (R107, R110): the port leaves it, and the partner departs with its last port. `anew`:
a case of R94, in which the partner departs whatever ports it keeps. -/
def Dev.tellLost (d : Dev) (n : Nat) (anew : Bool) : Dev :=
  match (d.port n).partner with
  | none => d
  | some k =>
    let d := d.arb 2 0 n 0
    let others := (d.portsOf k).filter (fun m => m != n &&
      ((d.port m).st == .up || (d.port m).st == .restripe || (d.port m).st == .hold || (d.port m).st == .rest))
    if anew || others.isEmpty then d.depart k true (some n)
    else
      let d1 := (d.modPort n (fun p => { p with partner := none })).orCsr k bPartner 0x38 16
      (d1.postAll (d1.attachOwners k) 4 [byte k, byte n]).spareCheck k

/-! ### Attachment (R103, R108, R110) -/

/-- Bitmap of a partner's ports, 18 bytes. -/
def Dev.portBitmap (d : Dev) (k : Nat) : List Byte := leBytes 18 (maskOf (d.portsOf k))

/-- Attach the CHIPID of a port under a number. -/
def Dev.attach (d : Dev) (n k : Nat) : Dev :=
  let chip := (d.port n).chipid
  let d0 := (d.arb 2 0 n 0).modPtn k (fun p =>
    { st := .attached, chipid := chip, past := if p.past.contains chip then p.past else p.past ++ [chip] })
  let d1 := { d0 with link := { d0.link with lastNo := tabSet (fun _ => 0) d0.link.lastNo chip (k + 1) } }.modPort n (fun p => { p with partner := some k })
  let d2 := ((d1.mboxReclaim k).clearSel k)
  let d3 := ((d2.orCsr k bPartner 0x38 1).bump 0 bPartner 0x110 1)
  let body := [byte k, byte (d3.portsOf k).length] ++ List.replicate 6 0 ++ leBytes 8 chip ++ d3.portBitmap k
  (d3.postAll (d3.attachOwners k) 1 body).spareCheck k

/-- Join a port to its attached partner. -/
def Dev.join (d : Dev) (n k : Nat) : Dev :=
  let d1 := ((d.arb 2 0 n 0).modPort n (fun p => { p with partner := some k })).orCsr k bPartner 0x38 8
  (d1.postAll (d1.attachOwners k) 3 [byte k, byte n]).spareCheck k

/-- What the partner manager says of a port in INIT: 0 no number, 1 wait for a departing partner, 2 allowed, 3 reserved
CHIPID. -/
def Dev.pmAnswer (d : Dev) (n : Nat) : Nat :=
  let c := (d.port n).chipid
  if c = 0 ∨ c = 2 ^ 64 - 1 then 3
  else match d.holderOf c with
    | some k =>
      if (d.ptn k).st == .attached then (if (d.portsOf k).length < 16 then 2 else 0) else 1
    | none => if (d.numberFor c).isSome then 2 else 0

/-- Grant the first initial credits, timers and masks as a port enters UP. -/
def Dev.portUp (d : Dev) (n : Nat) : Dev :=
  let k := d.cfgFld n bPort 0x10 10 1
  let rot := d.cfgFld n bPort 0x38 0 16
  let d1 := d.modPort n (fun p => { p with
    st := .up, timer := none, holdEnd := none, resume := true, waitPm := false
    statusBy := some (d.dt + 1000), rotAt := if k = 1 ∧ rot ≠ 0 then some (d.dt + 1000000 * rot) else none
    ackBy := if p.replay.isEmpty then none else some (d.dt + d.cfgFld n bPort 0x30 0 16) })
  d1.orCsr n bPort 0x1C 1

/-- Masks and standby of a port that has formed (R90): on an N+1 port with every lane accepted the highest index rests
as the standby (DESIGN CHOICE: the lane that rests first); without one, FS075. -/
def Dev.portLanesUp (d : Dev) (n : Nat) : Dev :=
  let w := d.portWidth n
  let p := d.port n
  if d.cfgFld n bPort 0x10 10 1 = 1 ∧ 2 ≤ w then
    if popCount p.accepted 16 = w then
      let m := clearBits p.accepted (2 ^ (w - 1))
      (d.modPort n (fun p => { p with txMask := m, rxMask := m, stby := some (w - 1), stbyUsed := false, rotIdx := w - 1, lanemapDue := true })).laneQuiet
        (d.laneAt n (w - 1))
    else
      ((d.modPort n (fun p => { p with txMask := p.accepted, rxMask := p.accepted, stby := none, stbyUsed := true })).raise0 75 { kind := 3, inst := n })
  else d.modPort n (fun p => { p with txMask := p.accepted, rxMask := p.accepted, stby := none })

/-- The partner manager is told of a port in INIT that holds a valid INIT: DONE is allowed, or withheld (R102, R104, R115). -/
def Dev.pmTell (d : Dev) (n : Nat) : Dev :=
  let p := d.port n
  if p.st != .init || !p.initRx then d
  else if p.partner.isSome then d.modPort n (fun p => { p with doneOk := true })
  else match d.pmAnswer n with
    | 2 => d.modPort n (fun p => { p with doneOk := true, waitPm := false })
    | 1 => d.modPort n (fun p => { p with doneOk := false, doneSent := false, waitPm := true })
    | 3 => (d.modPort n (fun p => { p with doneOk := false, doneSent := false })).raise0 83 { kind := 3, inst := n }
    | _ => (d.modPort n (fun p => { p with doneOk := false, doneSent := false, waitPm := true })).raise0 80 { kind := 3, inst := n }

/-- Both DONEs are there, the device's own on an INIT that has been sent: the port goes UP and its partner is attached or joined (R97, R110). -/
def Dev.portFinish (d : Dev) (n : Nat) : Dev :=
  let p := d.port n
  if p.st != .init || !p.initRx || !p.doneRx || !p.doneSent then d
  else if p.partner.isSome then
    (let d1 := (d.portLanesUp n).portUp n
     match p.partner with | some k => d1.spareCheck k | none => d1)
  else
    match d.pmAnswer n, d.holderOf p.chipid with
    | 2, some k => ((d.portLanesUp n).portUp n).join n k
    | 2, none =>
      (match d.numberFor p.chipid with
       | some k => ((d.portLanesUp n).portUp n).attach n k
       | none => d)
    | _, _ => d.pmTell n

/-- Waiting ports are tried again, the lowest number first (R104; DESIGN CHOICE of order, log 84). -/
def Dev.retryPorts (d : Dev) : Dev :=
  allPorts.foldl (fun (a : Dev) n => if (a.port n).waitPm then (a.pmTell n).portFinish n else a) d

/-- A port of CHIPID `chip` but `n` is lost: the ports that wait to join it are tried again (R104). -/
def Dev.retryOf (d : Dev) (n chip : Nat) : Dev :=
  allPorts.foldl (fun (a : Dev) m =>
    if m != n && (a.port m).waitPm && (a.port m).chipid == chip then (a.pmTell m).portFinish m else a) d

/-- RECLAIM_COMPLETE (R113): every term is back; the census check must hold, else FS001. -/
def Dev.reclaimDone (d : Dev) (k : Nat) : Dev :=
  if !d.reclaimed k then d
  else match d.lawFails k with
  | some (law, v) => d.raiseLaw law k v (d.lawDiff law k v) false
  | none =>
    let p := d.ptn k
    let ports := d.portsOf k
    let d1 := (d.modPtn k (fun p => { chipid := p.chipid, past := p.past })).modMb k (fun _ => {})
    let d2 := ports.foldl (fun (a : Dev) n => a.modPort n (fun q => { q with partner := none })) d1
    let d3 := (d2.orCsr k bPartner 0x38 2).bump 0 bPartner 0x118 1
    let body := [byte k, byte (b2n p.abrupt)] ++ List.replicate 6 0 ++ leBytes 8 p.chipid
    (d3.postAll (64 :: (List.range 64).filter (fun j => d3.present j)) 2 body).retryPorts

/-- Nothing outstanding of a LEAVING partner (R110). -/
def Dev.leaveQuiet (d : Dev) (k : Nat) : Bool :=
  !d.txn.tags.any (fun t => t / 4096 == k) && !d.txn.frags.any (fun f => f.ptn == k) &&
    (List.range 8).all (fun i => (d.pair k i).st == .free || (d.pair k i).st == .posted) && (d.mb k).rejects.isEmpty &&
    (d.portsOf k).all (fun n => (d.port n).replay.isEmpty)

end Sys2Proof.Machine
end

