-- ==== Sys2Proof/Machine/Link.lean ====
section
/-!
DEFINITION. The Cherek link (R68 to R101, R498): bonding, negotiation, INIT, flits, acknowledgement and replay, restripe,
standby and rotation, hold and loss.
-/
namespace Sys2Proof.Machine

/-- Frame time of a port in units of 0.1 ns. -/
def Dev.portFrame10 (d : Dev) (n : Nat) : Nat := frame10 (d.clauseOf (n / 8))
/-- FCNT of the frame sent now: the octet grid fixes its phase (R497), the same on every lane of the port (R71). -/
def Dev.frameNow (d : Dev) (n : Nat) : Nat := d.frameNo (n / 8) % 2048

/-! ### Loss and failure -/

/-- The port is lost (R93): LOST is set and the partner manager told. -/
def Dev.portLost (d : Dev) (n : Nat) (anew : Bool) : Dev :=
  let d1 := (d.orCsr n bPort 0x1C 16).tellLost n anew
  match (d.port n).partner with
  | some k => d1.retryOf n (d.ptn k).chipid
  | none => d1

/-- The port enters FAIL. Link state it holds is lost, without FS072 (DEDUCED from R93 and R95: FAIL keeps none of it). -/
def Dev.portFail (d : Dev) (n cause : Nat) : Dev :=
  let d1 := d.portDown n
  let d2 := if (d.port n).partner.isSome then d1.portLost n false else d1
  (d2.portClear n).modPort n (fun p => { st := .fail, failCause := cause, timer := some (d.dt + 1000000000), rotIdx := p.rotIdx })

/-- A protocol violation (R95). -/
def Dev.violation (d : Dev) (n : Nat) : Dev :=
  if (d.port n).st == .off then d
  else ((d.raise0 73 { kind := 3, inst := n }).orCsr n bPort 0x1C 64).portFail n 7

/-! ### Bonding (R57, R70) -/

/-- A lane fits the order and bonding key of the lanes accepted so far: the order it fixes. -/
def laneFits (p : Port) (x : Lane) (w i : Nat) : Option Bool :=
  let straight := x.farLidx == i
  let reversed := x.farLidx == w - 1 - i
  if (match p.bkey with | some b => b != x.farBkey | none => false) then none
  else match p.order with
    | some false => if straight then some false else none
    | some true => if reversed then some true else none
    | none => if straight then some false else if reversed then some true else none

/-- Accept lane `n + i`, which fits, under its index in the order it fixes (R57). With one lane both orders agree. -/
def Dev.portAccept (d : Dev) (n i : Nat) (r : Bool) : Dev :=
  let x := d.lane (n + i)
  d.modPort n (fun p => { p with
    accepted := p.accepted ||| 2 ^ x.farLidx, bkey := some x.farBkey, order := if d.portWidth n = 1 then some false else some r })

/-- Collect the ACTIVE lanes of a port in BOND; all accepted, it goes to NEG; an inconsistent lane fails it. From the end of the BOND timer
on no lane counts (R98). -/
def Dev.portCollect (d : Dev) (n : Nat) : Dev :=
  if (d.port n).st != .bond || due (d.port n).timer d.dt then d
  else
    let w := d.portWidth n
    let d1 := (List.range w).foldl (fun (a : Dev) i =>
      let p := a.port n
      let x := a.lane (n + i)
      if p.st != .bond || x.st != .active || (p.order.isSome && bit p.accepted (a.laneIx n (n + i))) then a
      else match laneFits p x w i with
        | none => a.portFail n 2
        | some r => a.portAccept n i r) d
    if (d1.port n).st == .bond && decide ((d1.port n).accepted = 2 ^ w - 1) && w != 0 then d1.portNeg n else d1

/-- BOND, then collect what is already ACTIVE. -/
def Dev.portRebond (d : Dev) (n : Nat) (fresh : Bool) : Dev := (d.portBond n fresh).portCollect n

/-- Every port of a departed partner that stands in BOND collects its lanes. -/
def Dev.collectAll (d : Dev) (ns : List Nat) : Dev := ns.foldl (fun a n => a.portCollect n) d

/-- Minimum lanes, and how many lanes of the port are ACTIVE. -/
def Dev.minLanes (d : Dev) (n : Nat) : Nat := d.cfgFld n bPort 0x10 11 5
def Dev.activeLanes (d : Dev) (n : Nat) : Nat := ((d.portLanes n).filter (fun l => (d.lane l).st == .active)).length

/-- To HOLD (R93); with enough lanes ACTIVE, straight on to BOND with the state kept (R97). -/
def Dev.portHold (d : Dev) (n : Nat) (timed : Bool) : Dev :=
  let d1 := (d.portDown n).modPort n (fun p => { p with
    st := .hold, timer := none, holdEnd := if timed then some (p.holdEnd.getD (d.dt + d.holdNs n)) else none
    resume := true, prop := none, farProp := none, plan := none })
  if d.minLanes n ≤ d1.activeLanes n && !due (d1.port n).holdEnd d.dt then d1.portRebond n false else d1

/-! ### Restripe (R91) -/

/-- Lanes that count as present, as a mask: ACTIVE ones (a woken lane is ACTIVE at once here). -/
def Dev.presentMask (d : Dev) (n : Nat) : Nat :=
  maskOf ((List.range (d.portWidth n)).filter (fun i => (d.lane (d.laneAt n i)).st == .active && bit (d.port n).accepted i))

/-- The standby is used, or there is none to use (R90): FS075. -/
def Dev.useStandby (d : Dev) (n : Nat) : Dev :=
  if d.cfgFld n bPort 0x10 10 1 = 1 ∧ 2 ≤ d.portWidth n ∧ !(d.port n).stbyUsed then
    let d1 := match (d.port n).stby with
      | some i => d.laneWake (d.laneAt n i)
      | none => d
    let d2 := (d1.modPort n (fun p => { p with stby := none, stbyUsed := true })).orCsr n bPort 0x1C 32
    let d3 := d2.raise0 75 { kind := 3, inst := n }
    match (d.port n).partner with | some k => d3.spareCheck k | none => d3
  else d

/-- Enter RESTRIPE: FS071 and the first proposal. -/
def Dev.portRestripe (d : Dev) (n : Nat) : Dev :=
  if (d.port n).st != .up then d
  else
    let d1 := (d.portDown n).raise0 71 { kind := 3, inst := n }
    let d2 := d1.useStandby n
    d2.modPort n (fun p => { p with
      st := .restripe, timer := some (d.dt + ceilDiv (64 * d.portFrame10 n) 10), plan := none, planAns := false, planRest := none
      prop := some { mask := d2.presentMask n, eff := (d.frameNow n + 4) % 2048 }, farProp := none, lanemapDue := true })

/-- Frames from `a` to `b` on the circle of 2,048. -/
def fcntAhead (a b : Nat) : Nat := (b + 2048 - a % 2048) % 2048

/-- Both ends propose one mask: with too few lanes the port holds (R91, R97). -/
def Dev.restripeAgree (d : Dev) (n : Nat) : Dev :=
  let p := d.port n
  match p.prop, p.farProp with
  | some a, some b => if a.mask = b.mask && decide (popCount a.mask 16 < d.minLanes n) then d.portHold n true else d
  | _, _ => d

/-- Both ends have sent the same MASK and EFF_FCNT is awaited. -/
def Dev.restripeAgreed (d : Dev) (n : Nat) : Bool :=
  match (d.port n).prop, (d.port n).farProp with
  | some a, some b => a.mask == b.mask
  | _, _ => false

/-- A LANEMAP received in RESTRIPE. -/
def Dev.restripeMap (d : Dev) (n : Nat) (f : LanemapFlit) : Dev :=
  let p := d.port n
  -- lanes it names that rest in QUIET are woken and count as present
  let woken := (List.range (d.portWidth n)).filter (fun i => bit f.mask i && (d.lane (d.laneAt n i)).st == .quiet)
  let d1 := woken.foldl (fun (a : Dev) i => a.laneWake (d.laneAt n i)) d
  let own := (match p.prop with | some x => x.mask | none => 0) ||| maskOf woken
  let eff0 := match p.prop with | some x => x.eff | none => f.eff
  if own = f.mask then
    -- the later of the two values
    let e := if fcntAhead f.now eff0 < 1024 ∧ fcntAhead f.now f.eff < fcntAhead f.now eff0 then eff0 else f.eff
    (d1.modPort n (fun p => { p with prop := some { mask := own, eff := e }, farProp := some { mask := f.mask, eff := f.eff }, lanemapDue := true })).restripeAgree n
  else
    let m := own &&& f.mask
    let soon := (d.frameNow n + 4) % 2048
    let later := fun a b => if fcntAhead f.now a < fcntAhead f.now b ∧ fcntAhead f.now b < 1024 then b else a
    let e := later (later f.eff eff0) soon
    (d1.modPort n (fun p => { p with prop := some { mask := m, eff := e }, farProp := some { mask := f.mask, eff := f.eff }, lanemapDue := true })).restripeAgree n

/-- A STATUS falls due now. -/
def Port.askStatus (p : Port) (nak : Bool) : Port := { p with statusDue := true, statusNak := p.statusNak || nak }

/-- Begin a planned change (R92): EFF_FCNT at least 8 frames ahead. -/
def Dev.planChange (d : Dev) (n mask : Nat) (rest : Option Nat) : Dev :=
  d.modPort n (fun p => { p with
    plan := some { mask := mask, eff := (d.frameNow n + 8) % 2048 }, planAns := false, planRest := rest, lanemapDue := true })

/-- A lane that is ACTIVE, accepted and carries no flits is added by a planned change; on an N+1 port whose standby is
used it becomes the standby (R92). -/
def Dev.addReturned (d : Dev) (n : Nat) : Dev :=
  let p := d.port n
  if p.st != .up || p.plan.isSome then d
  else match (List.range (d.portWidth n)).find? (fun i =>
      (d.lane (d.laneAt n i)).st == .active && bit p.accepted i && !bit p.txMask i && p.stby != some i) with
    | none => d
    | some i =>
      if d.cfgFld n bPort 0x10 10 1 = 1 ∧ p.stbyUsed then
        let d1 := (d.modPort n (fun p => { p with stby := some i, stbyUsed := false })).laneQuiet (d.laneAt n i)
        match p.partner with | some k => d1.spareCheck k | none => d1
      else d.planChange n (p.txMask ||| 2 ^ i) none

/-- EFF_FCNT is reached (R91, R92): striping switches. A planned change that the partner has not answered by then is dropped, and a standby
woken for it stays ACTIVE without flits (DESIGN CHOICE, log 119: the manual says only that the partner must answer). -/
def Dev.effFcnt (d : Dev) (n : Nat) : Dev :=
  let p := d.port n
  if p.st == .restripe then
    (match p.prop, p.farProp with
     | some a, some b =>
       if a.mask != b.mask || decide (popCount a.mask 16 < d.minLanes n) then d
       else
         let d1 := d.modPort n (fun p => { (p.askStatus true) with
           txMask := a.mask, rxMask := a.mask, prop := none, farProp := none, timer := none, st := .up
           nakOut := true, nakBy := some (d.dt + d.cfgFld n bPort 0x30 0 16), statusBy := some (d.dt + 1000) })
         ((d1.orCsr n bPort 0x1C 4).orCsr n bPort 0x1C 1).addReturned n
     | _, _ => d)
  else if p.st == .up then
    (match p.plan with
     | some a =>
       if !p.planAns then d.modPort n (fun p => { p with plan := none, planRest := none })
       else
         let d1 := d.modPort n (fun p => { p with
           txMask := a.mask, rxMask := a.mask, plan := none, planAns := false
           stby := match p.planRest with | some i => some i | none => p.stby
           rotIdx := p.planRest.getD p.rotIdx, planRest := none })
         (match p.planRest with
          | some i => d1.laneQuiet (d.laneAt n i)
          | none => d1).addReturned n
     | none => d)
  else d

/-- The next lane in ascending index order after `i`, among the lanes of a mask. -/
def nextLane (mask i : Nat) : Option Nat :=
  match (List.range 16).find? (fun j => decide (i < j) && bit mask j) with
  | some j => some j
  | none => (List.range 16).find? (bit mask)

/-- PORT_ROTATION (R92): the standby is woken and added, the next lane removed. -/
def Dev.rotate_ (d : Dev) (n : Nat) : Dev :=
  let p := d.port n
  let rot := d.cfgFld n bPort 0x38 0 16
  if p.st != .up || !due p.rotAt d.dt || rot = 0 then d
  else
    let d0 := d.modPort n (fun p => { p with rotAt := some (d.dt + 1000000 * rot) })
    match p.stby, p.plan with
    | some s, none =>
      (match nextLane p.txMask p.rotIdx with
       | some r => (d0.laneWake (d.laneAt n s)).planChange n (clearBits (p.txMask ||| 2 ^ s) (2 ^ r)) (some r)
       | none => d0)
    | _, _ => d0

/-- A LANEMAP flit (R91, R92). -/
def Dev.lanemap (d : Dev) (n : Nat) (f : LanemapFlit) : Dev :=
  let p := d.port n
  if p.st == .restripe then d.restripeMap n f
  else if p.st == .up then
    (match p.plan with
     | some a =>
       if f.mask = a.mask && f.eff = a.eff then d.modPort n (fun p => { p with planAns := true })
       else if f.mask != p.rxMask && decide (fcntAhead f.now f.eff < 8) then (d.portRestripe n).restripeMap n f else d
     | none =>
       if f.mask != p.rxMask && decide (fcntAhead f.now f.eff < 8) then (d.portRestripe n).restripeMap n f else d)
  else d

/-! ### What the lane layer tells the port -/

/-- A lane of the port is lost. In UP whatever lane it is (R91); a port that forms or rests has no row for it (R97). -/
def Dev.linkLaneLost (d : Dev) (l : Nat) : Dev :=
  match d.portOfLane l with
  | none => d
  | some n =>
    let i := d.laneIx n l
    match (d.port n).st with
    | .up => d.portRestripe n
    | .restripe => (d.modPort n (fun p => { p with
        prop := p.prop.map (fun a => { mask := clearBits a.mask (2 ^ i), eff := (d.frameNow n + 4) % 2048 }), lanemapDue := true })).restripeAgree n
    | .bond => d.modPort n (fun p => { p with accepted := clearBits p.accepted (2 ^ i) })
    | _ => d

/-- REST ends when every masked lane is ACTIVE (R96); the deskew is measured anew on the first frames (`Dev.deskew`). -/
def Dev.portUnrest (d : Dev) (n : Nat) : Dev :=
  let p := d.port n
  if p.st == .rest && (List.range (d.portWidth n)).all (fun i => !bit p.txMask i || (d.lane (d.laneAt n i)).st == .active) then d.portUp n else d

/-- A returned lane joins those the port counts on, where it fits their order and key; one that does not carries no flits (DESIGN CHOICE,
log 119: R57 and R70 speak of a port that forms). -/
def Dev.portReturn (d : Dev) (n l : Nat) : Dev :=
  match laneFits (d.port n) (d.lane l) (d.portWidth n) (l - n) with
  | some r => d.portAccept n (l - n) r
  | none => d

/-- A lane of the port has reached ACTIVE; `trained`: through training, with its index and key reported anew. From the end of HOLD_MS on it
does not count (R98). -/
def Dev.linkLaneUp (d : Dev) (l : Nat) (trained : Bool) : Dev :=
  match d.portOfLane l with
  | none => d
  | some n =>
    let p := d.port n
    let i := d.laneIx n l
    -- a standby that comes back through LOCK rests again (R90)
    let d := if trained && p.stby == some i && (p.st == .up || p.st == .rest) then d.laneQuiet l else d
    match p.st with
    | .bond => d.portCollect n
    | .hold => if d.minLanes n ≤ d.activeLanes n && !due p.holdEnd d.dt then d.portRebond n false else d
    | .rest => d.portUnrest n
    | .up => if !trained || bit p.txMask i || p.stby == some i then d else (d.portReturn n l).addReturned n
    | .restripe => if trained then d.portReturn n l else d
    | _ => d

/-- A port that enters UP restripes where a lane of its mask has been lost meanwhile (R91), and takes up lanes that have come (R92). -/
def Dev.upCheck (d : Dev) (n : Nat) : Dev :=
  let p := d.port n
  if p.st != .up then d
  else if (bitList p.txMask 16).any (fun i => !(([.active, .quiet, .deep] : List LaneSt).contains (d.lane (d.laneAt n i)).st)) then d.portRestripe n
  else
    (((d.portLanes n).filter (fun l => (d.lane l).st == .active && !bit p.accepted (d.laneIx n l))).foldl (fun (a : Dev) l => a.portReturn n l) d).addReturned n

/-- A lane changed state: a port in FAIL tries again (R71, R97). -/
def Dev.linkLaneChange (d : Dev) (l : Nat) : Dev :=
  match d.portOfLane l with
  | some n => if (d.port n).st == .fail && d.cfgFld n bPort 0x10 0 1 == 1 then d.portRebond n true else d
  | none => d

/-! ### Enabling and configuring (R69, R83, R101) -/

/-- Receive entries granted on a VC (R83). -/
def Dev.grantOf (d : Dev) (n vc gen : Nat) : Nat :=
  let w := d.portWidth n
  let a := (d.csrAt n bPort 0x20).toNat
  let b := (d.csrAt n bPort 0x24).toNat
  let pick := fun v dflt => if v = 0 then dflt * w else v
  if vc = 0 then pick (bits a 0 16) 256
  else if vc = 1 ∨ gen ≤ 1 then 0
  else if vc = 2 then pick (bits a 16 16) 192
  else pick (bits b 0 16) 64

/-- The sum of a port's grants stays within 512 entries a lane (R83). The grants of VC2 and VC3 count whatever generations the port offers,
and a PORT_CFG write that breaks the limit sets CFG_REFUSED (DESIGN CHOICE, log 119: R83 names neither). -/
def poolsOk (w a b : Nat) : Bool :=
  let pick := fun v dflt => if v = 0 then dflt * w else v
  decide (pick (bits a 0 16) 256 + pick (bits a 16 16) 192 + pick (bits b 0 16) 64 ≤ 512 * w)

/-- ENABLE cleared: lanes disabled, the port OFF and lost unless fresh (R97). -/
def Dev.portDisable (d : Dev) (n : Nat) : Dev :=
  if d.portWidth n = 0 then d
  else
    let v := (d.csrAt n bPort 0x10).toNat
    let d1 := (d.setCsr n bPort 0x10 (word (clearBits v 1))).portDown n
    let d2 := if (d.port n).partner.isSome then d1.portLost n false else d1
    let d3 := (d.portLanes n).foldl (fun (a : Dev) l => a.laneOff l) d2
    (d3.portClear n).modPort n (fun p => { failCause := p.failCause })

/-- A PORT_CFG value in range (R101). -/
def portCfgRange (v : Nat) : Bool :=
  let w := bits v 1 5
  [1, 2, 4, 8, 16].contains w && decide (1 ≤ bits v 6 2) && decide (bits v 6 2 ≤ bits v 8 2) && decide (1 ≤ bits v 11 5 ∧ bits v 11 5 ≤ w)

/-- The port breaks R68, or overlaps a port already configured. -/
def Dev.portClash (d : Dev) (n v : Nat) : Bool :=
  let w := bits v 1 5
  n % w != 0 || decide (144 < n + w) || (w == 16 && d.clauseOf (n / 8) != d.clauseOf (n / 8 + 1)) ||
    (List.range w).any (fun i => match d.portOfLane (n + i) with | some m => m != n | none => false) ||
    allPorts.any (fun m => m != n && decide (n < m) && decide (m < n + w) && d.portWidth m != 0)

/-- ENABLE set on a configured port in OFF: with R68 met its lanes are enabled (R97). -/
def Dev.portEnable (d : Dev) (n : Nat) : Dev :=
  if (d.port n).st != .off || d.portWidth n = 0 then d
  else
    let v := (d.csrAt n bPort 0x10).toNat
    if d.portClash n v then d.orCsr n bPort 0x1C 128
    else
    let d1 := d.setCsr n bPort 0x10 (word (clearBits v 1 + 1))
    let d2 := (d.portLanes n).foldl (fun (a : Dev) l => a.laneEnable l) d1
    d2.portRebond n true

/-- A write of PORT_CFG (R69, R83, R101). Reserved bits ignore it (R473). Outside OFF a change of any other field than ENABLE is refused
with CFG_REFUSED (DESIGN CHOICE, log 119: R69 configures a port in OFF, R100 says it of WIDTH alone). -/
def Dev.portCfg (d : Dev) (n v0 : Nat) : Dev :=
  let v := v0 % 65536
  let old := (d.csrAt n bPort 0x10).toNat
  let refuse := d.orCsr n bPort 0x1C 128
  if n ≥ 144 then d
  else if !(([1, 2, 4, 8, 16] : List Nat).contains (bits v 1 5)) then refuse
  else if !portCfgRange v then d
  else if (d.port n).st != .off then
    (if v / 2 != old / 2 then refuse else if v % 2 = 0 then d.portDisable n else d)
  else if d.portClash n v || !poolsOk (bits v 1 5) (d.csrAt n bPort 0x20).toNat (d.csrAt n bPort 0x24).toNat then refuse
  else
    let d1 := d.setCsr n bPort 0x10 (word (clearBits v 1))
    if v % 2 = 1 then d1.portEnable n else d1

/-! ### Negotiation (R73, R74) and INIT (R79, R82, R93, R94) -/

/-- A valid hello block. -/
def helloValid (h : List Byte) : Bool :=
  let g := leAt h 4 1
  leAt h 0 4 == 0x9E3C51A7 && decide (g / 16 ≤ g % 16) && decide (1 ≤ g / 16) && decide (g % 16 ≤ 3)

/-- The first frame that carries flits, as a hello gives it. -/
def helloAt (h : List Byte) : Option Nat := if bit (leAt h 5 1) 1 then some (leAt h 6 2 % 2048) else none

/-- A hello block received on a lane of port `n` (R73, R74): the first valid one counts, and copies that differ are ignored. From the end of
the NEG timer on none counts (R98). -/
def Dev.hello (d00 : Dev) (n : Nat) (h : List Byte) : Dev :=
  let p0 := d00.port n
  let chip := leAt h 8 8
  let g4 := leAt h 4 1
  if !helloValid h || (p0.hello && (p0.chipid != chip || p0.helloG != g4)) then d00
  else if p0.st == .init && !p0.farOn then d00.modPort n (fun p => { p with farFlitAt := (helloAt h).or p.farFlitAt })
  else if p0.st != .neg || due p0.timer d00.dt then d00
  else
    let g := min (d00.cfgFld n bPort 0x10 8 2) (g4 % 16)
    if g < max (d00.cfgFld n bPort 0x10 6 2) (g4 / 16) then d00.portFail n 5
    else
      -- R94: a CHIPID or a generation other than the one held
      let anew := p0.resume && (p0.chipid != chip || p0.gen != g)
      let ports := match p0.partner with | some k => d00.portsOf k | none => []
      let d := if anew then ((d00.portLost n true).portClear n).collectAll ports else d00
      let d1 := d.modPort n (fun p => { p with
        hello := true, helloG := g4, chipid := chip, gen := g, farFlitAt := (helloAt h).or p.farFlitAt })
      if bit (leAt h 5 1) 0 then
        d1.modPort n (fun p => { p with
          st := .init, timer := none, acked := true, flitAt := some (d.frameNo (n / 8) + 4)
          initRx := false, doneRx := false, doneOk := false, doneSent := false })
      else d1

/-- VCs on which the device sends, of a generation (R80, R82). -/
def sendVcs (gen : Nat) : List Nat := if gen ≤ 1 then [1] else if gen = 2 then [1, 3] else [1, 2, 3]

def initPools (f : InitFlit) : List Nat := [f.pool0, f.pool1, f.pool2, f.pool3]
def initCreds (f : InitFlit) : List Nat := [f.cred0, f.cred1, f.cred2, f.cred3]

/-- Take the grants of a fresh INIT, and grant the device's own entries. -/
def Dev.initFresh (d : Dev) (n : Nat) (f : InitFlit) : Dev :=
  let g := (d.port n).gen
  (List.range 4).foldl (fun (a : Dev) v =>
    (a.modTx n v (fun _ => { pool := (initPools f).getD v 0, held := (initPools f).getD v 0 })).modRx n v (fun _ => { pool := a.grantOf n v g })) d

/-- Carry on under a resume INIT: credits by the CRED fields, replay from EXP_SEQ (R93). -/
def Dev.initResume (d : Dev) (n : Nat) (f : InitFlit) : Dev :=
  let d1 := (List.range 4).foldl (fun (a : Dev) v => a.modTx n v (fun t =>
    { t with held := t.held + ((initCreds f).getD v 0 + 65536 - t.lastCred) % 65536, lastCred := (initCreds f).getD v 0 })) d
  let r := (d.port n).replay.dropWhile (fun x => x.seq != f.expSeq)
  let d2 := if r.isEmpty then d1 else d1.bump n bPort 0x90 1
  d2.modPort n (fun p => { p with replay := r, replayPos := if r.isEmpty then none else some 0, nakOut := false, nakBy := none })

/-- Ask for a replay unless a NAK is outstanding (R87). -/
def Dev.askNak (d : Dev) (n : Nat) : Dev :=
  if (d.port n).nakOut then d
  else d.modPort n (fun p => { (p.askStatus true) with nakOut := true, nakBy := some (d.dt + d.cfgFld n bPort 0x30 0 16) })

/-- A flit whose CRC failed (R78, R87): counted wherever flit framing runs, and asked for again where data flits do. -/
def Dev.crcBad (d : Dev) (n : Nat) : Dev :=
  match (d.port n).st with
  | .init => d.bump n bPort 0x98 1
  | .up | .restripe => (d.bump n bPort 0x98 1).askNak n
  | _ => d

/-- INIT_FLIT_RECEIVED (R97). A resume INIT with other grants than those held counts itself as the far end's INIT of the formation that it
begins (DESIGN CHOICE, log 119: R94 says only that the port forms anew). -/
def Dev.initFlit (d0 : Dev) (n : Nat) (f : InitFlit) : Dev :=
  let p0 := d0.port n
  if !f.crcOk then d0.crcBad n
  else if p0.st != .init then d0
  else
    let vcs := sendVcs p0.gen
    let bad := vcs.any (fun v => decide ((initPools f).getD v 0 < 18)) || (initPools f).any (fun x => decide (16384 < x))
    if f.resume && !p0.resume then d0.violation n
    else if bad then (d0.raise0 74 { kind := 3, inst := n }).portFail n 6
    else if p0.initRx then
      (d0.modPort n (fun p => { p with doneRx := p.doneRx || f.done })).portFinish n
    else
      -- R94: a fresh INIT where resume is expected, or grants other than those held
      let same := (List.range 4).all (fun v => (d0.tx n v).pool == (initPools f).getD v 0)
      let anew := p0.resume && (!f.resume || !same)
      let ports := match p0.partner with | some k => d0.portsOf k | none => []
      let d := if anew then ((d0.portLost n true).portClear n).collectAll ports else d0
      let d1 := if f.resume && !anew then d.initResume n f else d.initFresh n f
      ((d1.modPort n (fun p => { p with initRx := true, doneRx := f.done })).pmTell n).portFinish n

/-! ### Data and STATUS flits (R81, R86 to R89) -/

/-- DATA_FLIT_RECEIVED (R87, R95). In INIT a data flit is not taken (R104), but one that the protocol forbids is a violation there too. -/
def Dev.dataFlit (d0 : Dev) (n : Nat) (f : DataFlit) : Dev :=
  let p := d0.port n
  if p.st != .up && p.st != .restripe && p.st != .init then d0
  else
    let inj := d0.fault.injPort == some n
    let d := if inj then d0.modFault (fun u => { u with injPort := none }) else d0
    if !f.crcOk || inj then d.crcBad n
    else if f.kind = 3 then d.violation n
    else if f.kind ≠ 0 then d
    else if f.vc = 1 ∨ 3 < f.vc ∨ (p.gen ≤ 1 ∧ f.vc ≠ 0) then d.violation n
    else if p.st == .init then d
    else
      let seq := f.seq % 4096
      if seq = p.exp then
        if d.rxGrant n f.vc = 0 then d.violation n
        else
          let d1 := (d.modRx n f.vc (fun r => { r with occ := r.occ + 1 })).bump n bPort 0x88 1
          let d2 := d1.modPort n (fun p => { p with
            exp := (p.exp + 1) % 4096, lastAcc := some seq, nakOut := false, nakBy := none, accSince := p.accSince + 1
            statusDue := p.statusDue || decide (16 ≤ p.accSince + 1)
            statusBy := some (match p.statusBy with | some t => min t (d.dt + 100) | none => d.dt + 100) })
          -- every flit is taken as it arrives, but for those of an admitted ENQUEUE (R84, R121)
          if f.vc = 2 && (d2.arr n).left ≠ 0 then d2.enqFlit n f.payload else d2.rxFree n f.vc 1
      else if 1 ≤ (p.exp + 4096 - seq) % 4096 ∧ (p.exp + 4096 - seq) % 4096 ≤ 2047 then d
      else d.askNak n

/-- Retrain every lane of a port at the replay limit (R89). -/
def Dev.replayLimit (d : Dev) (n : Nat) : Dev :=
  let d1 := (d.raise0 70 { kind := 3, inst := n }).orCsr n bPort 0x1C 8
  let d2 := (d1.portBond n false).modPort n (fun p => { p with replayCount := 0 })
  (d.portLanes n).foldl (fun (a : Dev) l => a.laneRetrain l) d2

/-- Start a replay from the flit at place `i` of the buffer (R88, R89). The time without an advance of ACK_SEQ runs on over a replay that a
NAK asks for (`timed` false). -/
def Dev.startReplay (d : Dev) (n i : Nat) (timed : Bool) : Dev :=
  let d1 := (d.bump n bPort 0x90 1).modPort n (fun p => { p with
    replayPos := if i < p.replay.length then some i else none, replayCount := p.replayCount + 1
    ackBy := if p.replay.isEmpty then none else if timed then some (d.dt + d.cfgFld n bPort 0x30 0 16) else p.ackBy })
  if d.cfgFld n bPort 0x30 16 4 ≤ (d1.port n).replayCount then d1.replayLimit n else d1

/-- The STATUS acknowledges flits up to `a` (R88). One that lies beyond the flits sent acknowledges every flit in the buffer (DESIGN CHOICE,
log 119: the manual is silent). -/
def Dev.ackFlits (d : Dev) (n a : Nat) : Dev :=
  let p := d.port n
  let k := (p.replay.filter (fun x => decide ((a + 4096 - x.seq) % 4096 < 2048))).length
  if k = 0 then d
  else d.modPort n (fun p =>
    let r := p.replay.drop k
    { p with
      replay := r, replayCount := 0
      replayPos := match p.replayPos with | some i => if i < k then (if r.isEmpty then none else some 0) else some (i - k) | none => none
      ackBy := if r.isEmpty then none else some (d.dt + d.cfgFld n bPort 0x30 0 16) })

/-- STATUS_FLIT_RECEIVED (R81, R88). -/
def Dev.statusFlit (d : Dev) (n : Nat) (f : StatusFlit) : Dev :=
  let p := d.port n
  if p.st != .up && p.st != .restripe && p.st != .init then d
  else if !f.crcOk then d.crcBad n
  else if f.ctype = 0 ∨ 3 < f.ctype then d.violation n
  else if p.st == .init then d
  else
    let creds := [f.cred0, f.cred1, f.cred2, f.cred3]
    let d1 := [1, 2, 3].foldl (fun (a : Dev) v => a.modTx n v (fun t =>
      { t with held := t.held + (creds.getD v 0 + 65536 - t.lastCred) % 65536, lastCred := creds.getD v 0 % 65536 })) d
    let d2 := if f.ackV then d1.ackFlits n (f.ackSeq % 4096) else d1
    if !f.nak then d2
    else
      let q := d2.port n
      let want := if f.ackV then (f.ackSeq + 1) % 4096 else 0
      match q.replay.findIdx? (fun x => x.seq == want) with
      | some i => d2.startReplay n i false
      | none => if want = q.txSeq then d2 else d2.violation n

/-- REPLAY_TIMEOUT (R88). -/
def Dev.replayTimeout (d : Dev) (n : Nat) : Dev :=
  let p := d.port n
  if p.st == .up && due p.ackBy d.dt && !p.replay.isEmpty then d.startReplay n 0 true else d

/-- NAK_REPEAT_TIMER (R87). -/
def Dev.nakRepeat (d : Dev) (n : Nat) : Dev :=
  let p := d.port n
  if p.st == .up && p.nakOut && due p.nakBy d.dt then
    d.modPort n (fun p => { (p.askStatus true) with nakBy := some (d.dt + d.cfgFld n bPort 0x30 0 16) })
  else d

/-! ### Flits in frames (R49, R72, R74) -/

/-- Bytes of a flit, CRC included, and flit slots of a lane frame. -/
def flitSize (gen : Nat) : Nat := if gen ≤ 1 then 64 else 128
def flitSlots (gen : Nat) : Nat := if gen ≤ 1 then 10 else 5

/-- Port lane indexes that carry flits from the far end. In RESTRIPE the receiver reads each lane on its own (R91). -/
def Dev.rxLanes (d : Dev) (n : Nat) : List Nat :=
  let p := d.port n
  match p.st with
  | .up => bitList p.rxMask 16
  | .init => if p.farOn then bitList p.accepted 16 else []
  | .restripe => List.range (d.portWidth n)
  | _ => []

/-- KIND and CTYPE of a flit, as the command that brings it names it: 0 data (idle flits and KIND 3 among them), 1 STATUS (with the reserved
CTYPEs), 2 INIT, 3 LANEMAP. -/
def flitRow (b : List Byte) : Nat :=
  if leAt b 0 2 / 4096 % 4 = 1 then (if leAt b 2 1 = 2 then 2 else if leAt b 2 1 = 3 then 3 else 1) else 0

/-- Take flit `j` of the frame set last received on port `n` (R72), once, where it is of the row's kind or its CRC fails: `f` gets whether
the CRC holds and the frame was good (R49, R72), the FCNT, the flit. -/
def Dev.takeFlit (d : Dev) (n j row : Nat) (f : Dev → Bool → Nat → List Byte → Dev) : Dev :=
  let as := d.rxLanes n
  match as[j % as.length]? with
  | none => d
  | some i =>
    let l := d.laneAt n i
    let s := j / as.length
    let x := d.lin l
    let g := (d.port n).gen
    let b := slice x.payload (flitSize g * s) (flitSize g)
    let ok := !x.bad && leAt b (flitSize g - 4) 4 == crc32 (b.take (flitSize g - 4))
    if !x.v || decide (flitSlots g ≤ s) || bit x.used s || (ok && flitRow b != row) then d
    else f (d.modLin l (fun x => { x with used := x.used ||| 2 ^ s })) ok x.fcnt b

def dataOf (g : Nat) (ok : Bool) (b : List Byte) : DataFlit :=
  let h := leAt b 0 2
  { crcOk := ok, kind := h / 4096 % 4, seq := h % 4096, vc := h / 16384, payload := slice b 2 (flitSize g - 6) }
def statusOf (ok : Bool) (b : List Byte) : StatusFlit :=
  { crcOk := ok, ctype := leAt b 2 1, ackV := bit (leAt b 3 1) 0, nak := bit (leAt b 3 1) 1, ackSeq := leAt b 4 2 % 4096
    cred0 := leAt b 6 2, cred1 := leAt b 8 2, cred2 := leAt b 10 2, cred3 := leAt b 12 2 }
def initOf (ok : Bool) (b : List Byte) : InitFlit :=
  { crcOk := ok, resume := bit (leAt b 3 1) 0, done := bit (leAt b 3 1) 1, nextSeq := leAt b 4 2 % 4096, expSeq := leAt b 6 2 % 4096
    pool0 := leAt b 8 2, pool1 := leAt b 10 2, pool2 := leAt b 12 2, pool3 := leAt b 14 2
    cred0 := leAt b 16 2, cred1 := leAt b 18 2, cred2 := leAt b 20 2, cred3 := leAt b 22 2 }
def lanemapOf (ok : Bool) (now : Nat) (b : List Byte) : LanemapFlit :=
  { crcOk := ok, stby := leAt b 3 1 % 16, stbyV := bit (leAt b 3 1) 4, mask := leAt b 4 2, eff := leAt b 6 2 % 2048, now := now }

/-- The receiver deskews a port's lanes by the FCNT and the arrival of the last good frame of each: more than three frame times between two
fails the port (R71). DT counts whole nanoseconds, so one more is allowed (DESIGN CHOICE, log 120). -/
def frameSkew (ft : Nat) (a b : LaneIn) : Nat :=
  let c : Int := 2048 * ft
  let r := (((a.fcnt : Int) - b.fcnt) * ft - 10 * ((a.dt : Int) - b.dt)) % c
  (min r (c - r)).toNat

def Dev.deskew (d : Dev) (n : Nat) : Dev :=
  let p := d.port n
  if !(([.neg, .init, .up, .restripe] : List PortSt).contains p.st) then d
  else
    let ft := d.portFrame10 n
    let xs := ((d.portLanes n).filter (fun l => bit p.accepted (d.laneIx n l))).map (fun l => d.lin l)
    let ys := xs.filter (fun x => x.fv)
    if ys.any (fun a => ys.any (fun b => decide (3 * ft + 10 < frameSkew ft a b))) then d.portFail n 3 else d

/-- A good frame has come on lane `l` of a port: deskew, and at the far end's FLIT_AT the receiver switches to flit framing (R74). -/
def Dev.portFrame (d : Dev) (l : Nat) : Dev :=
  match d.portOfLane l with
  | none => d
  | some n =>
    let d1 := d.deskew n
    let p := d1.port n
    match p.farFlitAt with
    | some a =>
      if p.st == .init && !p.farOn && (d1.lin l).fv && decide (((d1.lin l).fcnt + 2048 - a) % 2048 < 1024) then
        d1.modPort n (fun p => { p with farOn := true }) else d1
    | none => d1

end Sys2Proof.Machine
end

