-- ==== Sys2Proof/Machine/Lane.lean ====
section
/-!
DEFINITION. The commands of lanes and octets (R43 to R67, R497).
-/
namespace Sys2Proof.Machine

/-- States in which the link layer counts on a lane. -/
def LaneSt.inService (s : LaneSt) : Bool := s == .active || s == .quiet || s == .deep

/-- Tell the link layer how lane `l` changed from `d` to `d1`: lost, up, or changed (R59, R97). A DEEP exit is no loss. -/
def Dev.laneNotify (d d1 : Dev) (l : Nat) : Dev :=
  let a := (d.lane l).st
  let b := (d1.lane l).st
  if a == b then d1
  else
    let d2 :=
      if a.inService && !b.inService && !(a == .deep && b == .lock) then d1.linkLaneLost l
      else if b == .active then d1.linkLaneUp l (a == .capx)
      else d1
    d2.linkLaneChange l

/-- Run a lane transition and tell the link layer. -/
def Dev.laneDo (d : Dev) (l : Nat) (f : Dev → Dev) : Dev := (d.laneNotify (f d) l).gapsNow l

/-- A timer of a lane in state `s` has expired. -/
def Dev.laneDue (d : Dev) (l : Nat) (s : LaneSt) : Bool := (d.lane l).st == s && due (d.lane l).timer d.dt

/-! ### Octets -/

/-- A write of OCT_CFG (R43, R45): a reserved clause is ignored; with a lane not OFF, CFG_REFUSED; a clause change
restarts the PLL. -/
def Dev.octCfg (d : Dev) (l v : Nat) : Dev :=
  let o := l / 8
  let c := v % 8
  if 144 ≤ l ∨ 4 < c then d
  else if !(List.range 8).all (fun i => (d.lane (8 * o + i)).st == .off) then d.orCsr (8 * o) bLane 0x14 4
  else
    let was := d.clauseOf o
    let d1 := d.setCsr (8 * o) bLane 0x10 (word (v % 16))
    let d2 := if c = was then d1 else d1.modOct o (fun x => { x with pllOn := c != 0, pllLock := false, onAt := d.dt })
    (List.range 8).foldl (fun (a : Dev) i => a.prbsSync (8 * o + i)) d2

/-- The octet PLL loses lock (R59): FS063, and every lane not OFF and not FAIL goes to DETECT. -/
def Dev.octLoss (d : Dev) (o : Nat) : Dev :=
  if !(d.oct o).pllLock then d
  else
    let d1 := (d.modOct o (fun x => { x with pllLock := false })).raise0 63 { kind := 2, inst := o }
    (List.range 8).foldl (fun (a : Dev) i =>
      let l := 8 * o + i
      let s := (a.lane l).st
      if s == .off || s == .fail then a else a.laneDo l (fun x => x.laneDetect l)) d1

def execOctCfgWrite (p : Path) (v : Word) (s : State) : Host.Outcome State Fault Refusal :=
  guardNext (pathOk p) (fun d => if d.mayWrite p then d.octCfg (d.selOf p bLane) v.toNat else d) s
def execOctetPllLoss (o : Nat) (s : State) : Host.Outcome State Fault Refusal :=
  guardNext (octOk o) (fun d => d.octLoss o) s

/-! ### Requests -/

def execLaneEnable (l : Nat) (s : State) : Host.Outcome State Fault Refusal :=
  guardNext (laneOk l) (fun d => d.laneDo l (fun x => x.laneEnable l)) s
def execLaneDisable (l : Nat) (s : State) : Host.Outcome State Fault Refusal :=
  guardNext (laneOk l) (fun d => d.laneDo l (fun x => x.laneOff l)) s
def execLaneReqQuiet (l : Nat) (s : State) : Host.Outcome State Fault Refusal :=
  guardNext (laneOk l) (fun d => d.laneDo l (fun x => x.laneQuiet l)) s
def execLaneReqDeep (l : Nat) (s : State) : Host.Outcome State Fault Refusal :=
  guardNext (laneOk l) (fun d => d.laneDo l (fun x => x.laneDeep l)) s
def execLaneReqActive (l : Nat) (s : State) : Host.Outcome State Fault Refusal :=
  guardNext (laneOk l) (fun d => d.laneDo l (fun x => x.laneWake l)) s
def execLaneRetrain (l : Nat) (s : State) : Host.Outcome State Fault Refusal :=
  guardNext (laneOk l) (fun d => d.laneDo l (fun x => x.laneRetrain l)) s
def execFarEndSignalDetected (l : Nat) (s : State) : Host.Outcome State Fault Refusal :=
  guardNext (laneOk l) (fun d => d.laneDo l (fun x => x.laneWake l)) s

/-- Taps coded as TX_FIR holds them (R66). -/
def tapsOfWord (v : Nat) : Taps :=
  { pre2 := toSigned 6 (bits v 0 6), pre1 := toSigned 6 (bits v 8 6), main := (bits v 16 6 : Nat), post1 := toSigned 6 (bits v 24 6) }
/-- TX_FIR as read. -/
def tapsWord (t : Taps) : Nat :=
  ofSigned 6 t.pre2 + ofSigned 6 t.pre1 * 256 + ofSigned 6 t.main * 65536 + ofSigned 6 t.post1 * 16777216

/-- A write of TX_FIR (R66): with FIR_MANUAL 1 and taps that meet R50. -/
def Dev.txFir (d : Dev) (l v : Nat) : Dev :=
  let t := tapsOfWord v
  if l < 144 ∧ fld (d.laneCtrl l) 7 1 = 1 ∧ tapsOk (clausePam4 (d.clauseOf (l / 8))) t then d.modLane l (fun x => { x with taps := t })
  else d

def execTxFirWrite (p : Path) (v : Word) (s : State) : Host.Outcome State Fault Refusal :=
  guardNext (pathOk p) (fun d => if d.mayWrite p then d.txFir (d.selOf p bLane) v.toNat else d) s

/-! ### Coming up -/

/-- A receiver-detect pulse (R59): two in a row that sense the far end, with the octet PLL locked, begin training. -/
def Dev.detectPulse (d0 : Dev) (l : Nat) (sensed : Bool) : Dev :=
  if !d0.laneDue l .detect then d0
  else
    let d := d0.octLocked (l / 8)
    let n := if sensed then (d.lane l).pulses + 1 else 0
    if 2 ≤ n ∧ (d.oct (l / 8)).pllLock then d.laneTrain l
    else d.modLane l (fun x => { x with pulses := n, timer := some (d.dt + 1000000) })

def execDetectPulse (l : Nat) (sensed : Bool) (s : State) : Host.Outcome State Fault Refusal :=
  guardNext (laneOk l) (fun d => d.laneDo l (fun x => x.detectPulse l sensed)) s
def execTrainingFrameReceived (l : Nat) (ctl inv : Word) (inverted adapted : Bool) (s : State) : Host.Outcome State Fault Refusal :=
  guardNext (laneOk l) (fun d => d.laneDo l (fun x => x.trainFrame l ctl inv inverted adapted)) s
def execTrainTimerExpiry (l : Nat) (s : State) : Host.Outcome State Fault Refusal :=
  guardNext (laneOk l) (fun d => d.laneDo l (fun x => if x.laneDue l .train then x.laneFail l 1 else x)) s

/-- The LOCK timer expires: to TRAIN with the stored coefficients dropped, from DEEP; else to FAIL. -/
def Dev.lockExpiry (d : Dev) (l : Nat) : Dev :=
  if !d.laneDue l .lock then d else if (d.lane l).fromDeep then d.laneTrain l else d.laneFail l 2

def execLockTimerExpiry (l : Nat) (s : State) : Host.Outcome State Fault Refusal :=
  guardNext (laneOk l) (fun d => d.laneDo l (fun x => x.lockExpiry l)) s
def execCapxTimerExpiry (l : Nat) (s : State) : Host.Outcome State Fault Refusal :=
  guardNext (laneOk l) (fun d => d.laneDo l (fun x => if x.laneDue l .capx then x.laneFail l 3 else x)) s
def execLossOfSignal (l : Nat) (s : State) : Host.Outcome State Fault Refusal :=
  guardNext (laneOk l) (fun d => d.laneDo l (fun x => if (x.lane l).st == .active then x.laneDetect l else x)) s

/-- 10 ms in FAIL: another try, or after 8 failures in a row the lane waits and FS060 is raised. -/
def Dev.failRetry (d : Dev) (l : Nat) : Dev :=
  if !d.laneDue l .fail || (d.lane l).waiting then d
  else if (d.lane l).failCount < 8 then d.laneDetect l
  else ((d.modLane l (fun x => { x with waiting := true, timer := none })).prbsSync l).raise0 60 { kind := 1, inst := l }

def execFailRetryTimer (l : Nat) (s : State) : Host.Outcome State Fault Refusal :=
  guardNext (laneOk l) (fun d => d.laneDo l (fun x => x.failRetry l)) s

/-- A DEEP exit that has not reached ACTIVE in 100 µs (R61). -/
def Dev.deepExit (d : Dev) (l : Nat) : Dev :=
  let x := d.lane l
  if due x.deepBy d.dt && (x.st == .lock || x.st == .capx) then d.laneTrain l else d

def execDeepExitTimeout (l : Nat) (s : State) : Host.Outcome State Fault Refusal :=
  guardNext (laneOk l) (fun d => d.laneDo l (fun x => x.deepExit l)) s

/-- After 1 µs in QUIET or DEEP the lane's gap is announced (R52). -/
def Dev.laneGapNow (d : Dev) (l : Nat) : Dev :=
  let x := d.lane l
  if (x.st == .quiet || x.st == .deep) && due (x.restAt.map (· + 1000)) d.dt then
    (d.modLane l (fun x => { x with gap := true })).laneSend l
  else d

def execLaneGapAnnounce (l : Nat) (s : State) : Host.Outcome State Fault Refusal :=
  guardNext (laneOk l) (fun d => d.laneGapNow l) s
def execErrWindowEnd (l : Nat) (s : State) : Host.Outcome State Fault Refusal :=
  guardNext (laneOk l) (fun d => d.laneWindow l) s

/-! ### Lane frames (R46 to R49, R55 to R59, R63) -/

/-- Count one codeword (R62): corrected symbols only with FEC on (R48); more than 15 errors cannot be corrected. -/
def Dev.countCw (d : Dev) (l symErrs : Nat) (fec : Bool) : Dev :=
  let d1 := d.bump l bLane 0x50 1
  if 15 < symErrs then d1.bump l bLane 0x48 1 else if fec then d1.bump l bLane 0x40 symErrs else d1

/-- A codeword in LOCK: eight decodable ones in a row move the lane to CAPX. -/
def Dev.lockFrame (d : Dev) (l symErrs : Nat) : Dev :=
  let x := d.lane l
  let n := if symErrs ≤ 15 then x.goodCw + 1 else 0
  if 8 ≤ n then (d.modLane l (fun y => { y.goTo .capx (some (d.dt + 1000 * d.cfgFld l bLane 0x74 0 16)) with deepBy := x.deepBy })).laneSend l
  else d.modLane l (fun y => { y with goodCw := n })

/-- The error counts of a frame in ACTIVE: thresholds, and 16 uncorrectable codewords in a row (R59, R63). Answers
whether the lane retrains. -/
def Dev.frameErrs (d : Dev) (l symErrs : Nat) (fec : Bool) : Dev × Bool :=
  let d0 := d.laneWindow l
  let x := d0.lane l
  let bad := decide (15 < symErrs)
  let u := x.winUncorr + b2n bad
  let c := if fec && !bad then x.winCorr + symErrs else x.winCorr
  let run := if bad then x.uncorrRun + 1 else 0
  let d1 := d0.modLane l (fun x => { x with winUncorr := u, winCorr := c, uncorrRun := run })
  let d2 := if x.winCorr < x.limC ∧ x.limC ≤ c then (d1.orCsr l bLane 0x28 4).raise0 62 { kind := 1, inst := l } else d1
  let ovr := bad && decide (x.limU ≤ u)
  let d3 := if ovr then d2.raise0 61 { kind := 1, inst := l } else d2
  (d3, ovr || decide (16 ≤ run))

/-- A good frame's control field (R47, R58, R60): LIDX, FCNT, LSIG. -/
def Dev.frameCtl (d : Dev) (l ctl : Nat) : Dev :=
  let x := d.lane l
  let miss := if bits ctl 0 4 = x.farLidx then 0 else x.lidxMiss + 1
  let d1 := d.modLane l (fun x => { x with lidxMiss := miss })
  let sig := bits ctl 15 3
  if sig = 3 ∨ 8 ≤ miss then d1.laneRetrainNow l
  else if sig = 1 then d1.laneQuiet l
  else if sig = 2 then d1.laneDeep l
  else d1

/-- The link layer gets a frame's payload (R49): marked bad, it brings no FCNT. -/
def LaneIn.take (x : LaneIn) (bad : Bool) (ctl now : Nat) (payload : List Byte) : LaneIn :=
  if bad then { x with v := true, bad := true, payload := payload, used := 0 }
  else { x with v := true, fv := true, fcnt := bits ctl 4 11, dt := now, bad := false, payload := payload, used := 0 }

/-- LANE_STATUS.FEC_ON and REVERSED (R66): decoding is in use while codewords are received; the order is that of the lane's port (R57). -/
def Dev.fecShown (d : Dev) (l : Nat) : Bool := (([.lock, .capx, .active, .quiet] : List LaneSt).contains (d.lane l).st) && d.fecOn l
def Dev.laneReversed (d : Dev) (l : Nat) : Bool := match d.portOfLane l with | some n => (d.port n).order == some true | none => false

/-- LANE_FRAME_RECEIVED: `symErrs` symbol errors in the codeword; its message as it stands behind the FEC, still scrambled (R46). In LOCK
and CAPX a frame at or after the end of a running timer does not count (R258). With FEC off the frame goes on as it arrived (R48). -/
def Dev.laneFrame (d00 : Dev) (l symErrs msg : Nat) : Dev :=
  let x := d00.lane l
  let h := (d00.lin l).scr
  let m := descramble h msg
  let ctl := m % 2 ^ 20
  let payload := leBytes 640 (m / 2 ^ 20)
  let fec := d00.fecOn l
  let bad := fec && decide (15 < symErrs)
  let late := due x.timer d00.dt || due x.deepBy d00.dt
  let d0 := d00.modLin l (fun y => { y with scr := scrTail h msg })
  match x.st with
  | .lock =>
    let d1 := d0.countCw l symErrs fec
    if late then d1 else d1.lockFrame l symErrs
  | .capx =>
    let d1 := d0.countCw l symErrs fec
    if late || bad then d1 else d1.capBlock l payload
  | .active =>
    let r := (d0.countCw l symErrs fec).frameErrs l symErrs fec
    if r.2 then r.1.laneRetrainNow l
    else
      let d1 := (r.1.modLin l (fun y => y.take bad ctl d0.dt payload)).laneAdapt l
      if bad then d1 else d1.frameCtl l ctl
  | .quiet =>
    let d1 := d0.countCw l symErrs fec
    if bits ctl 15 3 = 2 ∧ !bad then d1.laneDeep l else d1
  | _ => d00

/-- The message of a frame from the bits in the places of its control field and of its payload (R46). -/
def lineMessage (ctl payload : Nat) : Nat := ctl % 2 ^ 20 + 2 ^ 20 * payload

def execLaneFrameReceived (l symErrs ctl payload : Nat) (s : State) : Host.Outcome State Fault Refusal :=
  guardNext (laneOk l) (fun d => (d.laneDo l (fun x => x.laneFrame l symErrs (lineMessage ctl payload))).portFrame l) s

/-! ### PRBS (R65) -/

/-- A LANE_PRBS command counts the bits checked, and notes a loss of lock. -/
def Lane.jobBit (x : Lane) (lost : Bool) : Lane :=
  { x with job := x.job.map (fun j => { j with bits := j.bits + 1, lost := j.lost || lost }) }

/-- One received bit of the checker: `e` where it is in error. -/
def Dev.prbsBit (d : Dev) (l : Nat) (e : Bool) : Dev :=
  let x := d.lane l
  if x.chkRun = 0 then d
  else if !x.prbsLock then
    (let g := if e then 0 else x.prbsGood + 1
     d.modLane l (fun x => if 64 ≤ g then { x with prbsLock := true, prbsGood := 0, prbsErrs := [] } else { x with prbsGood := g }))
  else
    let ages := (x.prbsErrs.map (· + 1)).filter (fun a => decide (a < 1024))
    if !e then d.modLane l (fun x => ({ x with prbsErrs := ages }).jobBit false)
    else
      let d1 := d.bump l bLane 0x58 1
      if 63 ≤ ages.length then d1.modLane l (fun x => ({ x with prbsLock := false, prbsGood := 0, prbsErrs := [] }).jobBit true)
      else d1.modLane l (fun x => ({ x with prbsErrs := 0 :: ages }).jobBit false)

def execPrbsBitsReceived (l : Nat) (errs : List Bool) (s : State) : Host.Outcome State Fault Refusal :=
  guardNext (laneOk l) (fun d => errs.foldl (fun (a : Dev) e => a.prbsBit l e) d) s

end Sys2Proof.Machine
end

