-- ==== Sys2Proof/Machine/FragTx.lean ====
section
/-!
DEFINITION. What the device sends (R72 to R88, R106, R123, R141 to R144, R302): the port a response travels on, the
packet of a fragment, and the flit of each slot.
-/
namespace Sys2Proof.Machine

/-! ### The port of a response (R106) -/

/-- A port that still carries what belongs to partner `k` (DEDUCED: RESTRIPE counts with UP, HOLD and REST). -/
def Dev.portHolds (d : Dev) (n k : Nat) : Bool :=
  let p := d.port n
  p.partner == some k && (p.st == .up || p.st == .restripe || p.st == .hold || p.st == .rest)

/-- The lowest UP port of partner `k` of at least a generation. -/
def Dev.portFor (d : Dev) (k gen : Nat) : Option Nat :=
  (d.portsOf k).find? (fun n => (d.port n).st == .up && decide (gen ≤ (d.port n).gen))

/-- The port of something that came in on port `n`. -/
def Dev.respPort (d : Dev) (k n gen : Nat) : Option Nat := if d.portHolds n k then some n else d.portFor k gen

/-- Generation an answer to an opcode byte needs. -/
def opcGen (c : Nat) : Nat :=
  if c ≤ 2 then 1 else if c = 4 ∨ (0x40 ≤ c ∧ c < 0x60) then 3 else 2

/-- Discard what is left of a response: staging and cells are freed, and its tag (R106, R179). -/
def Dev.discardResp (d : Dev) (f : Frag) : Dev :=
  let fs := d.txn.frags.filter (fun g => g.id == f.id)
  let d1 := fs.foldl (fun (a : Dev) g => a.unreserve g.ptn g.rsv g.shr) d
  let d2 := d1.modTxn (fun t => { t with frags := t.frags.filter (fun g => g.id != f.id) })
  let d3 : Dev := match d2.req? f.id with
    | none => d2.freeTag f.ptn f.tag
    | some (r : Req) =>
      if r.opc == Opc.dequeue then
        let d4 := r.frags.foldl (fun (a : Dev) (g : FragSt) => if g.doneDt.isSome && g.pend == 0 && g.out == 0 then a else a.unreserve r.ptn g.rsv g.shr) d2
        let d5 := d4.modTxn (fun t => { t with acc := t.acc.filter (fun a => match a.for_ with | .req i _ => i != r.id | _ => true) })
        ((d5.freeCells (r.cells.map (·.1))).dropReq r.id).freeTag r.ptn r.tag
      else d2.modReq r.id (fun r => { r with depart := true })
  d3.rspDropped f.ptn

/-- The packet in transmission on a VC of a port. -/
def PortTx.pkt (t : PortTx) (vc : Nat) : Option TxPkt := if vc = 1 then t.p1 else if vc = 2 then t.p2 else t.p3
def PortTx.setPkt (t : PortTx) (vc : Nat) (x : Option TxPkt) : PortTx :=
  if vc = 1 then { t with p1 := x } else if vc = 2 then { t with p2 := x } else { t with p3 := x }

/-- One staged fragment against R106: kept, moved to another port with the rest of its response, or discarded. -/
def Dev.rerouteOne (d : Dev) (f : Frag) : Dev :=
  if !d.txn.frags.any (fun g => g.id == f.id && g.fidx == f.fidx) then d
  else if f.begun then
    -- begun: its packet has been dropped with its port's link state
    (if ((d.ptx f.port).pkt f.vc).map (·.ref) == some (.frag f.id f.fidx) then d else d.discardResp f)
  else if d.portHolds f.port f.ptn then d
  else
    -- the response has begun once a fragment of it has
    let started := (d.req? f.id).any (·.sent) || d.txn.frags.any (fun g => g.id == f.id && g.begun)
    match (if started then none else d.portFor f.ptn (opcGen f.opc)) with
    | some m =>
      (d.modTxn (fun t => { t with frags := t.frags.map (fun g => if g.id = f.id then { g with port := m } else g) })).modReq f.id
        (fun r => { r with port := m })
    | none => d.discardResp f

/-- Mailbox responses without a usable port are discarded in the same way. -/
def Dev.reroutePairs (d : Dev) (k : Nat) : Dev :=
  (List.range 8).foldl (fun (a : Dev) i =>
    let p := a.pair k i
    match p.port with
    | some n =>
      if p.st == .done && !a.portHolds n k then
        (match a.portFor k 2 with
         | some m => a.modPair k i (fun p => { p with port := some m })
         | none => (a.modPair k i (fun _ => {})).rspDropped k)
      else a
    | none => a) d

/-- Apply R106 to every staged fragment, and to the mailbox responses of the partners present. -/
def Dev.reroute (d : Dev) : Dev :=
  let d1 := d.txn.frags.foldl (fun a f => a.rerouteOne f) d
  ((List.range 64).filter d1.present).foldl (fun a k => a.reroutePairs k) d1

/-! ### Packets -/

/-- The header of R123. -/
def respHeader (opc status tag last late fidx dlen doneDt aux : Nat) : List Byte :=
  [byte opc, byte status] ++ leBytes 2 (tag % 4096 + 4096 * last + 8192 * late) ++ leBytes 2 (fidx % 64) ++ leBytes 2 dlen ++
    leBytes 4 doneDt ++ leBytes 4 aux

/-- The packet of a fragment. -/
def Frag.packet (f : Frag) : List Byte :=
  respHeader f.opc f.status.code f.tag (b2n f.last) (b2n f.late) f.fidx f.data.length f.doneDt f.aux ++ f.data

/-- A packet sent on VC3 (R123, R302). -/
def vc3Packet (opc aux : Nat) (body : List Byte) : List Byte := respHeader opc 0 0 0 0 0 body.length 0 aux ++ body

/-- An event entry without its padding (R310). -/
def Event.bytes (e : Event) : List Byte :=
  leBytes 2 e.type ++ [byte e.body.length, 0] ++ leBytes 2 e.eseq ++ [0, 0] ++ leBytes 8 e.dt ++ e.body

/-- Where the staging's bytes begin among the places of SPACE 3, after the queue state store (DESIGN CHOICE, log 128). -/
def stagingAt : Nat := 0x400000

/-- Place of a fragment's first byte in staging: after the bytes of the fragments before it. -/
def Dev.stagedAt (d : Dev) (f : Frag) : Nat :=
  stagingAt + ((d.txn.frags.takeWhile (fun g => !(g.id == f.id && g.fidx == f.fidx))).map (fun g => g.data.length)).sum

/-- Read staged data for its errors (R245, R246), as SOURCE `src`: corrected bytes are counted and rewritten, an uncorrectable one zeroes its
64 bytes, makes the fragment UNCORR and raises FS133. Beyond two errors in a byte a free value decides. -/
def Dev.stagedRead (d : Dev) (f : Frag) (src : Nat) : Dev × Frag :=
  let at_ := d.stagedAt f
  f.errs.foldl (fun (acc : Dev × Frag) e =>
    let (a, g) := acc
    let bad := fun (a : Dev) =>
      let blk := e.1 / 64
      (((((a.elogWrite { addr := (at_ + e.1) / 8 * 8, space := 3, kind := 1, source := src, sbyte := (at_ + e.1) % 8, partner := some f.ptn }).bump
          0 bEcc 0x318 1).orCsr 0 bEcc 0x40 4).raise0 133 {}),
        { g with status := .uncorr, data := overlay g.data (64 * blk) (List.replicate 64 0)
                 aux := if f.opc = 1 ∨ f.opc = 4 then g.aux ||| 2 ^ blk else g.aux })
    if f.data.length ≤ e.1 then acc
    else match hamDecode e.2 with
      | some (.good, _) => acc
      | some (.corrected, _) => ((a.bump 0 bEcc 0x310 1).ceCount 64, g)
      | some (.bad, _) => bad a
      | none =>
        let (v, a1) := a.draw
        if v % 2 = 0 then bad a1 else (a1, { g with data := overlay g.data e.1 [byte (v / 2)] })) (d, { f with errs := [] })

/-- A staged fragment may go before those of its response with a higher index (R142). -/
def Dev.inTurn (d : Dev) (f : Frag) : Bool :=
  !d.txn.frags.any (fun g => g.id == f.id && decide (g.fidx < f.fidx)) &&
    (match d.req? f.id with
     | some r => r.frags.all (fun g => decide (f.fidx ≤ g.idx) || (g.doneDt.isSome && g.pend == 0 && g.out == 0))
     | none => true)

/-- The oldest ready fragment of a port and VC (R142). -/
def Dev.oldestFrag (d : Dev) (n vc : Nat) : Option Frag :=
  (d.txn.frags.filter (fun f => !f.begun && f.port == n && f.vc == vc && d.inTurn f)).foldl
    (fun (b : Option Frag) f => match b with
      | none => some f
      | some x => if f.ord < x.ord then some f else b) none

/-- FRAGMENT_BEGIN: the oldest ready fragment of the port and VC begins once credit for all its flits is held. -/
def Dev.fragBegin (d0 : Dev) (n vc : Nat) : Dev :=
  let d := d0.reroute
  if (d.port n).st != .up || ((d.ptx n).pkt vc).isSome then d
  else match d.oldestFrag n vc with
    | none => d
    | some f =>
      if (d.tx n vc).held < flitsOf (d.port n).gen f.data.length then d
      else
        let (d1, g) := d.stagedRead f 0
        let d2 := d1.modTxn (fun t => { t with frags := t.frags.map (fun x => if x.id = f.id && x.fidx == f.fidx then { g with begun := true } else x) })
        d2.modPtx n (fun t => t.setPkt vc (some { ref := .frag f.id f.fidx, partner := f.ptn, rest := g.packet }))

/-! ### Flits (R76 to R79) -/

/-- Bytes of a flit of a generation, its CRC included. -/
def mkFlit (gen hdr : Nat) (body : List Byte) : List Byte :=
  let b := leBytes 2 hdr ++ padTo (flitBytes gen) body
  b ++ leBytes 4 (crc32 b)

def statusBody (ackV nak : Bool) (ackSeq : Nat) (creds : List Nat) : List Byte :=
  [1, byte (b2n ackV + 2 * b2n nak)] ++ leBytes 2 ackSeq ++ (creds.map (leBytes 2)).flatten

def initBody (resume done : Bool) (nextSeq expSeq : Nat) (pools creds : List Nat) : List Byte :=
  [2, byte (b2n resume + 2 * b2n done)] ++ leBytes 2 nextSeq ++ leBytes 2 expSeq ++ (pools.map (leBytes 2)).flatten ++
    (creds.map (leBytes 2)).flatten

def lanemapBody (stby : Option Nat) (mask eff : Nat) : List Byte :=
  [3, byte (match stby with | some i => i + 16 | none => 0)] ++ leBytes 2 mask ++ leBytes 2 eff

/-- CRED fields as sent now; VC2 and VC3 are zero in Cherek-1. -/
def Dev.credsNow (d : Dev) (n : Nat) : List Nat :=
  (List.range 4).map (fun v => if (d.port n).gen ≤ 1 ∧ 2 ≤ v then 0 else (d.rx n v).freed)

/-! ### Frame sets (R71, R72) -/

/-- The flits of a lane frame that nothing else fills: idle ones. -/
def idlePayload (gen : Nat) : List Byte := (List.replicate (flitSlots gen) (mkFlit gen (2 * 4096) [])).flatten

/-- The device sends flits on a port now (R74, R91). -/
def Dev.txFlits (d : Dev) (n : Nat) : Bool :=
  let p := d.port n
  match p.st with
  | .up | .restripe => true
  | .init => decide (p.flitAt.getD 0 ≤ d.frameNo (n / 8))
  | _ => false

/-- Physical lanes of a port that are ACTIVE, and those that carry its flits, in the order of their port lane index. -/
def Dev.activeOf (d : Dev) (n : Nat) : List Nat := (d.portLanes n).filter (fun l => (d.lane l).st == .active)
def Dev.txLanes (d : Dev) (n : Nat) : List Nat :=
  let p := d.port n
  (bitList (if p.st == .up then p.txMask else p.accepted) 16).map (fun i => d.laneAt n i)

/-- A new frame time begins: every ACTIVE lane of the port begins its frame with the same FCNT (R71), with idle flits in every slot, or zero
payload before the port sends flits. The others send what their states ask. -/
def Dev.setBegin (d : Dev) (n : Nat) : Dev :=
  let f := d.frameNo (n / 8)
  if (d.ptx n).set = f + 1 then d
  else
    let pay := if d.txFlits n then idlePayload (d.port n).gen else []
    let d1 := (d.portLanes n).foldl (fun (a : Dev) l => if (a.lane l).st == .active then a.frameOut l f pay else a.laneSend l) d
    d1.modPtx n (fun t => { t with set := f + 1, next := 0 })

/-- The frame set in formation has a slot left. -/
def Dev.slotLeft (d : Dev) (n : Nat) : Bool :=
  (d.ptx n).set != d.frameNo (n / 8) + 1 || decide ((d.ptx n).next < flitSlots (d.port n).gen * (d.txLanes n).length)

/-- Put what a slot carries in its place: flit j of the frame set on lane a(j mod k), slot j div k (R72); a hello in the first bytes of
every ACTIVE lane (R73); in RESTRIPE the LANEMAP in every slot of every ACTIVE lane (R91). -/
def Dev.placeFlit (d : Dev) (n : Nat) (o : TxOut) : Dev :=
  let g := (d.port n).gen
  if o.kind == .hello then (d.activeOf n).foldl (fun (a : Dev) l => a.slotOut l 0 o.bytes) d
  else if (d.port n).st == .restripe then
    (d.activeOf n).foldl (fun (a : Dev) l => a.modLout l (fun x => { x with payload := (List.replicate (flitSlots g) o.bytes).flatten })) d
  else
    let as := d.txLanes n
    let j := (d.ptx n).next
    match as[j % as.length]? with
    | some l => (d.slotOut l (flitSize g * (j / as.length)) o.bytes).modPtx n (fun t => { t with next := j + 1 })
    | none => d

/-- What a slot carries goes into the frame set in formation. -/
def Dev.txOutput (d : Dev) (n : Nat) (o : TxOut) : Dev := ((d.setBegin n).placeFlit n o).modPtx n (fun t => { t with out := o })

/-- An idle flit; before the port sends flits, and where it sends none, a frame of zero payload (DESIGN CHOICE, log 121: the manual does not say
what an idle frame of R70 holds). -/
def Dev.sendIdle (d : Dev) (n : Nat) : Dev :=
  if d.txFlits n then d.txOutput n { kind := .idle, bytes := mkFlit (d.port n).gen (2 * 4096) [] }
  else (d.setBegin n).modPtx n (fun t => { t with out := { kind := .idle } })

/-- A STATUS flit: entries freed so far are reported (R81, R86). -/
def Dev.sendStatus (d : Dev) (n : Nat) : Dev :=
  let p := d.port n
  let d1 := d.txOutput n { kind := .status, nak := p.statusNak, ackV := p.lastAcc.isSome, ackSeq := p.lastAcc.getD 0
                           bytes := mkFlit p.gen 4096 (statusBody p.lastAcc.isSome p.statusNak (p.lastAcc.getD 0) (d.credsNow n)) }
  let d2 := (List.range 4).foldl (fun (a : Dev) v => a.modRx n v (fun r => { r with unrep := 0 })) d1
  d2.modPort n (fun p => { p with statusDue := false, statusNak := false, accSince := 0, statusBy := some (d.dt + 1000) })

/-- A LANEMAP flit: the proposal, the planned change, or the mask in force. -/
def Dev.sendLanemap (d : Dev) (n : Nat) : Dev :=
  let p := d.port n
  let x := match p.prop with
    | some a => a
    | none => match p.plan with
      | some a => a
      | none => { mask := p.txMask, eff := d.frameNow n }
  (d.txOutput n { kind := .lanemap, bytes := mkFlit p.gen 4096 (lanemapBody p.stby x.mask x.eff) }).modPort n
    (fun p => { p with lanemapDue := false, fcnt := d.frameNow n })

/-- An INIT flit (R79, R82, R83), with DONE where the partner manager allows it; a resume reports the entries freed so far in its CRED fields.
With the DONE sent, formation may end (R97). -/
def Dev.sendInit (d : Dev) (n : Nat) : Dev :=
  let p := d.port n
  let pools := (List.range 4).map (fun v => if p.resume then (d.rx n v).pool else d.grantOf n v p.gen)
  let body := initBody p.resume p.doneOk (if p.resume then p.txSeq else 0) (if p.resume then p.exp else 0) pools
    (if p.resume then d.credsNow n else [0, 0, 0, 0])
  let d1 := d.txOutput n { kind := .init, bytes := mkFlit p.gen 4096 body }
  let d2 := if p.resume then (List.range 4).foldl (fun (a : Dev) v => a.modRx n v (fun r => { r with unrep := 0 })) d1 else d1
  (d2.modPort n (fun p => { p with doneSent := p.doneOk })).portFinish n

/-- The hello block (R73). -/
def Dev.sendHello (d : Dev) (n : Nat) : Dev :=
  let p := d.port n
  let b := leBytes 4 0x9E3C51A7 ++ [byte (d.cfgFld n bPort 0x10 8 2 + 16 * d.cfgFld n bPort 0x10 6 2)
    , byte (b2n p.hello + 2 * b2n p.flitAt.isSome)] ++ leBytes 2 (p.flitAt.getD 0 % 2048) ++ leBytes 8 d.otp.chipid ++ List.replicate 16 0
  d.txOutput n { kind := .hello, bytes := b }

/-- Resend one flit of a running replay (R88). -/
def Dev.sendReplay (d : Dev) (n i : Nat) : Dev :=
  let p := d.port n
  match p.replay[i]? with
  | none => (d.modPort n (fun p => { p with replayPos := none })).sendIdle n
  | some f =>
    ((d.txOutput n { kind := .data, seq := f.seq, vc := f.vc, replay := true, bytes := f.bytes }).bump n bPort 0x80 1).modPort n
      (fun p => { p with replayPos := if i + 1 < p.replay.length then some (i + 1) else none })

/-! ### New data flits -/

/-- The first flit of a packet leaves: the last fragment frees its tag, and a late one is counted (R127, R269). -/
def Dev.firstFlit (d : Dev) (r : TxRef) : Dev :=
  match r with
  | .frag id fidx =>
    (match d.txn.frags.find? (fun f => f.id == id && f.fidx == fidx) with
     | some f =>
       if f.last then
         (let d1 := d.freeTag f.ptn f.tag
          if f.late then d1.bump 0 bReg (0x210 + 32 * f.tc) 1 else d1)
       else d
     | none => d)
  | _ => d

/-- The last flit of a packet leaves: staging, cells, slot pair, answer or event are freed (R143, R179, R305, R311). -/
def Dev.lastFlit (d : Dev) (k : Nat) (r : TxRef) : Dev :=
  match r with
  | .frag id fidx =>
    (match d.txn.frags.find? (fun f => f.id == id && f.fidx == fidx) with
     | some f =>
       let d1 := ((d.unreserve f.ptn f.rsv f.shr).freeCells f.cells).modTxn
         (fun t => { t with frags := t.frags.filter (fun g => !(g.id == id && g.fidx == fidx)) })
       if f.last then d1.dropReq id
      else d1.modReq id (fun r => { r with sent := true, cells := r.cells.filter (fun c => !f.cells.contains c.1) })
     | none => d)
  | .rsp i => d.modPair k i (fun _ => {})
  | .reject => d.modMb k (fun m => { m with rejects := m.rejects.drop 1 })
  | .event => d.popEvent k

/-- What VC3 of a port has to send next (DESIGN CHOICE of order: SLOT_BUSY answers, responses by slot, events). -/
def Dev.vc3Next (d : Dev) (n : Nat) : Option TxPkt :=
  match (d.port n).partner with
  | none => none
  | some k =>
    if (d.port n).gen ≤ 1 then none
    else match (d.mb k).rejects with
      | x :: _ =>
        if d.respPort k x.port 2 = some n then
          some { ref := .reject, partner := k, rest := vc3Packet 0x71 0 (rspImage x.opcode x.seq x.slot 3 d.dt []) } else none
      | [] =>
        match (List.range 8).find? (fun i => (d.pair k i).st == .done && (match (d.pair k i).port with
          | some m => d.respPort k m 2 == some n
          | none => d.portFor k 2 == some n)) with
        | some i => some { ref := .rsp i, partner := k, rest := vc3Packet 0x71 0 ((d.pair k i).resp.take 256) }
        | none =>
          match (d.mb k).evq with
          | e :: t => if d.portFor k 2 = some n then some { ref := .event, partner := k, rest := vc3Packet 0x72 t.length e.bytes } else none
          | [] => none

/-- Send the next flit of the packet on a VC (R81, R120). -/
def Dev.sendNew (d : Dev) (n vc : Nat) (x : TxPkt) : Dev :=
  let p := d.port n
  let f := flitBytes p.gen
  let seq := p.txSeq
  let bytes := mkFlit p.gen (seq + 16384 * vc) (x.rest.take f)
  let rest := x.rest.drop f
  let d1 := if x.first then d.firstFlit x.ref else d
  let d2 := (d1.modTx n vc (fun t => { t with held := t.held - 1 })).bump n bPort 0x80 1
  let d3 := d2.modPort n (fun p => { p with
    txSeq := (p.txSeq + 1) % 4096, replay := p.replay ++ [{ seq := seq, vc := vc, bytes := bytes }]
    ackBy := some (p.ackBy.getD (d.dt + d.cfgFld n bPort 0x30 0 16)) })
  let d4 := d3.modPtx n (fun t => t.setPkt vc (if rest.isEmpty then none else some { x with rest := rest, first := false }))
  let d5 := d4.txOutput n { kind := .data, seq := seq, vc := vc, bytes := bytes }
  if rest.isEmpty then d5.lastFlit x.partner x.ref else d5

/-- A new data flit by R85: VC3 first, then VC1 and VC2 in turn; without one, idle. -/
def Dev.sendData (d : Dev) (n : Nat) : Dev :=
  let t := d.ptx n
  let ok := fun vc => decide (0 < (d.tx n vc).held)
  let c3 := if ok 3 then (match t.p3 with | some x => some x | none => d.vc3Next n) else none
  if 512 ≤ (d.port n).replay.length then d.sendIdle n
  else match c3 with
    | some x => d.sendNew n 3 x
    | none =>
      match (if ok 1 then t.p1 else none), (if ok 2 then t.p2 else none) with
      | some a, some b =>
        if t.turn2 then (d.modPtx n (fun t => { t with turn2 := false })).sendNew n 2 b
        else (d.modPtx n (fun t => { t with turn2 := true })).sendNew n 1 a
      | some a, none => (d.modPtx n (fun t => { t with turn2 := true })).sendNew n 1 a
      | none, some b => (d.modPtx n (fun t => { t with turn2 := false })).sendNew n 2 b
      | none, none => d.sendIdle n

/-- TRANSMIT_FLIT_SLOT: what the transmitter puts in one slot of port `n`, while the frame set in formation has one left. -/
def Dev.flitSlot (d : Dev) (n : Nat) : Dev :=
  let p := d.port n
  match p.st with
  | .neg => d.sendHello n
  | .init => if !d.txFlits n then d.sendHello n else if d.slotLeft n then d.sendInit n else d
  | .restripe => d.sendLanemap n
  | .up =>
    if !d.slotLeft n then d
    else if p.statusDue then d.sendStatus n
    else if p.lanemapDue || (p.plan.isSome && p.fcnt != d.frameNow n) then d.sendLanemap n
    else match p.replayPos with
      | some i => d.sendReplay n i
      | none => d.sendData n
  | _ => d.sendIdle n

def execFragmentBegin (n vc : Nat) (s : State) : Host.Outcome State Fault Refusal :=
  guardNext (portOk n && vcOk vc) (fun d => d.fragBegin n vc) s
def execTransmitFlitSlot (n : Nat) (s : State) : Host.Outcome State Fault Refusal :=
  guardNext (portOk n) (fun d => (d.flitSlot n).upCheck n) s

end Sys2Proof.Machine
end

