-- ==== Sys2Proof/Machine/LinkCmds.lean ====
section
/-!
DEFINITION. The commands of ports and partners (R68 to R119).
-/
namespace Sys2Proof.Machine

/-- Every port in BOND collects the lanes that are ACTIVE (R70): ports that a departure has moved there among them. -/
def Dev.settle (d : Dev) : Dev := d.collectAll allPorts

def Dev.portTimerDue (d : Dev) (n : Nat) (s : PortSt) : Bool := (d.port n).st == s && due (d.port n).timer d.dt

/-- The BOND timer expires (R70, R97): enough lanes, or FAIL. -/
def Dev.bondExpiry (d : Dev) (n : Nat) : Dev :=
  if !d.portTimerDue n .bond then d
  else if d.minLanes n ≤ popCount (d.port n).accepted 16 then d.portNeg n
  else d.portFail n 1

/-- HOLD_MS has passed since the port entered HOLD (R93): FS072, and the port is lost. -/
def Dev.holdExpiry (d : Dev) (n : Nat) : Dev :=
  let p := d.port n
  if p.st == .off || p.st == .up || !p.resume || !due p.holdEnd d.dt then d
  else
    let d1 := (d.raise0 72 { kind := 3, inst := n }).portLost n false
    (d1.modPort n (fun p => { p with holdEnd := none, resume := false })).portBond n true

/-- A STATUS deadline has come (R86). -/
def Dev.statusExpiry (d : Dev) (n : Nat) : Dev :=
  if (d.port n).st == .up && due (d.port n).statusBy d.dt then d.modPort n (fun p => p.askStatus false) else d

/-- One second in FAIL (R97). -/
def Dev.failExpiry (d : Dev) (n : Nat) : Dev :=
  if d.portTimerDue n .fail && d.cfgFld n bPort 0x10 0 1 == 1 then d.portBond n true else d

def execPortEnable (n : Nat) (s : State) : Host.Outcome State Fault Refusal :=
  guardNext (portOk n) (fun d => (d.portEnable n).settle) s
def execPortDisable (n : Nat) (s : State) : Host.Outcome State Fault Refusal :=
  guardNext (portOk n) (fun d => (d.portDisable n).settle) s
def execPortCfgWrite (p : Path) (v : Word) (s : State) : Host.Outcome State Fault Refusal :=
  guardNext (pathOk p) (fun d => if d.mayWrite p then (d.portCfg (d.selOf p bPort) v.toNat).settle else d) s
def execBondTimerExpiry (n : Nat) (s : State) : Host.Outcome State Fault Refusal :=
  guardNext (portOk n) (fun d => (d.bondExpiry n).settle) s
/-- The hello block that the lane of index `i` received last (R73), where its frame was good. -/
def Dev.helloOn (d : Dev) (n i : Nat) : Dev :=
  let x := d.lin (d.laneAt n i)
  if x.v && !x.bad && decide (i < d.portWidth n) then d.hello n (x.payload.take 32) else d
def execHelloReceived (n i : Nat) (s : State) : Host.Outcome State Fault Refusal :=
  guardNext (portOk n) (fun d => (d.helloOn n i).settle) s
def execNegTimerExpiry (n : Nat) (s : State) : Host.Outcome State Fault Refusal :=
  guardNext (portOk n) (fun d => (if d.portTimerDue n .neg then d.portFail n 5 else d).settle) s
def execDataFlitReceived (n j : Nat) (s : State) : Host.Outcome State Fault Refusal :=
  guardNext (portOk n) (fun d => (d.takeFlit n j 0 (fun a ok _ b => a.dataFlit n (dataOf (d.port n).gen ok b))).settle) s
def execStatusFlitReceived (n j : Nat) (s : State) : Host.Outcome State Fault Refusal :=
  guardNext (portOk n) (fun d => (d.takeFlit n j 1 (fun a ok _ b => a.statusFlit n (statusOf ok b))).settle) s
def execInitFlitReceived (n j : Nat) (s : State) : Host.Outcome State Fault Refusal :=
  guardNext (portOk n) (fun d => ((d.takeFlit n j 2 (fun a ok _ b => a.initFlit n (initOf ok b))).upCheck n).settle) s
/-- A LANEMAP whose CRC fails is discarded (R78). -/
def execLanemapFlitReceived (n j : Nat) (s : State) : Host.Outcome State Fault Refusal :=
  guardNext (portOk n) (fun d => (d.takeFlit n j 3 (fun a ok f b => if ok then a.lanemap n (lanemapOf ok f b) else a.crcBad n)).settle) s
def execStatusDue (n : Nat) (s : State) : Host.Outcome State Fault Refusal :=
  guardNext (portOk n) (fun d => d.statusExpiry n) s
def execNakRepeatTimer (n : Nat) (s : State) : Host.Outcome State Fault Refusal :=
  guardNext (portOk n) (fun d => d.nakRepeat n) s
def execReplayTimeout (n : Nat) (s : State) : Host.Outcome State Fault Refusal :=
  guardNext (portOk n) (fun d => d.replayTimeout n) s
def execRestripeEffFcnt (n : Nat) (s : State) : Host.Outcome State Fault Refusal :=
  guardNext (portOk n) (fun d => d.effFcnt n) s
def execRestripeTimeout (n : Nat) (s : State) : Host.Outcome State Fault Refusal :=
  guardNext (portOk n) (fun d => if d.portTimerDue n .restripe && !d.restripeAgreed n then d.portHold n true else d) s
def execHoldTimerExpiry (n : Nat) (s : State) : Host.Outcome State Fault Refusal :=
  guardNext (portOk n) (fun d => (d.holdExpiry n).settle) s
def execPortRotation (n : Nat) (s : State) : Host.Outcome State Fault Refusal :=
  guardNext (portOk n) (fun d => d.rotate_ n) s
def execPortFailRetry (n : Nat) (s : State) : Host.Outcome State Fault Refusal :=
  guardNext (portOk n) (fun d => (d.failExpiry n).settle) s

/-! ### Partners -/

/-- The LEAVE timer expires: an abrupt departure (R110). -/
def Dev.leaveExpiry (d : Dev) (k : Nat) : Dev :=
  if (d.ptn k).st == .leaving && due (d.ptn k).timer d.dt then d.depart k true none else d

/-- Nothing of a LEAVING partner is outstanding: an orderly departure (R110). -/
def Dev.leaveDone (d : Dev) (k : Nat) : Dev :=
  if (d.ptn k).st == .leaving && d.leaveQuiet k then d.depart k false none else d

/-- RECLAIM_MS has passed (R114): FS082, and reclamation goes on. -/
def Dev.reclaimExpiry (d : Dev) (k : Nat) : Dev :=
  if (d.ptn k).st == .reclaim && due (d.ptn k).timer d.dt then
    ((d.modPtn k (fun p => { p with timer := none })).raise0 82 { kind := 4, inst := k }).orCsr k bPartner 0x38 0x20
  else d

def execLeaveTimerExpiry (k : Nat) (s : State) : Host.Outcome State Fault Refusal :=
  guardNext (partnerOk k) (fun d => (d.leaveExpiry k).settle) s
def execLeavingQuiesced (k : Nat) (s : State) : Host.Outcome State Fault Refusal :=
  guardNext (partnerOk k) (fun d => (d.leaveDone k).settle) s
def execReclaimTimerExpiry (k : Nat) (s : State) : Host.Outcome State Fault Refusal :=
  guardNext (partnerOk k) (fun d => d.reclaimExpiry k) s

end Sys2Proof.Machine
end

