-- ==== Sys2Proof/Machine/FaultOps.lean ====
section
/-!
DEFINITION. The fault collector beside the raise itself (R416 to R429), block resets (R482), and the reset of Heartwood
(R300).
-/
namespace Sys2Proof.Machine

/-! ### Heartwood -/

/-- Block reset of Heartwood (R300, R309, R474): every RUNNING command is answered FW_RESTART, its select copies return to
reset, an activation under way ends, and firmware restarts. -/
def Dev.hwReset (d : Dev) : Dev :=
  let d1 := (d.restartPairs).clearSel 100
  let d2 := d1.modMbox (fun m => { m with
    fwState := if m.fwState == 4 then 4 else 3, act := .none, wdog := none })
  let d3 := (d2.modClk (fun c => { c with move := c.move.map (fun m => { m with pair := none }) })).modCfg (fun c => { c with
    pair := none, st := if c.st == .committing then .confirmed else c.st })
  if d.cfg.st == .committing then d3.modQm (fun q => { q with shrink := none, moving := false }) else d3

/-- Both cores stop at a lockstep mismatch (R300): firmware is held until a chip reset. -/
def Dev.lockstepStop (d : Dev) : Dev :=
  let inj := d.fault.injLock
  let d1 := (d.modFault (fun u => { u with injLock := false })).raise0 160 { injected := inj }
  d1.modMbox (fun m => { m with fwState := 4, wdog := none })

/-! ### Block resets (R482) -/

/-- LANE, one octet: the PLL restarts, and each lane goes to OFF and, enabled, to DETECT. -/
def Dev.resetOctet (d : Dev) (o : Nat) : Dev :=
  let d1 := d.modOct o (fun x => { x with pllLock := false, pllOn := d.clauseOf o != 0, onAt := d.dt })
  (List.range 8).foldl (fun (a : Dev) i =>
    let l := 8 * o + i
    let en := a.laneEnabled l
    a.laneDo l (fun x => let y := x.laneOff l; if en then y.laneEnable l else y)) d1

/-- PORT, one port: to BOND with its link state kept for resume. -/
def Dev.resetPort (d : Dev) (n : Nat) : Dev :=
  if (d.port n).st == .off then d else d.portRebond n (!(d.port n).resume)

/-- DRAM, one channel: through self-refresh, with its queues held. -/
def Dev.resetChan (d : Dev) (c : Nat) : Dev :=
  if !d.serving c || (d.ch c).st == .selfref then d else (d.sendSre c).modCh c (fun x => { x with srxNext := true })

/-- XFER, one channel: DRAINING with code STOPPED, then IDLE. -/
def Dev.resetXc (d : Dev) (x : Nat) : Dev := d.xStop x 1

/-- The island of a block instance runs: 0 an octet, 1 a channel, 2 Heartwood. -/
def Dev.islandRuns (d : Dev) (k i : Nat) : Bool :=
  if k = 0 then d.octRuns i else if k = 1 then d.phyRuns i else d.clk.refOk && !d.clk.hwStopped

/-- Reset a block instance that an island clocks; a stopped island holds the request until it runs (R379, R416). -/
def Dev.instReset (d : Dev) (k i : Nat) : Dev :=
  if d.islandRuns k i then (if k = 0 then d.resetOctet i else if k = 1 then d.resetChan i else d.hwReset)
  else d.modFault (fun u => { u with brstWait := u.brstWait.filter (fun e => e != (k, i)) ++ [(k, i)] })

/-- The block resets that waited for islands that run now. -/
def Dev.brstDue (d : Dev) : Dev :=
  d.fault.brstWait.foldl (fun (a : Dev) e =>
    if a.islandRuns e.1 e.2 then (a.modFault (fun u => { u with brstWait := u.brstWait.filter (fun x => x != e) })).instReset e.1 e.2 else a) d

/-! ### Reactions (R414 to R420) -/

/-- Sources that a block reset may be chosen for (R422). -/
def brstSource (n : Nat) : Bool := [60, 63, 72, 73, 74, 121, 131, 135, 161, 163].contains n

/-- The settings that R419 forbids. -/
def reactForbidden (n set ms : Nat) : Bool :=
  (bit set 2 && !brstSource n) ||
  ((bit set 2 || bit set 3) && (faultClass n == 0 || n == 43)) ||
  (faultClass n == 2 && !bit set 4) ||
  decide (60000 < ms) || (faultClass n == 2 && decide (100 < ms))

/-- Set the reactions and escalation time of a source; answers whether they are allowed. -/
def Dev.reactSet (d : Dev) (n set ms : Nat) : Dev × Bool :=
  if reactForbidden n set ms then (d, false)
  else (d.setCsr 0 bFault (0x400 + 4 * n) (word (set + ms * 65536)), true)

/-- Clear a held source (R417); answers whether it was held. -/
def Dev.faultClear (d : Dev) (n : Nat) : Dev × Bool :=
  if (d.src n).held then (d.modSrc n (fun s => { s with held := false, esc := none, brst := false }), true) else (d, false)

/-- The block reset of a held source (R422): the instance its detail names. -/
def Dev.brst (d : Dev) (n : Nat) : Dev :=
  let i := (d.src n).detail.inst
  if n = 60 then d.instReset 0 (i / 8)
  else if n = 63 then d.instReset 0 i
  else if n = 72 ∨ n = 73 ∨ n = 74 then d.resetPort i
  else if n = 121 ∨ n = 131 ∨ n = 135 then d.instReset 1 i
  else if n = 161 ∨ n = 163 then d.instReset 2 0
  else d

/-- CRST of a source that is held: the last escalation. -/
def Dev.escLast (d : Dev) (n : Nat) : Dev :=
  if bit (d.reactOf n) 3 then ((d.escRecord n 2 8).modSrc n (fun s => { s with esc := none })).escCrst n
  else d.modSrc n (fun s => { s with esc := none })

/-- ESCALATION_EXPIRY (R416): BRST once, then CRST; when none remains the timer stops. With E = 0 both are taken at one DT. -/
def Dev.escalate (d : Dev) (n : Nat) : Dev :=
  let s := d.src n
  if !s.held || !due s.esc d.dt then d
  else if bit (d.reactOf n) 2 && !s.brst then
    let d1 := ((d.escRecord n 1 4).modSrc n (fun s => { s with brst := true, esc := some (d.dt + 1000000 * d.escMs n) })).brst n
    if d.escMs n = 0 then d1.escLast n else d1
  else d.escLast n

/-! ### ERR_N (R418) -/

/-- Software drives ERR_N low or releases it; within the minimum pulse a release waits. -/
def Dev.errDrive (d : Dev) (low : Bool) : Dev :=
  if !d.pinsOn then d else d.modFault (fun u =>
    if low then { u with errLow := true, errRel := false }
    else match u.errMin with
      | some t => if t ≤ d.dt then { u with errLow := false, errRel := false, errMin := none } else { u with errRel := u.errLow }
      | none => { u with errLow := false, errRel := false })

/-- The minimum pulse ends. -/
def Dev.errPulseEnd (d : Dev) : Dev :=
  if due d.fault.errMin d.dt then
    d.modFault (fun u => { u with errMin := none, errLow := u.errLow && !u.errRel, errRel := false })
  else d

/-! ### Log and census (R426 to R428) -/

/-- Free a log entry. -/
def Dev.logRead (d : Dev) (n : Nat) : Dev :=
  d.modFault (fun u => { u with log := tabMod (fun _ => {}) u.log n (fun e => { e with unread := false }) })

/-- Bytes of a log entry (R426). -/
def LogEntry.bytes (e : LogEntry) : List Byte :=
  leBytes 8 e.dt ++ [byte e.source, byte e.cls, byte e.taken, byte e.mode] ++ leBytes 4 e.raises ++ e.detail.bytes ++ List.replicate 18 0

/-- A write of CHK_INJ with ARM set or clear (R428): the checker takes the injection, ARM clears, INJ_DONE is set. -/
def Dev.chkInj (d : Dev) (v : Nat) : Dev :=
  let chk := bits v 0 2
  let law := bits v 4 3
  let port := bits v 8 8
  let m := d.clk.mode
  let run := m == .service || m == .drain
  let lc := d.otp.lc == .manufacture || d.otp.lc == .provision || d.otp.lc == .return
  let okMode := if chk = 1 then run && decide (1 ≤ law ∧ law ≤ 5) else if chk = 2 then m == .maint else if chk = 3 then run && decide (port < 144) else true
  if !lc || !okMode then d
  else
    let d1 := d.setCsr 0 bFault 0x50 (word (bits v 0 2 + 16 * law + 256 * port))
    if !bit v 31 || chk = 0 then d1
    else
      let d2 := d1.modFault (fun u =>
        if chk = 1 then { u with injLaw := some law } else if chk = 2 then { u with injLock := true } else { u with injPort := some port })
      d2.orCsr 0 bFault 0x44 8

/-! ### Meanings -/

/-- OCTET_PLL_LOCK: a block reset that waited for the octet follows. -/
def execOctetPllLock (o : Nat) (s : State) : Host.Outcome State Fault Refusal :=
  guardNext (octOk o) (fun d => (d.octLock o).brstDue) s

end Sys2Proof.Machine
end

