-- ==== Sys2Proof/Machine/OtpOps.lean ====
section
/-!
DEFINITION. The OTP controller (R452 to R471): sensing, presence of regions, sweeps, shadows, the programming window,
burning, and what the rest of the device reads from the array.
-/
namespace Sys2Proof.Machine

/-- Run an effect that reads the fuses. -/
def guardFuse (ok : Bool) (f : Fuses → Dev → Dev) (s : State) : Host.Outcome State Fault Refusal :=
  if ok then .next { s with dev := f s.fuse s.dev } else .fault .noSuchInstance
/-- Run an effect that burns fuses. -/
def guardBurn (ok : Bool) (f : Fuses → Dev → Fuses × Dev) (s : State) : Host.Outcome State Fault Refusal :=
  if ok then .next { s with dev := (f s.fuse s.dev).2, fuse := (f s.fuse s.dev).1 } else .fault .noSuchInstance

def Fuses.wordA (f : Fuses) (k : Nat) : Word := tabGet (fun _ => 0) f.a k
def Fuses.wordB (f : Fuses) (k : Nat) : Word := tabGet (fun _ => 0) f.b k
/-- Burn bits of a word in both copies (R452): nothing turns a 1 back into a 0. -/
def Fuses.burn (f : Fuses) (k : Nat) (a b : Word) : Fuses :=
  { f with a := tabMod (fun _ => 0) f.a k (· ||| a), b := tabMod (fun _ => 0) f.b k (· ||| b) }
/-- Lock fuses: set when either copy reads 1 (R456). -/
def Fuses.wlock (f : Fuses) : Nat := f.wlA ||| f.wlB
def Fuses.rlock (f : Fuses) : Nat := f.rlA ||| f.rlB

/-! ### Sensing (R456) -/

/-- Outcome of a sense of both copies at both margins. -/
inductive OtpOut where
  | good (v : Word)
  | one (v : Word)
  | marginal
  deriving DecidableEq, Repr

def otpJudge (r : OtpSense) : OtpOut :=
  if r.aLo = r.aHi then
    (if r.bLo = r.bHi then (if r.aLo = r.bLo then .good r.aLo else .marginal) else .one r.aLo)
  else if r.bLo = r.bHi then .one r.bLo
  else .marginal

/-- A sense of the word at key `64 * region + word`: a copy near its threshold reads differently at the two margins. -/
def Dev.otpSense (d : Dev) (f : Fuses) (k : Nat) : OtpSense :=
  let u := tabGet (fun _ => 0) d.otp.unst k
  { aLo := f.wordA k, aHi := if bit u 0 then ~~~(f.wordA k) else f.wordA k
    bLo := f.wordB k, bHi := if bit u 1 then ~~~(f.wordB k) else f.wordB k }

/-- What follows from a sense of word `k` (R456): counts, FS190, FS191, and the region's absence. -/
def Dev.otpNote (d : Dev) (k : Nat) (o : OtpOut) : Dev :=
  let r := k / 64
  let x : Detail := { kind := 16, inst := r, a := k % 64 }
  match o with
  | .good _ => d
  | .one _ =>
    (((d.modOtp (fun u => { u with onecopy := u.onecopy ||| 2 ^ r })).bump 0 bOtp 0x88 1).raise0 190 x).orCsr 0 bOtp 0x40 1
  | .marginal =>
    ((d.modOtp (fun u => { u with
      present := clearBits u.present (2 ^ r), marginal := u.marginal ||| 2 ^ r, lastWord := k % 64, lastRegion := r })).raise0 191 x).orCsr
        0 bOtp 0x40 2

/-- The value a sense takes. -/
def OtpOut.val : OtpOut → Option Word
  | .good v => some v
  | .one v => some v
  | .marginal => none

/-- Sense a word for a demand read (R456). -/
def Dev.otpRead (d : Dev) (f : Fuses) (k : Nat) : Option Word × Dev :=
  let o := otpJudge (d.otpSense f k)
  (o.val, (d.bump 0 bOtp 0x80 1).otpNote k o)

/-- The value of a word as taken, without the effects of the read; a marginal one reads as zero. -/
def Dev.otpVal (d : Dev) (f : Fuses) (k : Nat) : Word := ((otpJudge (d.otpSense f k)).val).getD 0

/-- Regions in which a valid shadow stands for the fuses (R453, R461). -/
def shadowUsed (r : Nat) : Bool := decide (2 ≤ r ∧ r ≤ 4) || decide (23 ≤ r ∧ r ≤ 30)
def Dev.shadow (d : Dev) (k : Nat) : Option Word := tabGet (fun _ => none) d.otp.shadow k
/-- The value a consumer takes of a word: its valid shadow, in a present region where shadows are used. -/
def Dev.otpUse (d : Dev) (f : Fuses) (k : Nat) : Word :=
  match d.shadow k with
  | some v => if shadowUsed (k / 64) && bit d.otp.present (k / 64) then v else d.otpVal f k
  | none => d.otpVal f k

/-! ### Sealed regions (R457) and boot (R459) -/

/-- The checksum of a region over its words 0 to 62 (R452). -/
def Dev.otpSum (d : Dev) (f : Fuses) (r : Nat) : Nat :=
  crc32 (byte r :: ((List.range 63).map (fun w => leBytes 4 (d.otpVal f (64 * r + w)).toNat)).flatten)
/-- The region's checksum word holds. Region 1 has none. -/
def Dev.otpSumOk (d : Dev) (f : Fuses) (r : Nat) : Bool := r == 1 || (d.otpVal f (64 * r + 63)).toNat == d.otpSum f r

/-- A locked region whose checksum differs is sealed incomplete (R457). -/
def Dev.otpSeal (d : Dev) (f : Fuses) (r : Nat) : Dev :=
  if (bit f.wlock r || bit f.rlock r) && !d.otpSumOk f r && !bit d.otp.marginal r then
    ((d.modOtp (fun u => { u with present := clearBits u.present (2 ^ r), sealed := u.sealed ||| 2 ^ r })).raise0 192
      { kind := 16, inst := r, a := 63 }).orCsr 0 bOtp 0x40 4
  else d

/-- Regions in the order in which the ROM loader reads them (R459). -/
def otpBootOrder : List Nat := [1, 0] ++ (List.range 8).map (· + 13) ++ [21, 22, 2, 3, 4] ++ (List.range 8).map (· + 5) ++ (List.range 9).map (· + 23)

/-- Words that can read otherwise than good: those with a burned bit or a cell near its threshold. -/
def Dev.otpHot (d : Dev) (f : Fuses) (r : Nat) : List Nat :=
  (List.range 64).map (64 * r + ·) |>.filter (fun k =>
    d.otp.unst.any (fun e => e.1 == k) || f.a.any (fun e => e.1 == k) || f.b.any (fun e => e.1 == k))

/-- Read a whole region at boot and decide whether it is present. -/
def Dev.otpReadRegion (d : Dev) (f : Fuses) (r : Nat) : Dev :=
  let d0 := (d.modOtp (fun u => { u with present := u.present ||| 2 ^ r })).bump 0 bOtp 0x80 64
  ((d0.otpHot f r).foldl (fun (a : Dev) k => a.otpNote k (otpJudge (a.otpSense f k))) d0).otpSeal f r

/-! ### Life cycle (R466) -/

def lcMark (w : Nat) : Nat := [0x50524F56, 0x4649454C, 0x52455452, 0x454E4421].getD w 0
def lcCode : LcSt → Nat
  | .manufacture => 0 | .provision => 1 | .field => 2 | .return => 3 | .ended => 4
def lcOf (n : Nat) : LcSt := match n with
  | 0 => .manufacture | 1 => .provision | 2 => .field | 3 => .return | _ => .ended

/-- The state that four mark words give. -/
def lcDecide (m : Nat → Nat) : LcSt :=
  if m 3 = lcMark 3 then .ended
  else if m 2 = lcMark 2 then .return
  else if m 1 = lcMark 1 then .field
  else if m 0 = lcMark 0 then .provision
  else .manufacture

/-- Take the life-cycle state at boot (R458, R466). -/
def Dev.lcBoot (d : Dev) (f : Fuses) : Dev :=
  if !bit d.otp.present 1 then
    let any3 := f.wordA 67 != 0 || f.wordB 67 != 0 || tabGet (fun _ => 0) d.otp.unst 67 != 0
    d.modOtp (fun u => { u with lc := if any3 then .ended else .field, lcAbsent := true })
  else
    let m := fun w => (d.otpVal f (64 + w)).toNat
    let torn := (List.range 4).filter (fun w => m w != 0 && m w != lcMark w)
    let d1 := d.modOtp (fun u => { u with lc := lcDecide m, lcTorn := !torn.isEmpty })
    torn.foldl (fun (a : Dev) w => (a.raise0 194 { kind := 16, inst := 1, a := w }).orCsr 0 bOtp 0x40 16) d1

/-! ### What consumers take (R453, R395) -/

/-- Default coefficients of the neighbour model (R395). Compute layers are layers 5, 10, 15 and 20. -/
def coefDefault (n : Nat) : Coef :=
  if n = 0 then { wlo := 0, whi := 256, theta := 6, ofs := 0 }
  else if n = 20 then { wlo := 256, whi := 0, theta := 40, ofs := -16 }
  else if n % 5 = 0 then { wlo := 128, whi := 128, theta := 40, ofs := 0 }
  else { wlo := 128, whi := 128, theta := 16, ofs := 0 }

/-- Coefficients from a MODEL_n word (R410). -/
def coefOfWord (v : Word) : Coef :=
  { wlo := if fld v 16 1 = 1 then 256 else fld v 0 8, whi := if fld v 17 1 = 1 then 256 else fld v 8 8
    theta := fld v 18 6, ofs := toSigned 8 (fld v 24 8) }

/-- Take the coefficients of the neighbour model from region 3, where it is present (R395, R458, R461). -/
def Dev.coefLoad (d : Dev) (f : Fuses) : Dev :=
  (List.range 21).foldl (fun (a : Dev) n =>
    let c := if bit d.otp.present 3 then coefOfWord (d.otpUse f (192 + n)) else coefDefault n
    a.modTherm (fun t => { t with coef := tabSet coefDefault t.coef n c })) d

/-- The ROM loader reads every region (R459) and takes what it holds. -/
def Dev.otpBoot (d : Dev) (f : Fuses) (unst : List (Nat × Nat)) : Dev :=
  let d0 := d.modOtp (fun u => { u with
    wlock := f.wlock, rlock := f.rlock, unst := unst.foldl (fun t e => tabSet (fun _ => 0) t (e.1 % 2048) (e.2 % 4)) [] })
  let d1 := otpBootOrder.foldl (fun (a : Dev) r => a.otpReadRegion f r) d0
  let d2 := d1.lcBoot f
  let p0 := bit d2.otp.present 0
  let d3 := d2.modOtp (fun u => { u with
    chipid := if p0 then (d2.otpVal f 0).toNat + 2 ^ 32 * (d2.otpVal f 1).toNat else 0
    word2 := if p0 then (d2.otpVal f 2).toNat else 0 })
  let d4 := d3.coefLoad f
  if bit d4.otp.present 2 then d4
  else (d4.modTherm (fun t => { t with noTrim := true })).raise0 46 { kind := 16, inst := 2 }

/-! ### Key slots (R454) -/

/-- Key slot `k` is usable for a use: 0 firmware images, 1 configuration images, 2 life-cycle transitions. -/
def Dev.keyUsable (d : Dev) (f : Fuses) (k use : Nat) : Bool :=
  decide (k < 8) && bit d.otp.present (13 + k) && fld (d.otpVal f (64 * (13 + k) + 12)) use 1 == 1
/-- The slot whose digest judges a signature that names slot `k`: itself, or its fallback. -/
def Dev.keySlot (d : Dev) (f : Fuses) (k use : Nat) : Option Nat :=
  if d.keyUsable f k use then some k else (List.range 8).find? (fun j => decide (k < j) && d.keyUsable f j use)
/-- The digest of a slot, 48 bytes. -/
def Dev.keyDigest (d : Dev) (f : Fuses) (k : Nat) : List Byte :=
  ((List.range 12).map (fun w => leBytes 4 (d.otpVal f (64 * (13 + k) + w)).toNat)).flatten
/-- A signature verifies under the key whose digest slot `k` names (R313, R454): the slot used, and whether it verifies. -/
def Dev.sigCheck (d : Dev) (f : Fuses) (k use : Nat) (pub sig msg : List Byte) : Option Nat :=
  match d.keySlot f k use with
  | none => none
  | some j => if Config.sha384 pub == d.keyDigest f j && Config.ecdsaP384Ok pub sig (Config.sha384 msg) then some j else none

/-- The demand reads of a check against slot `k` (R452, R454): USAGE of the slots tried, then the digest of the slot used. A word of a present
region reads as the check takes it. -/
def Dev.keyReads (d : Dev) (f : Fuses) (k use : Nat) : Dev :=
  let j := d.keySlot f k use
  let tried := (List.range 8).filter (fun i => bit d.otp.present (13 + i) && decide (k ≤ i) && (match j with | some n => decide (i ≤ n) | none => true))
  let digest := match j with | some n => (List.range 12).map (64 * (13 + n) + ·) | none => []
  (tried.map (fun i => 64 * (13 + i) + 12) ++ digest).foldl (fun (a : Dev) w => (a.otpRead f w).2) d

/-! ### Sweeps (R460) -/

/-- A calibration trigger is passed to the OTP controller. -/
def Dev.otpTrigger (d : Dev) : Dev :=
  if d.otp.sweep.isSome then d.modOtp (fun u => { u with sweepNext := true })
  else match d.otp.sweepAt with
    | some t => if d.dt < t + 10000000 then d else d.modOtp (fun u => { u with sweepNext := true })
    | none => d.modOtp (fun u => { u with sweepNext := true })

/-- The first word from `k` on of a present region; 2048 when there is none. -/
def Dev.sweepFrom (d : Dev) (k : Nat) : Nat :=
  if bit d.otp.present (k / 64) && decide (k < 2048) then k
  else match (List.range 32).find? (fun r => decide (k / 64 < r) && bit d.otp.present r) with
    | some r => 64 * r
    | none => 2048

/-- OTP_SWEEP_START: on a trigger taken, or after the sweep before it. -/
def Dev.sweepStart (d : Dev) : Dev :=
  if d.otp.sweepNext && d.otp.sweep.isNone then
    d.modOtp (fun u => { u with sweepNext := false, sweep := some (d.sweepFrom 0), sweepAt := some d.dt })
  else d

/-- OTP_WORD_READ: one sense of a word of a present region, by the sweep that has reached it or for a demand read. -/
def Dev.wordRead (d : Dev) (f : Fuses) (k : Nat) (r : OtpSense) : Dev :=
  if !bit d.otp.present (k / 64) then d
  else
    let u := b2n (r.aLo != r.aHi) + 2 * b2n (r.bLo != r.bHi)
    let d1 := (d.modOtp (fun o => { o with unst := tabSet (fun _ => 0) o.unst k u })).bump 0 bOtp 0x80 1
    let d2 := d1.otpNote k (otpJudge r)
    if d.otp.sweep == some k then
      let d3 := if k % 64 = 63 then d2.otpSeal f (k / 64) else d2
      d3.modOtp (fun o => { o with sweep := some (d3.sweepFrom (k + 1)), wlock := f.wlock, rlock := f.rlock })
    else d2

/-- OTP_SWEEP_END: no word is left. -/
def Dev.sweepEnd (d : Dev) : Dev :=
  match d.otp.sweep with
  | some k => if 2048 ≤ d.sweepFrom k then
      ((d.modOtp (fun u => { u with sweep := none })).bump 0 bOtp 0x90 1).orCsr 0 bOtp 0x40 32
    else d
  | none => d

/-! ### The programming window (R462, R471) -/

/-- The programming window closes (R462): VPROG that is still up lies outside a programming step from now on (R37). -/
def Dev.winClose (d : Dev) : Dev :=
  if d.otp.win.isNone then d
  else
    let d1 := d.modOtp (fun u => { u with win := none })
    if d.pin.vprogUp && !d.pin.vprogBad then (d1.modPin (fun p => { p with vprogBad := true })).raise0 11 {} else d1

/-- A write of PROG_CTRL: only in MAINT; PROG_S out of range makes the whole write ignored. -/
def Dev.progCtrl (d : Dev) (v : Word) : Dev :=
  let s := fld v 8 8
  if d.clk.mode != .maint || s = 0 || 60 < s then d
  else
    let d1 := d.setCsr 0 bOtp 0x14 (word (256 * s))
    if fld v 0 1 = 0 then d1.winClose
    else if d.otp.win.isSome then d1
    else d1.modOtp (fun u => { u with win := some (d.dt + 1000000000 * s) })

/-- The window is open and VPROG lies within R34 (R462). -/
def Dev.mayBurn (d : Dev) : Bool := d.otp.win.isSome && d.pin.vprogOk && !d.pin.vprogBad

/-! ### Burning (R463, R464) -/

/-- Bits of a word that the burn leaves unburned. -/
def missOf (miss : List BurnMiss) (k : Nat) : Word × Word :=
  match miss.find? (fun m => m.word == k) with
  | some m => (m.a, m.b)
  | none => (0, 0)

/-- Burn the bits of `v` that are still 0 in both copies of a word, but for those that do not burn. -/
def Fuses.program (f : Fuses) (miss : List BurnMiss) (k : Nat) (v : Word) : Fuses :=
  let m := missOf miss k
  f.burn k (v &&& ~~~m.1) (v &&& ~~~m.2)

/-- Burn a word to `v` and read it back: it is good when it reads good and equals `v`. -/
def Dev.burnWord (d : Dev) (f : Fuses) (miss : List BurnMiss) (k : Nat) (v : Word) : Bool × Fuses × Dev :=
  let f1 := f.program miss k v
  let o := otpJudge (d.otpSense f1 k)
  let d1 := (d.bump 0 bOtp 0x80 1).otpNote k o
  if o == .good v then (true, f1, d1.bump 0 bOtp 0x98 1)
  else (false, f1, (d1.raise0 193 { kind := 16, inst := k / 64, a := k % 64 }).orCsr 0 bOtp 0x40 8)

/-- Burn lock fuses of a region in both copies: bit 0 write lock, bit 1 read lock. -/
def Fuses.lock (f : Fuses) (miss : List BurnMiss) (r which : Nat) : Fuses :=
  let m := missOf miss (2048 + r)
  let w := fun (x : Word) (i : Nat) => if bit which i && !bit x.toNat i then 2 ^ r else 0
  { f with wlA := f.wlA ||| w m.1 0, wlB := f.wlB ||| w m.2 0, rlA := f.rlA ||| w m.1 1, rlB := f.rlB ||| w m.2 1 }

/-- Life-cycle states in which OTP_PROGRAM may burn a region (R453). -/
def burnedIn (r : Nat) (lc : LcSt) : Bool :=
  if r = 1 ∨ r = 31 then false
  else if decide (5 ≤ r ∧ r ≤ 12) || decide (17 ≤ r ∧ r ≤ 20) || decide (23 ≤ r ∧ r ≤ 30) then lc == .manufacture || lc == .provision
  else lc == .manufacture

/-! ### Meanings -/

def execOtpSweepStart (s : State) : Host.Outcome State Fault Refusal := guardNext true (fun d => d.sweepStart) s
def execOtpWordRead (w : Nat) (r : OtpSense) (s : State) : Host.Outcome State Fault Refusal :=
  guardFuse (otpWordOk w) (fun f d => d.wordRead f w r) s
def execOtpSweepEnd (s : State) : Host.Outcome State Fault Refusal := guardNext true (fun d => d.sweepEnd) s
/-- A write of PROG_CTRL with OPEN 1 (R462), which the management port, Heartwood and JTAG before END may make. -/
def execProgWindowOpen (p : Path) (v : Word) (s : State) : Host.Outcome State Fault Refusal :=
  guardNext (pathOk p) (fun d => if d.mayWrite p then d.progCtrl (v ||| 1) else d) s
/-- A write of PROG_CTRL with OPEN 0 (R462). -/
def execProgWindowClose (p : Path) (v : Word) (s : State) : Host.Outcome State Fault Refusal :=
  guardNext (pathOk p) (fun d => if d.mayWrite p then d.progCtrl (v &&& ~~~1) else d) s
def execProgWindowExpiry (s : State) : Host.Outcome State Fault Refusal :=
  guardNext true (fun d => if due d.otp.win d.dt then d.winClose else d) s

end Sys2Proof.Machine
end

