-- ==== Sys2Proof/Machine/ThermOps.lean ====
section
/-!
DEFINITION. The thermal unit and calibration (R391 to R411), and the clearing of held fault sources (R417, R407).
-/
namespace Sys2Proof.Machine

def Dev.sensor (d : Dev) (i : Nat) : Sensor := tabGet (fun _ => {}) d.therm.sensor i
def Dev.modSensor (d : Dev) (i : Nat) (f : Sensor → Sensor) : Dev :=
  { d with therm := { d.therm with sensor := tabMod (fun _ => {}) d.therm.sensor i f } }
def Dev.layer (d : Dev) (n : Nat) : LayerT := tabGet (fun _ => {}) d.therm.layer n
def Dev.modLayer (d : Dev) (n : Nat) (f : LayerT → LayerT) : Dev :=
  { d with therm := { d.therm with layer := tabMod (fun _ => {}) d.therm.layer n f } }
def Dev.coef (d : Dev) (n : Nat) : Coef := tabGet coefDefault d.therm.coef n

/-- DRAM layer k lies at layer 1 + k + k div 4, compute layer t at 5 + 5t (R20). -/
def dramLayer (k : Nat) : Nat := 1 + k + k / 4
/-- Layer of a sensor (R391). -/
def sensorLayer (i : Nat) : Nat :=
  if i < 32 then 0 else if i < 96 then dramLayer ((i - 32) / 4) else 5 + 5 * ((i - 96) / 16)
/-- Sensors of a layer. -/
def layerSensors (n : Nat) : List Nat := (List.range 160).filter (fun i => sensorLayer i == n)

/-! ### Calibration (R404 to R407) -/

/-- Reference sensor of a domain. -/
def domSensor (n : Nat) : Nat :=
  if n < 144 then n / 8 else if n < 162 then n - 144 else if n < 226 then 32 + (n - 162) else 31

/-- A domain is triggered (R405): ignored while suspended; every trigger is passed to the OTP controller. -/
def Dev.calTrigger (d : Dev) (n : Nat) : Dev :=
  if (d.dom n).suspended then d
  else ((if (d.dom n).pending || (d.dom n).step.isSome || (d.dom n).inRun then d else d.modDom n (fun x => { x with pending := true })).otpTrigger)

/-- Every domain is triggered: the first entry to SERVICE after BOOT, and each RETAIN exit (R405). -/
def Dev.calAll (d : Dev) : Dev := (List.range 227).foldl (fun a n => a.calTrigger n) d

/-- The keep-alive ring starts (R383): it has yet to settle. -/
def Dev.ringStart (d : Dev) (cause : Nat) : Dev :=
  d.modClk (fun c => { c with ringOn := true, ringSettled := false, ringCause := cause, ringAt := d.dt })

/-- The gap of a domain is announced (R404). -/
def Dev.calGap (d : Dev) (n : Nat) : Bool :=
  if n < 144 then (d.lane n).gap
  else if n < 162 then d.octGap (n - 144)
  else if n < 226 then d.inGap (n - 162)
  else !d.clk.hold && d.clk.refOk

/-- CAL_STEP_START (R406): a pending domain, not suspended, inside its gap. -/
def Dev.calStart (d : Dev) (n : Nat) : Dev :=
  let x := d.dom n
  if x.suspended || x.step.isSome || !(x.pending || x.inRun) || !d.calGap n then d
  else
    let d1 := d.modDom n (fun x => { x with
      step := some d.dt, lim := 1000 * d.cfgFld 0 bThermal 0x18 16 10, pending := false, inRun := true, startT := if x.inRun then x.startT else (d.sensor (domSensor n)).reading })
    if n = 226 then d1.ringStart 2 else d1

/-- A bad calibration (R407): the third in a row raises FS045 and suspends the domain. -/
def Dev.calBad (d : Dev) (n : Nat) : Dev :=
  let d1 := (d.modDom n (fun x => { x with step := none, inRun := false, fails := x.fails + 1 })).bump 0 bThermal 0x90 1
  if (d1.dom n).fails < 3 then d1
  else ((d1.modDom n (fun x => { x with suspended := true, pending := false })).raise0 45 { kind := 11, inst := n }).orCsr 0 bThermal 0x30 16

/-- CAL_STEP_FINISH (R406): `ok` the run is complete and successful; otherwise the run goes on with a further step. A
step that finishes at its limit, or whose lane gap has been withdrawn, is no success. -/
def Dev.calFinish (d : Dev) (n : Nat) (ok : Bool) : Dev :=
  let x := d.dom n
  match x.step with
  | none => d
  | some t =>
    let d := d.arb 9 n n 0
    if t + x.lim ≤ d.dt then d.calBad n
    else if n < 162 && !d.calGap n then
      (d.modDom n (fun x => { x with step := none, inRun := false, pending := true })).bump 0 bThermal 0x98 1
    else if ok then
      (d.modDom n (fun x => { x with step := none, inRun := false, fails := 0, refT := x.startT, ran := true })).bump 0 bThermal 0x88 1
    else d.modDom n (fun x => { x with step := none })

/-- CAL_STEP_TIMEOUT (R406, R407). -/
def Dev.calTimeout (d : Dev) (n : Nat) : Dev :=
  match (d.dom n).step with
  | some t => if t + (d.dom n).lim ≤ d.dt then d.calBad n else d
  | none => d

/-- Clear a held source (R417); FS045 resumes every suspended domain with a fresh trigger (R407). Answers whether an
escalation was stopped. -/
def Dev.clearSource (d : Dev) (n : Nat) : Dev × Bool :=
  let esc := (d.src n).held && (d.src n).esc.isSome
  let (d1, held) := d.faultClear n
  let d2 := if n = 45 && held then
      (List.range 227).foldl (fun (a : Dev) k =>
        if (a.dom k).suspended then (a.modDom k (fun x => { x with suspended := false, fails := 0 })).calTrigger k else a) d1
    else d1
  (d2, esc)

/-! ### Sensors (R392, R393) -/

/-- The sensor is judged broken. -/
def Dev.sensorBreak (d : Dev) (i : Nat) : Dev :=
  let d1 := d.modSensor i (fun s => { s with broken := true, good := 0 })
  if (d.sensor i).broken then d1 else (d1.raise0 44 { kind := 10, inst := i }).orCsr 0 bThermal 0x30 4

/-- SENSOR_CONVERSION: a reading in 1/16 °C as the conversion and trim give it; the default curve adds 5 °C. -/
def Dev.sensorConv (d : Dev) (i : Nat) (t : Int) : Dev :=
  -- sensor 31 holds its reading while the ring restarts; while DT is frozen every sensor keeps its own
  if (i = 31 && d.clk.ringOn && !d.clk.ringSettled) || d.clk.dtSrc == .frozen then d
  else
    let t1 := if d.therm.noTrim then t + 80 else t
    let range := decide (-640 ≤ t1 ∧ t1 ≤ 2400)
    let d1 := (d.modSensor i (fun s => { s with
      reading := t1, lastAt := d.dt, good := if range then s.good + 1 else 0
      broken := s.broken && !(range && decide (1000 ≤ s.good + 1))
      valid := range && (!s.broken || decide (1000 ≤ s.good + 1)) })).bump 0 bThermal 0x80 1
    let d2 := if range then d1 else d1.sensorBreak i
    -- a drift of more than DELTA_C triggers the domains that refer to the sensor (R405)
    (List.range 227).foldl (fun (a : Dev) n =>
      if domSensor n = i ∧ (a.dom n).ran ∧ (16 * d.cfgFld 0 bThermal 0x18 0 5 : Nat) < (t1 - (a.dom n).refT).natAbs ∧ !(a.dom n).suspended then a.calTrigger n else a) d2

/-- SENSOR_TIMEOUT: no conversion for 30 µs. -/
def Dev.sensorLate (d : Dev) (i : Nat) : Dev :=
  if d.clk.dtSrc == .frozen || d.dt < (d.sensor i).lastAt + 30000 then d
  else (d.sensorBreak i).modSensor i (fun s => { s with valid := false })

/-! ### Layers (R394 to R397) -/

/-- Valid readings of a layer: sensors that are not broken. -/
def Dev.readings (d : Dev) (n : Nat) : List Int :=
  (layerSensors n).filterMap (fun i => if (d.sensor i).valid && !(d.sensor i).broken then some (d.sensor i).reading else none)

/-- The highest of a list, if any. -/
def maxInt : List Int → Option Int
  | [] => none
  | x :: t => some (t.foldl max x)

/-- T_pred of a layer in 1/16 °C (R395): exact, rounded down. Means keep their sum and count; a neighbour that is left
out gives its weight to the other. -/
def Dev.predict (d : Dev) (n : Nat) (power : Nat) : Option Int :=
  let c := d.coef n
  let nb := fun (j : Nat) => if 21 ≤ j || (d.layer j).suspect || (d.readings j).isEmpty then none else some (d.readings j)
  let lo := if n = 0 then none else nb (n - 1)
  let hi := nb (n + 1)
  -- everything over the common denominator 256 * count * 64 * 10 of 1/16 °C
  let term := fun (w : Nat) (l : List Int) => (w : Int) * l.sum * 640
  let rest := fun (k : Int) => (c.ofs * 4 * 256 * 640 + (c.theta * power * 16 * 256 : Nat)) * k
  match lo, hi with
  | some a, some b =>
    let ka : Int := a.length
    let kb : Int := b.length
    some ((term c.wlo a * kb + term c.whi b * ka + rest (ka * kb)) / (256 * 640 * ka * kb))
  | some a, none => let k : Int := a.length; some ((term (c.wlo + c.whi) a + rest k) / (256 * 640 * k))
  | none, some b => let k : Int := b.length; some ((term (c.wlo + c.whi) b + rest k) / (256 * 640 * k))
  | none, none => none

/-- M lies more than `x` 1/16 °C below a prediction. -/
def belowBy (l : List Int) (p x : Int) : Bool := !l.isEmpty && decide (l.sum < (p - x) * l.length)
/-- M lies within `x` 1/16 °C of a prediction. -/
def withinBy (l : List Int) (p x : Int) : Bool :=
  !l.isEmpty && decide ((p - x) * l.length ≤ l.sum) && decide (l.sum ≤ (p + x) * l.length)

/-- Suspicion of a layer by its prediction (R396); answers whether it becomes suspect now. -/
def LayerT.judge (y : LayerT) (l : List Int) (p : Option Int) (susp suspN : Nat) : LayerT × Bool :=
  match p with
  | none => ({ y with pred := none, count := if y.suspect then y.count else 0 }, false)
  | some t =>
    if y.suspect then
      let c := if withinBy l t 48 then y.clear + 1 else 0
      if 100 ≤ c then ({ y with pred := some t, suspect := false, clear := 0, count := 0 }, false)
      else ({ y with pred := some t, clear := c }, false)
    else
      let c := if belowBy l t (16 * susp) then y.count + 1 else 0
      if suspN ≤ c then ({ y with pred := some t, suspect := true, count := c, clear := 0 }, true)
      else ({ y with pred := some t, count := c }, false)

/-- The layer temperature and its SRC (R394). -/
def layerTemp (y : LayerT) (l : List Int) (all : Bool) (subst limit : Nat) : Int × Nat :=
  let s : Int := 16 * subst
  match maxInt l, y.pred with
  | top, some p =>
    if y.suspect then (p + s, 1)
    else match top with
      | some m => if all then (m, 0) else (max m (max p m + s), 2)
      | none => (p + s, 2)
  | some m, none =>
    if y.suspect then (max (16 * limit : Nat) (m + s), 3) else if all then (m, 0) else (m + s, 2)
  | none, none => ((16 * limit : Nat), 3)

/-- The rise trip of a layer is in force. -/
def Dev.rising (d : Dev) (n : Nat) : Bool := match (d.layer n).rise with | some t => decide (d.dt < t) | none => false

/-- One layer of an evaluation, with its prediction: suspicion, temperature, rise (R394 to R397). -/
def Dev.evalLayer (d : Dev) (n power : Nat) (p : Option Int) : Dev :=
  let y0 := d.layer n
  let l := d.readings n
  let (y1, newSus) := y0.judge l p (d.cfgFld 0 bThermal 0x1C 0 5) (d.cfgFld 0 bThermal 0x1C 8 4)
  let all := (layerSensors n).all (fun i => (d.sensor i).valid && !(d.sensor i).broken)
  let (t, src) := layerTemp y1 l all (d.cfgFld 0 bThermal 0x1C 16 5) (d.cfgFld 0 bThermal 0x10 8 8)
  -- a change of SRC is no rise: the window restarts
  let win := (if src = y0.src then y0.hist else []).filter (fun h => decide (d.dt ≤ h.1 + 1000000 * d.cfgFld 0 bThermal 0x14 8 7))
  let trip := win.any (fun h => decide (h.2 + 16 * d.cfgFld 0 bThermal 0x14 0 5 < t))
  let hold := 1000000 * d.cfgFld 0 bThermal 0x14 16 10
  let d1 := d.modLayer n (fun _ => { y1 with
    temp := t, src := src, power := power, hist := win ++ [(d.dt, t)], rise := if trip then some (d.dt + hold) else y1.rise })
  let d2 := if newSus then
      (d1.raise0 42 { kind := 9, inst := n, a := ofSigned 32 (l.sum / l.length), b := ofSigned 32 (p.getD 0) }).orCsr 0 bThermal 0x30 2
    else d1
  if trip then
    let low := win.foldl (fun m h => min m h.2) t
    let d3 := d2.bump 0 bThermal 0xA0 1
    if d.rising n then d3 else (d3.raise0 40 { kind := 9, inst := n, a := (t - low).toNat }).orCsr 0 bThermal 0x30 1
  else d2

/-- Admitted fraction of the channels of DRAM layer `k` of tier k div 4 (R397, R399). -/
def Dev.admitNow (d : Dev) (k : Nat) : Nat × Nat :=
  let ls := [dramLayer k, 5 + 5 * (k / 4), 0]
  let t := ls.foldl (fun m n => max m (d.layer n).temp) (d.layer 0).temp
  let th : Int := 16 * d.cfgFld 0 bThermal 0x10 0 8
  let li : Int := 16 * d.cfgFld 0 bThermal 0x10 8 8
  let a : Nat × Nat := if t ≤ th then (1, 1) else if li ≤ t then (1, 8) else ((li - t).toNat, (li - th).toNat)
  let b : Nat × Nat := if a.1 * 8 < a.2 then (1, 8) else a
  if ls.any d.rising && decide (b.2 < 2 * b.1) then (1, 2) else b

/-- The envelope of R401. -/
def Dev.inEnvelope (d : Dev) : Bool :=
  (List.range 21).all (fun n => decide ((d.layer n).temp ≤ (16 * d.cfgFld 0 bThermal 0x10 0 8 : Nat)) && !d.rising n && (d.layer n).src != 3)

/-- What follows from the layer temperatures and rise trips: admitted fractions, envelope, flags (R399, R401). -/
def Dev.thermJudge (d : Dev) : Dev :=
  let d1 := (List.range 16).foldl (fun (a : Dev) k =>
    a.modReg (fun r => { r with admitted := tabSet (fun _ => (1, 1)) r.admitted k (d.admitNow k) })) d
  let d2 := (if d.therm.throttling then d1.bump 0 bThermal 0xA8 (d.dt - d.therm.throtAt) else d1).modTherm (fun t => { t with
    throtAt := d.dt, throttling := (List.range 16).any (fun k => (d.admitNow k) != (1, 1)) })
  let env := d.inEnvelope
  let was := d.therm.envelope
  let d3 := d2.modTherm (fun t => { t with envelope := env })
  if was && !env then (d3.availEvent 3 false 0xFFFF).orCsr 0 bThermal 0x30 32
  else if !was && env then d3.availEvent 3 true 0xFFFF
  else d3

/-- The refresh band of a DRAM layer temperature (R398). -/
def bandOf (t : Int) : Nat := if t ≤ 1360 then 0 else if t ≤ 1520 then 1 else 2

/-- The channels of a layer follow its temperature: a higher band at once, also above the lower one that a catch-up's end would bring; a
lower one by BAND_DOWN (R229). -/
def Dev.followBand (d : Dev) (k : Nat) : Dev :=
  let t := (d.layer (dramLayer k)).temp
  (List.range 4).foldl (fun (a : Dev) j =>
    let c := 4 * k + j
    if a.retired c then a
    else
      let hyst : Int := 16 * a.cfgFld c bDram 0x38 0 3
      let since := fun (old : Option Nat) (ok : Bool) => if ok then (match old with | some e => some e | none => some a.dt) else none
      let a1 := a.modCh c (fun x => { x with
        b0Since := since x.b0Since (decide (t ≤ 1360 - hyst)), b1Since := since x.b1Since (decide (t ≤ 1520 - hyst)) })
      if (a1.ch c).nextBand.getD (a1.ch c).band < bandOf t then a1.bandUp c (bandOf t) else a1) d

/-- RISE_HOLD_EXPIRY (R397). -/
def Dev.riseEnd (d : Dev) : Dev :=
  ((List.range 21).foldl (fun (a : Dev) n => if due (a.layer n).rise a.dt then a.modLayer n (fun y => { y with rise := none }) else a) d).thermJudge

/-! ### Meanings -/

def execSensorConversion (i : Nat) (t : Int) (s : State) : Host.Outcome State Fault Refusal :=
  guardNext (sensorOk i) (fun d => d.sensorConv i t) s
def execSensorTimeout (i : Nat) (s : State) : Host.Outcome State Fault Refusal :=
  guardNext (sensorOk i) (fun d => d.sensorLate i) s
def execRiseHoldExpiry (s : State) : Host.Outcome State Fault Refusal := guardNext true (fun d => d.riseEnd) s
def execCalStepStart (dom : Nat) (s : State) : Host.Outcome State Fault Refusal :=
  guardNext (domOk dom) (fun d => d.calStart dom) s
def execCalStepFinish (dom : Nat) (ok : Bool) (s : State) : Host.Outcome State Fault Refusal :=
  guardNext (domOk dom) (fun d => d.calFinish dom ok) s
def execCalStepTimeout (dom : Nat) (s : State) : Host.Outcome State Fault Refusal :=
  guardNext (domOk dom) (fun d => d.calTimeout dom) s

end Sys2Proof.Machine
end

