-- ==== Sys2Proof/Machine/Flash.lean ====
section
/-!
DEFINITION. The boot flash (R488, R489): its bytes, and the records that firmware and the ROM loader keep in two copies.
-/
namespace Sys2Proof.Machine

/-- Bytes of the flash; an erased byte reads 0xFF. -/
def Dev.flashAt (d : Dev) (o n : Nat) : List Byte := (List.range n).map (fun i => tabGet (fun _ => (0xFF : Byte)) d.boot.flash (o + i))
/-- Write bytes into an area that has been erased for them. -/
def Dev.flashPut (d : Dev) (o : Nat) (bs : List Byte) : Dev :=
  d.modBoot (fun b => { b with flash := bs.zipIdx.foldl (fun t x => tabSet (fun _ => 0xFF) t (o + x.2) x.1) b.flash })
/-- Erase `n` bytes. -/
def Dev.flashErase (d : Dev) (o n : Nat) : Dev :=
  d.modBoot (fun b => { b with flash := b.flash.filter (fun e => !decide (o ≤ e.1 ∧ e.1 < o + n)) })

/-- A record whose last four bytes are the CRC-32 of all before them, under its MAGIC (R360). -/
def recValid (magic : Nat) (bs : List Byte) : Bool :=
  leAt bs 0 4 == magic && leAt bs (bs.length - 4) 4 == crc32 (bs.take (bs.length - 4))
/-- A record with its checksum. -/
def withCrc (bs : List Byte) : List Byte := bs ++ leBytes 4 (crc32 bs)

/-- The valid copy with the higher SEQ, as 0 or 1 (R360): the first where both are equal. -/
def pickCopy (va : Bool) (sa : Nat) (vb : Bool) (sb : Nat) : Option Nat :=
  if va && vb then some (if sa < sb then 1 else 0) else if va then some 0 else if vb then some 1 else none

/-- The two copies of a record of `n` bytes: the copy in force and its bytes. -/
def Dev.recordOf (d : Dev) (o0 o1 n magic : Nat) : Option (Nat × List Byte) :=
  let a := d.flashAt o0 n
  let b := d.flashAt o1 n
  match pickCopy (recValid magic a) (leAt a 4 4) (recValid magic b) (leAt b 4 4) with
  | some 0 => some (0, a)
  | some _ => some (1, b)
  | none => none

/-- Write a record to the copy not in force, with SEQ advanced by one. `body`: the bytes from offset 8. -/
def Dev.recordPut (d : Dev) (o0 o1 n magic : Nat) (body : List Byte) : Dev :=
  let (o, seq) := match d.recordOf o0 o1 n magic with
    | some (0, a) => (o1, leAt a 4 4 + 1)
    | some (_, b) => (o0, leAt b 4 4 + 1)
    | none => (o0, 0)
  (d.flashErase o 4096).flashPut o (withCrc (leBytes 4 magic ++ leBytes 4 (seq % 2 ^ 32) ++ padTo (n - 12) body))

/-! ### The image state record (R313) -/

structure ImgRec where
  active : Nat := 0
  trial : Bool := false
  boots : Nat := 0
  deriving DecidableEq, Repr

def Dev.imgRec? (d : Dev) : Option ImgRec :=
  (d.recordOf 0xF000 0xB000 32 0x46495331).map (fun (_, b) =>
    { active := leAt b 8 1 % 2, trial := bit (leAt b 8 1) 1, boots := leAt b 9 1 })
/-- The record in force; neither copy valid: ACTIVE 0, TRIAL 0, TRIAL_BOOTS 0. -/
def Dev.imgRec (d : Dev) : ImgRec := d.imgRec?.getD {}
def Dev.imgRecPut (d : Dev) (r : ImgRec) : Dev :=
  d.recordPut 0xF000 0xB000 32 0x46495331 [byte (r.active + 2 * b2n r.trial), byte r.boots]

/-! ### The slot record (R360) -/

structure SlotEntry where
  present : Bool := false
  area : Nat := 0
  gen : Nat := 0
  length : Nat := 0
  crc : Nat := 0
  deriving DecidableEq, Repr

structure SlotRec where
  a : SlotEntry := {}
  p : SlotEntry := {}
  pending : Bool := false
  owner : Nat := 0
  deriving DecidableEq, Repr

def slotEntryOf (b : List Byte) (o : Nat) : SlotEntry :=
  { area := leAt b o 1, present := bit (leAt b (o + 1) 1) 0, gen := leAt b (o + 4) 4, length := leAt b (o + 8) 4, crc := leAt b (o + 12) 4 }
def SlotEntry.bytes (e : SlotEntry) : List Byte :=
  [byte e.area, byte (b2n e.present), 0, 0] ++ leBytes 4 e.gen ++ leBytes 4 e.length ++ leBytes 4 e.crc
def Dev.slotRec? (d : Dev) : Option SlotRec :=
  (d.recordOf 0xD000 0xE000 64 0x43535431).map (fun (_, b) =>
    { a := slotEntryOf b 8, p := slotEntryOf b 24, pending := bit (leAt b 40 1) 0, owner := leAt b 41 1 % 128 })
def Dev.slotRecPut (d : Dev) (r : SlotRec) : Dev :=
  d.recordPut 0xD000 0xE000 64 0x43535431 (r.a.bytes ++ r.p.bytes ++ [byte (b2n r.pending), byte r.owner])

/-- Flash area of an image: X, Y, Z (R360). -/
def areaAt (n : Nat) : Nat := 0x900000 + 0x40000 * n

/-! ### The repair record (R441) -/

/-- Length of a repair record with its rows. -/
def repairLen (b : List Byte) : Nat := 784 + 8 * leAt b 8 2 + 4
def Dev.repairCopy (d : Dev) (o : Nat) : List Byte := d.flashAt o (repairLen (d.flashAt o 16))
def repairOk (b : List Byte) : Bool := recValid 0x47524631 b && decide (leAt b 8 2 ≤ 16384)
/-- The repair record in force: copy and bytes. -/
def Dev.repairRec (d : Dev) : Option (Nat × List Byte) :=
  let a := d.repairCopy 0x10000
  let b := d.repairCopy 0x50000
  match pickCopy (repairOk a) (leAt a 4 4) (repairOk b) (leAt b 4 4) with
  | some 0 => some (0, a)
  | some _ => some (1, b)
  | none => none

/-- The body of the repair record, from offset 8. -/
def Dev.repairBody (d : Dev) : List Byte :=
  let spare := fun (s : Spare) => byte (s.link % 64 + 64 * b2n s.v + 128 * b2n s.fused)
  leBytes 2 d.graft.rows.length ++ List.replicate 6 0 ++
    ((List.range 64).map (fun c => byte (b2n (d.retired c) + 2 * b2n (d.ch c).failed) ::
      ((List.range 6).map (fun n => spare (d.spare c n)) ++ [0]))).flatten ++
    ((List.range 4).map (fun t => ((List.range 32).map (fun g => leBytes 2 (min 63 (d.trunk t g).link + 2 ^ 15 * b2n (d.trunk t g).v))).flatten)).flatten ++
    (d.graft.rows.map (fun r => [byte r.ch, byte r.bank] ++ leBytes 2 r.row ++ [byte r.spare, 0, 0, 0])).flatten

/-- REPAIR_RECORD_WRITE (R441): the write that is due; a write that does not reach the flash stays due. -/
def Dev.repairWrite (d : Dev) (ok : Bool) : Dev :=
  if d.graft.repairBy.isNone || !ok then d
  else
    let (o, seq) := match d.repairRec with
      | some (0, a) => (0x50000, (leAt a 4 4 + 1) % 2 ^ 32)
      | some (_, b) => (0x10000, (leAt b 4 4 + 1) % 2 ^ 32)
      | none => (0x10000, 0)
    let d1 := (d.flashErase o 0x40000).flashPut o (withCrc (leBytes 4 0x47524631 ++ leBytes 4 seq ++ d.repairBody))
    d1.modGraft (fun g => { g with repairBy := none, repairSeq := seq, repairCopy := if o = 0x10000 then 0 else 1 })

/-! ### The shut-down test record (R443) -/

/-- Bytes 0 to 96 of a shut-down test record. -/
def sdtBytes (seq chipid now fail repairSeq fw lc : Nat) (key : List Byte) : List Byte :=
  let b := leBytes 4 0x53445431 ++ leBytes 4 seq ++ leBytes 8 chipid ++ leBytes 8 now ++ [byte (b2n (fail != 0)), 0, 0, 0] ++
    leBytes 4 fail ++ leBytes 4 repairSeq ++ leBytes 2 fw ++ [byte lc] ++ List.replicate 25 0
  b ++ padTo 32 (Config.hmac256 key b) ++ [0xFF]

/-- The record in force: copy and its 97 bytes. Only its MAGIC makes a copy valid: it carries no CRC (DEDUCED). -/
def Dev.sdtRec (d : Dev) : Option (Nat × List Byte) :=
  let a := d.flashAt 0x9000 97
  let b := d.flashAt 0xA000 97
  match pickCopy (leAt a 0 4 == 0x53445431) (leAt a 4 4) (leAt b 0 4 == 0x53445431) (leAt b 4 4) with
  | some 0 => some (0, a)
  | some _ => some (1, b)
  | none => none

/-- The shut-down test secret, descrambled (R465); none where region 21 is absent (R458). -/
def Dev.sdtKey (d : Dev) (f : Fuses) : Option (List Byte) :=
  if bit d.otp.present 21 then
    some ((List.range 8).map (fun w => leBytes 4 ((d.otpVal f (1344 + w)) ^^^ Config.scramble 21 w).toNat)).flatten
  else none

/-- Write the record; answers whether it was written and its SEQ. -/
def Dev.sdtWrite (d : Dev) (f : Fuses) (fail : Nat) (ok : Bool) : Bool × Nat × Dev :=
  match d.sdtKey f with
  | none => (false, 0, d)
  | some key =>
    if !ok then (false, 0, d)
    else
      let (o, seq) := match d.sdtRec with
        | some (0, a) => (0xA000, (leAt a 4 4 + 1) % 2 ^ 32)
        | some (_, b) => (0x9000, (leAt b 4 4 + 1) % 2 ^ 32)
        | none => (0x9000, 0)
      (true, seq, (d.flashErase o 4096).flashPut o
        (sdtBytes seq d.otp.chipid d.dt fail d.graft.repairSeq d.mbox.ver (lcCode d.otp.lc) key))

/-! ### The wear record (R447) -/

/-- Write every S to the next of the 16 sectors. -/
def Dev.wearWrite (d : Dev) : Dev :=
  let n := d.graft.wearSector
  let r : WearRec := { seq := d.graft.wearSeq + 1, stress := d.graft.stress, trunkStress := d.graft.trunkStress, subStress := d.graft.subStress }
  (d.modBoot (fun b => { b with wear := tabSet (fun _ => none) b.wear n (some r) })).modGraft (fun g => { g with
    wearSector := (n + 1) % 16, wearSeq := g.wearSeq + 1, wearHour := d.dt })

end Sys2Proof.Machine
end

