-- ==== Sys2Proof/Machine/CmdTable.lean ====
section
/-!
DEFINITION. The firmware command table (R324 to R348): owners, modes and limits.
-/
namespace Sys2Proof.Machine

/-- One row: owners (1 partners, 2 management port, 4 boot path), modes by bit of their code, limit in ms. -/
structure CmdInfo where
  own : Nat
  modes : Nat
  limit : Nat
  deriving DecidableEq, Repr

def cmdInfo (op : Nat) : Option CmdInfo :=
  match op with
  | 0x0101 | 0x0102 => some ⟨7, 0x3F, 1⟩
  | 0x0103 => some ⟨2, 0x3E, 1⟩
  | 0x0105 => some ⟨6, 0x0E, 10⟩
  | 0x0106 => some ⟨6, 0x3F, 1⟩
  | 0x0201 => some ⟨6, 0x3E, 100⟩
  | 0x0202 => some ⟨6, 0x0A, 4000⟩
  | 0x0301 => some ⟨6, 0x0E, 10⟩
  | 0x0302 => some ⟨6, 0x0E, 2⟩
  | 0x0303 => some ⟨6, 0x0E, 50⟩
  | 0x0304 => some ⟨7, 0x0E, 2⟩
  | 0x0305 => some ⟨7, 0x3E, 1⟩
  | 0x0306 => some ⟨6, 0x0E, 2000⟩
  | 0x0307 => some ⟨6, 0x0E, 50⟩
  | 0x0308 => some ⟨6, 0x0E, 2000⟩
  | 0x0401 => some ⟨7, 0x0E, 1⟩
  | 0x0402 => some ⟨1, 0x0E, 1⟩
  | 0x0403 => some ⟨2, 0x0E, 10⟩
  | 0x0404 => some ⟨7, 0x0E, 1⟩
  | 0x0405 => some ⟨7, 0x1E, 1⟩
  | 0x0406 => some ⟨2, 0x0E, 1⟩
  | 0x0501 => some ⟨6, 0x1E, 1⟩
  | 0x0502 => some ⟨6, 0x0E, 10⟩
  | 0x0601 | 0x0602 => some ⟨3, 0x04, 1⟩
  | 0x0603 => some ⟨7, 0x04, 1⟩
  | 0x0604 => some ⟨6, 0x04, 200⟩
  | 0x0701 => some ⟨3, 0x04, 10⟩
  | 0x0702 => some ⟨2, 0x08, 2500⟩
  | 0x0703 => some ⟨7, 0x0C, 1⟩
  | 0x0704 => some ⟨3, 0x0C, 1⟩
  | 0x0801 | 0x0802 => some ⟨7, 0x0E, 1⟩
  | 0x0803 => some ⟨6, 0x0E, 5⟩
  | 0x0901 => some ⟨6, 0x1E, 1⟩
  | 0x0902 => some ⟨7, 0x3E, 1⟩
  | 0x0903 => some ⟨6, 0x1E, 5⟩
  | 0x0A01 => some ⟨7, 0x3E, 1⟩
  | 0x0A02 => some ⟨6, 0x3E, 1⟩
  | 0x0A03 => some ⟨6, 0x0E, 1⟩
  | 0x0A04 => some ⟨6, 0x02, 1⟩
  | 0x0A05 => some ⟨6, 0x3E, 1⟩
  | 0x0B01 => some ⟨7, 0x1E, 1⟩
  | 0x0B02 => some ⟨6, 0x0E, 20⟩
  | 0x0B03 => some ⟨2, 0x0C, 10⟩
  | 0x0B04 => some ⟨6, 0x02, 6000⟩
  | 0x0B05 => some ⟨7, 0x0E, 1⟩
  | 0x0C01 => some ⟨6, 0x0F, 5⟩
  | 0x0C02 => some ⟨6, 0x02, 1⟩
  | 0x0C03 | 0x0C05 => some ⟨6, 0x02, 200⟩
  | 0x0C04 => some ⟨6, 0x02, 20⟩
  | 0x0D01 => some ⟨7, 0x0F, 8000⟩
  | 0x0D02 => some ⟨7, 0x0F, 5⟩
  | 0x0D03 => some ⟨7, 0x0F, 100⟩
  | 0x0D04 => some ⟨7, 0x0E, 150⟩
  | 0x0D05 => some ⟨7, 0x0E, 50⟩
  | 0x0D06 => some ⟨7, 0x3F, 1⟩
  | 0x0E01 | 0x0E02 | 0x0E03 => some ⟨7, 0x3E, 1⟩
  | _ => none

/-- Group of an owner in the Owners column. -/
def ownBit (o : Nat) : Nat := if o < 64 then 0 else if o = 64 then 1 else 2

/-- The exclusive opcodes (R323). -/
def cmdExclusive (op : Nat) : Bool :=
  [0x0106, 0x0201, 0x0202, 0x0306, 0x0308, 0x0702, 0x0B02, 0x0B03, 0x0B04, 0x0C03, 0x0C04, 0x0C05, 0x0D04].contains op

/-- An opcode may run in a mode. -/
def cmdInMode (op : Nat) (m : Mode) : Bool := match cmdInfo op with | some c => bit c.modes (modeCode m) | none => false

/-- Run time of a command in ns after which FS164 is raised (R306): the table's limit, with the parameter it adds. -/
def Dev.cmdLimit (d : Dev) (img : List Byte) : Nat :=
  let op := cmdOpcode img
  let p := cmdParams img
  let base := match cmdInfo op with | some c => c.limit | none => 0
  let add := if op = 0x0201 then (if leAt p 2 2 = 0 then 1000 else leAt p 2 2)
    else if op = 0x0403 then d.cfgFld 0 bPartner 0x100 16 16
    else if op = 0x0502 then leAt p 4 2 else 0
  1000000 * (base + add)

/-- Firmware runs: Heartwood is clocked, not stopped, reset or in ROM (R309, R380, R384). -/
def Dev.fwUp (d : Dev) : Bool := d.mbox.fwState == 1 && d.clk.refOk && !d.clk.hwStopped

/-- The pair that runs a command of opcode `op`, in the mode that serves it: firmware, or the ROM loader for mailbox 65
in BOOT. -/
def Dev.runs (d : Dev) (o i op : Nat) : Bool :=
  (d.pair o i).st == .running && cmdOpcode (d.pair o i).cmd == op &&
    (d.fwUp || (d.mbox.fwState == 0 && o == 65 && d.clk.refOk) || (d.mbox.fwState == 2 && d.clk.refOk && !d.clk.hwStopped))

/-- Parameters of the command in a pair. -/
def Dev.par (d : Dev) (o i : Nat) : List Byte := cmdParams (d.pair o i).cmd

end Sys2Proof.Machine
end

