-- ==== Sys2Proof/Machine/ModeOps.lean ====
section
/-!
DEFINITION. Modes and their transitions (R371 to R377), the clocked islands, device time and the clock monitor (R378 to
R390), and thermal evaluation with its shutdown (R394 to R403).
-/
namespace Sys2Proof.Machine

/-- DOZE and RETAIN keep the channels in self-refresh. -/
def Mode.sleeps (m : Mode) : Bool := m == .doze || m == .retain

/-- The MODE event (R377). -/
def Dev.modeEvent (d : Dev) (os : List Nat) (old new : Mode) (cause owner : Nat) (fallback : Bool) (hold : Nat) : Dev :=
  d.postAll os 0x61 ([byte (modeCode old), byte (modeCode new), byte cause, byte owner] ++ leBytes 4 (b2n fallback) ++
    leBytes 8 d.dt ++ leBytes 8 hold)

/-- Grooming that a mode has paused for `ns` goes on: of DRAM in MAINT, of SRAM in RETAIN (R371). Self-refresh pauses DRAM grooming by itself
(R248). -/
def Dev.groomPause (d : Dev) (old : Mode) (ns : Nat) : Dev :=
  if old == .maint then (List.range 64).foldl (fun (a : Dev) c => a.modCh c (fun x => { x with groomStart := x.groomStart + ns })) d
  else if old == .retain then d.modEcc (fun e => { e with sramStart := e.sramStart + ns })
  else d

/-- The request for VDD_CORE changes (R35, R325): the work rate is slowed to suit a lower one first. -/
def Dev.vcoreTo (d : Dev) (mv : Nat) : Dev :=
  (d.modPin (fun p => { p with vreq := mv, vreqDt := d.dt, vwork := min p.vwork mv })).orCsr 0 bGlobal 0x30 1

/-- Enter a mode at this DT (R373, R377, R390); leaving MAINT closes the programming window (R462). -/
def Dev.setMode (d : Dev) (m : Mode) (cause owner : Nat) : Dev :=
  let old := d.clk.mode
  let d1 := d.modClk (fun c => { c with mode := m, entryDt := d.dt, gateNow := (d.csrAt 0 bClock 0x30).toNat })
  let d2 := (if m == .maint then d1 else d1.winClose).groomPause old (d.dt - d.clk.entryDt)
  ((d2.octGates).orCsr 0 bClock 0x60 32).modeEvent d.owners old m cause owner false 0

/-- Cause and owner of a transition asked for by an owner (R377): the boot list is posted to mailbox 65. -/
def Dev.moveCause (d : Dev) (o : Nat) : Nat := if o = 65 && d.boot.listWait then 1 else 0

/-! ### Entering and leaving SERVICE -/

/-- Admission closes (R182, R294): parked dequeues are answered EMPTY, transfer channels stop with code MODE. -/
def Dev.leaveService (d : Dev) : Dev :=
  let d1 := d.qm.parks.foldl (fun (a : Dev) p => a.deqEmpty p.id) d
  d1.xStopAll 3 (fun _ => true)

/-- Every total is set afresh (R13): the channels in service count. -/
def Dev.initTotals (d : Dev) : Dev :=
  let n := ((List.range 64).filter (fun c => !d.retired c)).length
  let cells := d.cellNominal / 64 * n
  let slots := d.unitNominal / 64 * n * 4
  d.modQm (fun q => { q with
    cellUsed := [], unitUsed := [], cellTotal := cells, cellFree := cells, cellQueued := 0, cellInfl := 0
    descTotal := slots, descFree := slots, descInuse := 0 })

/-- Enter SERVICE (R13, R372, R405). -/
def Dev.enterService (d : Dev) (cause owner : Nat) : Dev :=
  let off := d.clk.censusOff
  let d1 := if off then d.initTotals else d
  let d2 := (d1.modClk (fun c => { c with censusOff := false })).setMode .service cause owner
  let d3 := if off then d2.totalsEvent 0 d2.qm.cellTotal d2.qm.descTotal else d2
  if d3.therm.calFirst then d3 else (d3.modTherm (fun t => { t with calFirst := true })).calAll

/-- Every queue is emptied (R374): DROPS, OVERRUN and the assignment are kept. -/
def Dev.emptyQueues (d : Dev) : Dev :=
  -- the emptied queues' stores are written anew
  (d.modMem (fun m => { m with sErr := m.sErr.filter (fun e =>
    !(decide (stateBase ≤ e.1 ∧ e.1 < stateBase + 0x400000) || decide (0x1001000000 ≤ e.1 ∧ e.1 < 0x1002000000))) })).modQm (fun m => { m with
    moving := false, shrink := none
    queue := (m.queue.map (fun q => (q.1, ({ overrun := q.2.overrun, drops := q.2.drops, wmArmed := q.2.wmArmed || decide (0 < (d.profileOf q.1).qwm) } : Queue)))).filter (fun q => q.2 != {})
    cellUsed := [], unitUsed := [], cellFree := m.cellTotal, cellQueued := 0, cellInfl := 0
    descFree := m.descTotal, descInuse := 0 })

/-- Enter MAINT from DRAIN or RETAIN (R374): the census stops. -/
def Dev.enterMaint (d : Dev) (cause owner : Nat) : Dev :=
  ((d.emptyQueues).modClk (fun c => { c with censusOff := true })).setMode .maint cause owner

/-! ### DOZE and RETAIN -/

/-- Every channel is sent to self-refresh: by a mode change once its queues are empty, by a trip or a shutdown at once (R233). Channels in
service are asked to leave it. -/
def Dev.sreAll (d : Dev) : Dev := (List.range 64).foldl (fun a c => a.sreSoon c) d
def Dev.sreTrip (d : Dev) : Dev := (List.range 64).foldl (fun a c => a.sendSre c) d
def Dev.srxAll (d : Dev) : Dev := (List.range 64).foldl (fun (a : Dev) c => if a.serving c then a.sendSrx c else a) d

/-- Every channel in service has left self-refresh. -/
def Dev.allOut (d : Dev) : Bool :=
  (List.range 64).all (fun c => !d.serving c || ((d.ch c).st != .selfref && (d.ch c).sr.isNone))

/-- An UP port whose lanes are all in QUIET or DEEP enters REST (R96). -/
def Dev.portRest (d : Dev) (n : Nat) : Dev :=
  if (d.port n).st == .up && (d.portLanes n).all (fun l => (d.lane l).st == .quiet || (d.lane l).st == .deep) then
    (d.portDown n).modPort n (fun p => { p with st := .rest, timer := none, resume := true })
  else d

/-- A mode or clock hold takes a port that is not OFF or FAIL to HOLD, its state kept and its timer stopped (R96, R384). -/
def Dev.portFreeze (d : Dev) (n : Nat) : Dev :=
  if (d.port n).st == .off || (d.port n).st == .fail then d
  else (d.portDown n).modPort n (fun p => { p with
    st := .hold, timer := none, holdEnd := none, resume := p.resume || p.partner.isSome, prop := none, farProp := none, plan := none })

/-- DOZE entry after the drain (R375). -/
def Dev.enterDoze (d : Dev) (deep : Bool) (cause owner : Nat) : Dev :=
  let d1 := (List.range 144).foldl (fun (a : Dev) l => a.laneDo l (fun x => if deep then x.laneDeep l else x.laneQuiet l)) d
  let d2 := allPorts.foldl (fun (a : Dev) n => a.portRest n) d1
  ((d2.sreAll).modClk (fun c => { c with dozeDeep := deep })).setMode .doze cause owner

/-- RETAIN entry (R371, R372, R380, R381): lanes OFF, ports HOLD, channels to self-refresh, the PLLs of the time base and
of Heartwood and the ring off, DT from the REFCLK divider, Heartwood stopped. -/
def Dev.enterRetain (d : Dev) (cause owner : Nat) : Dev :=
  let d1 := allPorts.foldl (fun (a : Dev) n => a.portFreeze n) d
  let d2 := (List.range 144).foldl (fun (a : Dev) l => a.laneOff l) d1
  let d3 := (d2.sreAll).modClk (fun c => { c with
    tbLock := false, hwLock := false, tbPll := false, hwPll := false, dtSrc := if c.dtSrc == .pll then .divider else c.dtSrc
    ringOn := false, ringSettled := false, hwStopped := true })
  (d3.modPin (fun p => { p with vsave := p.vreq })).setMode .retain cause owner

/-- A lane rests in QUIET as the standby of its port (R90). -/
def Dev.standbyRests (d : Dev) (l : Nat) : Bool :=
  (d.lane l).st == .quiet && (match d.portOfLane l with | some n => (d.port n).stby == some (d.laneIx n l) | none => false)

/-- DOZE exit begins (R375); standby lanes rest on. -/
def Dev.leaveDoze (d : Dev) : Dev :=
  let d1 := (d.ringStart 1).srxAll
  (List.range 144).foldl (fun (a : Dev) l => if a.standbyRests l then a else a.laneDo l (fun x => x.laneWake l)) d1

/-- RETAIN exit begins (R376): VDD_CORE restored, the ring and the PLLs started, channels out of self-refresh, the lanes of
every configured port enabled. The cause that RING_STATUS shows of this start is not given: a free value. -/
def Dev.leaveRetain (d : Dev) : Dev :=
  let d1 := if d.pin.vreq = d.pin.vsave then d else d.vcoreTo d.pin.vsave
  let (v, d2) := d1.draw
  let d3 := (d2.ringStart (v % 4)).srxAll
  let ls := ((allPorts.filter (fun n => (d.port n).st != .off)).map (fun n => d.portLanes n)).flatten
  ((ls.foldl (fun (a : Dev) l => a.laneDo l (fun x => x.laneEnable l)) d3).modClk (fun c => { c with hwStopped := false })).brstDue

/-! ### Transitions (R372, R373, R322) -/

/-- The drain is complete (R372): every admitted request has completed; on the way to DOZE or RETAIN the channels' queues
are empty too (R233). -/
def Dev.drained (d : Dev) (sleep : Bool) : Bool :=
  d.txn.reqs.isEmpty && d.qm.opens.isEmpty && d.txn.acc.isEmpty && d.txn.frags.isEmpty &&
    d.txn.comps.all (fun c => match c.ref with | .desc x => x == 31 | _ => false) &&
    (List.range 31).all (fun x => (d.xc x).st == .free || (d.xc x).st == .idle) &&
    (!sleep || (List.range 64).all (fun c => (d.ch c).rdq.isEmpty && (d.ch c).wrq.isEmpty))

/-- A RUNNING command other than the one that asks may not run in the target mode (R322). -/
def Dev.moveBlocked (d : Dev) (m : Move) : Bool :=
  allPairs.any (fun x => (d.pair x.1 x.2).st == .running && m.pair != some (8 * x.1 + x.2) &&
    !cmdInMode (cmdOpcode (d.pair x.1 x.2).cmd) m.tgt)

/-- The answer of MODE_SET once the mode is entered (R327). -/
def Dev.moveEnd (d : Dev) : Dev :=
  match d.clk.move with
  | none => d
  | some m =>
    let d1 := d.modClk (fun c => { c with move := none })
    match m.pair with
    | some p => if m.shutdown then d1 else
        d1.respond (p / 8) (p % 8) 0 ([byte (modeCode d1.clk.mode)] ++ List.replicate 7 0 ++ leBytes 8 d1.clk.entryDt)
    | none => d1

def Dev.movePh (d : Dev) (p : MovePh) : Dev := d.modClk (fun c => { c with move := c.move.map (fun m => { m with ph := p }) })

/-- What a transition does once its drain is complete. A SHUTDOWN waits here for its self-test. -/
def Dev.moveDrained (d : Dev) (m : Move) : Dev :=
  if m.shutdown || !d.drained m.tgt.sleeps then d
  else match m.tgt with
    | .maint => (d.enterMaint m.cause m.owner).moveEnd
    | .doze => (d.enterDoze m.deep m.cause m.owner).moveEnd
    | .retain => (d.enterRetain m.cause m.owner).moveEnd
    | _ => d

/-- An exit from DOZE or RETAIN is complete once the channels are out, and from RETAIN once VDD_CORE is reported restored (R35, R376). -/
def Dev.moveOut (d : Dev) (m : Move) : Dev :=
  if !d.allOut || (m.from_ == .retain && decide (d.pin.vwork < d.pin.vreq)) then d
  else
    let d1 := if m.tgt == .maint then d.enterMaint m.cause m.owner else d.enterService m.cause m.owner
    (if m.from_ == .retain then d1.calAll else d1).moveEnd

/-- A transition that nothing holds back any longer begins. -/
def Dev.moveBegin (d : Dev) (m : Move) : Dev :=
  match m.from_, m.tgt with
  | .maint, .service | .drain, .service => (d.enterService m.cause m.owner).moveEnd
  | .service, .drain => ((d.leaveService).setMode .drain m.cause m.owner).moveEnd
  | .service, _ => ((d.leaveService).movePh .draining).moveDrained m
  | .doze, .retain => (d.enterRetain m.cause m.owner).moveEnd
  | .doze, _ => ((d.leaveDoze).movePh .entering).moveOut m
  | .retain, _ => ((d.leaveRetain).movePh .entering).moveOut m
  | _, _ => (d.movePh .draining).moveDrained m

/-- A transition goes on as far as it can; a clock hold stops it (R373). -/
def Dev.moveTry (d : Dev) : Dev :=
  match d.clk.move with
  | none => d
  | some m =>
    if d.clk.hold then d
    else match m.ph with
      | .ready => if d.moveBlocked m then d else d.moveBegin m
      | .draining => d.moveDrained m
      | .entering => d.moveOut m

/-- The transitions that MODE_SET may ask for (R372). -/
def moveAllowed (a b : Mode) : Bool :=
  match a, b with
  | .maint, .service | .maint, .retain | .service, .drain | .service, .doze | .service, .retain | .drain, .service
  | .drain, .maint | .drain, .retain | .doze, .service | .doze, .retain | .retain, .service | .retain, .maint => true
  | _, _ => false

def modeOf (n : Nat) : Mode :=
  match n with
  | 0 => .boot | 1 => .maint | 2 => .service | 3 => .drain | 4 => .doze | _ => .retain

/-- Answer a command that has run, and let what waited for it go on (R322); in RETAIN Heartwood stops again when no command
is left (R380). -/
def Dev.fin (d : Dev) (o i status : Nat) (result : List Byte) : Dev :=
  let d1 := (if (d.pair o i).st == .running then d.respond o i status result else d).moveTry
  if d1.clk.mode == .retain && d1.clk.move.isNone &&
      allPairs.all (fun x => (d1.pair x.1 x.2).st != .running && (d1.pair x.1 x.2).st != .posted) then
    d1.modClk (fun c => { c with hwStopped := true })
  else d1

/-- MODE_SET (R327). -/
def Dev.modeSet (d : Dev) (o i : Nat) : Dev :=
  let p := d.par o i
  let tgt := modeOf (leAt p 0 1)
  let now := d.clk.mode
  if now = tgt then d.fin o i 0 ([byte (modeCode now)] ++ List.replicate 7 0 ++ leBytes 8 d.clk.entryDt)
  else if !moveAllowed now tgt || (tgt.sleeps && d.cfg.st == .pending) then d.fin o i 0x0201 []
  else if tgt == .service && (d.otp.chipid = 0 || d.otp.chipid = 2 ^ 64 - 1) then d.fin o i 0x0F06 []
  else
    let ms := if leAt p 2 2 = 0 then 1000 else leAt p 2 2
    (d.modClk (fun c => { c with move := some {
      from_ := now, tgt := tgt, deep := leAt p 1 1 == 1, owner := o, cause := d.moveCause o, by_ := some (d.dt + 1000000 * ms)
      pair := some (8 * o + i) } })).moveTry

/-- A transition that has begun is undone (R327): the device is in the mode from which it started. -/
def Dev.moveBack (d : Dev) (m : Move) : Dev :=
  match m.ph with
  | .ready => d
  | .draining => d.modeEvent d.owners m.from_ m.from_ 6 m.owner false 0
  | .entering =>
    let d1 := if m.from_ == .doze then d.sreAll else
      (((List.range 144).foldl (fun (a : Dev) l => a.laneOff l) (allPorts.foldl (fun (a : Dev) n => a.portFreeze n) d)).sreAll).modClk
        (fun c => { c with tbLock := false, hwLock := false, tbPll := false, hwPll := false
                           dtSrc := if c.dtSrc == .pll then .divider else c.dtSrc, ringOn := false, ringSettled := false })
    let d2 := if m.from_ == .doze then
        allPorts.foldl (fun (a : Dev) n => a.portRest n)
          ((List.range 144).foldl (fun (a : Dev) l => a.laneDo l (fun x => if d.clk.dozeDeep then x.laneDeep l else x.laneQuiet l)) d1)
      else d1
    d2.modeEvent d.owners m.from_ m.from_ 6 m.owner false 0

/-- MODE_TIMEOUT (R327): WAIT_MS has passed. -/
def Dev.moveTimeout (d : Dev) : Dev :=
  match d.clk.move with
  | none => d
  | some m =>
    if !due m.by_ d.dt then d
    else
      let d1 := (d.moveBack m).modClk (fun c => { c with move := none })
      match m.pair with
      | some p => d1.fin (p / 8) (p % 8) 0x0202 []
      | none => d1

/-! ### The clock monitor and the ring (R382 to R386) -/

/-- A trip and a ring settle at one DT: the order decided is recorded (R382). -/
def Dev.ringTie (d : Dev) (tie : Bool) : Dev := if tie then d.tele 1 ([5, 2] ++ List.replicate 14 0) else d

/-- CLOCK_MONITOR_TRIP (R384, R385). -/
def Dev.clockTrip (d : Dev) : Dev :=
  if !d.clk.refOk || !d.pin.pwrgd then d
  else
    let fb := d.clk.ringSettled
    let was := d.clk.hold
    let d0 := d.ringTie (fb && d.clk.ringDt == d.dt)
    let d1 := d0.modClk (fun c => { c with
      refOk := false, hold := true, tripDt := d.dt, holdAt := if was then c.holdAt else d.dt
      dtSrc := if fb then .ring else .frozen, tbLock := false, hwLock := false, mgLock := false, tbPll := false, hwPll := false, mgPll := false })
    let d2 := ((d1.bump 0 bClock 0x80 1).orCsr 0 bClock 0x60 1).raise0 20 { inst := b2n fb }
    let d3 := if was then d2 else d2.modeEvent d.owners d.clk.mode d.clk.mode 3 100 fb 0
    if d.clk.mode == .boot then d3
    else
      let d4 := allPorts.foldl (fun (a : Dev) n => a.portFreeze n) d3
      let d5 := (List.range 18).foldl (fun (a : Dev) o => a.octLoss o) d4
      d5.sreTrip

/-- REFCLK has returned (R386): in RETAIN, DT is taken from its divider; elsewhere the PLLs have to relock first. -/
def Dev.refBack (d : Dev) : Dev :=
  if d.clk.refOk then d
  else
    let asleep := d.clk.mode == .retain && (match d.clk.move with | some m => m.ph != .entering | none => true)
    (d.modClk (fun c => { c with refOk := true, dtSrc := if asleep then .divider else c.dtSrc })).brstDue

/-- The channels stay in self-refresh: DOZE or RETAIN, with no exit begun. -/
def Dev.asleep (d : Dev) : Bool :=
  d.clk.mode.sleeps && (match d.clk.move with | some m => m.ph != .entering | none => true)

/-- ISLAND_PLL_LOCK (R378, R381, R386): 0 time base, 1 Heartwood, 2 management. In RETAIN the first two are off. -/
def Dev.islandLock (d : Dev) (k : Nat) : Dev :=
  let off := d.clk.mode == .retain && d.asleep && k < 2
  if !d.clk.refOk || !d.pin.pwrgd || d.pin.cold || off then d
  else if k = 0 then
    let d1 := d.modClk (fun c => { c with
      tbLock := true, tbPll := true, dtSrc := .pll, dtRun := true, dt := if c.dtRun then c.dt else 0 })
    if d1.clk.hold && !d1.asleep && d1.clk.mode != .boot then d1.srxAll else d1
  else if k = 1 then d.modClk (fun c => { c with hwLock := true, hwPll := true })
  else d.modClk (fun c => { c with mgLock := true, mgPll := true })

/-- CLOCK_HOLD_END (R386): every channel has left SELFREF, where the mode keeps none of them there (DEDUCED). -/
def Dev.holdOver (d : Dev) : Dev :=
  let c := d.clk
  if !c.hold || !c.refOk || !(c.tbLock || (c.mode == .retain && d.asleep)) || !(d.asleep || c.mode == .boot || d.allOut) then d
  else
    let len := d.dt - c.holdAt
    let d1 := (((d.modClk (fun c => { c with hold := false })).orCsr 0 bClock 0x60 2).bump 0 bClock 0x90 len).modeEvent d.owners c.mode c.mode 4 100 false len
    let d2 := if c.mode == .retain then d1 else allPorts.foldl (fun (a : Dev) n =>
      if (a.port n).st == .hold then a.modPort n (fun p => { p with holdEnd := some (a.dt + a.holdNs n) }) else a) d1
    d2.moveTry

/-- RING_SETTLE (R383, R385). -/
def Dev.ringSettle (d : Dev) (period : Nat) : Dev :=
  if !d.clk.ringOn || d.clk.ringSettled then d
  else
    (d.ringTie (!d.clk.refOk && d.clk.tripDt == d.dt)).modClk (fun c => { c with
      ringSettled := true, ringFailed := false, ringDt := d.dt
      ringPeriod := if c.refOk then period % 2 ^ 32 else c.ringPeriod
      dtSrc := if c.dtSrc == .frozen then .ring else c.dtSrc })

/-- RING_SETTLE_TIMEOUT (R385): 1 ms by the monitor's own delay line where DT does not run. -/
def Dev.ringLate (d : Dev) : Dev :=
  let c := d.clk
  let ovr := !c.dtRun || c.dtSrc == .frozen || decide (c.ringAt + 1000000 ≤ d.dt)
  if !c.ringOn || c.ringSettled || c.ringFailed || !ovr then d
  else if c.mode == .boot && c.ringCause = 0 then d.modPin (fun p => { p with bootHold := 2 })
  else ((d.modClk (fun c => { c with ringFailed := true })).raise0 22 {}).orCsr 0 bClock 0x60 8

/-- RING_REMEASURE (R383). -/
def Dev.ringMeasure (d : Dev) (period : Nat) : Dev :=
  if d.clk.ringSettled && d.clk.refOk then d.modClk (fun c => { c with ringPeriod := period % 2 ^ 32 }) else d

/-- PLL_UNLOCK (R378): while REFCLK is valid, the island runs from REFCLK direct. -/
def Dev.pllUnlock (d : Dev) (k : Nat) : Dev :=
  let locked := if k = 0 then d.clk.tbLock else if k = 1 then d.clk.hwLock else d.clk.mgLock
  if !locked || !d.clk.refOk then d
  else
    let d1 := d.modClk (fun c =>
      if k = 0 then { c with tbLock := false, tbPll := false, dtSrc := .divider }
      else if k = 1 then { c with hwLock := false, hwPll := false }
      else { c with mgLock := false, mgPll := false })
    (d1.raise0 23 {}).orCsr 0 bClock 0x60 16

/-- SWITCH_FORCED_RELEASE (R387). -/
def Dev.switchForced (d : Dev) (k : Nat) : Dev :=
  (((d.orCsr 0 bClock 0x14 (2 ^ (8 + k))).raise0 21 { kind := 14, inst := k }).orCsr 0 bClock 0x60 4).bump 0 bClock 0x88 1


/-- A write of GATE_CFG (R390). -/
def Dev.gateCfg (d : Dev) (v : Word) : Dev :=
  let n := v.toNat &&& 0x7771
  let b := gateBits d.clk.mode
  ((d.setCsr 0 bClock 0x30 (word n)).modClk (fun c => { c with gateNow := clearBits c.gateNow b ||| (n &&& b) })).octGates

/-- The management island may stop: AUTO, or an enable of 0 for the mode in force (R380). -/
def Dev.mgMayStop (d : Dev) : Bool := !bit d.clk.gateNow 0 || d.clk.gateNow &&& (gateBits d.clk.mode &&& 0x7000) == 0

/-! ### Thermal evaluation and shutdown (R394 to R403) -/

/-- Work queued anywhere is discarded, and RUNNING commands are answered (R322, R403). -/
def Dev.shutWork (d : Dev) : Dev :=
  let st := match d.clk.move with | some m => if m.ph == .ready then 0x0F02 else 0x0F06 | none => 0x0F02
  let mp := match d.clk.move with | some m => m.pair | none => none
  let d1 := allPairs.foldl (fun (a : Dev) x =>
    if (a.pair x.1 x.2).st == .running then a.respond x.1 x.2 (if mp == some (8 * x.1 + x.2) then st else 0x0F02) [] else a) d
  let d2 := (List.range 64).foldl (fun (a : Dev) c => a.modCh c (fun x => { x with rdq := [], wrq := [] })) d1
  { d2 with
    txn := { nextId := d2.txn.nextId, nextOrd := d2.txn.nextOrd, last := d2.txn.last }
    qm := { d2.qm with opens := [], parks := [], arriving := [] }, xfer := {} }

/-- Thermal shutdown (R403) for a layer: the device holds in BOOT. -/
def Dev.thermShut (d : Dev) (n : Nat) : Dev :=
  let old := d.clk.mode
  let t := (d.layer n).temp
  let d1 := ((d.modTherm (fun x => { x with shut := true, alarm := true })).modPin (fun p => { p with thermN := d.pinsOn, bootHold := 6 })).raise0
    43 { kind := 9, inst := n, a := ofSigned 32 t }
  let d2 := allPorts.foldl (fun (a : Dev) k => if (a.port k).st == .off then a else (a.portDown k).modPort k (fun p => { st := .off, failCause := p.failCause })) d1
  let d3 := (List.range 144).foldl (fun (a : Dev) l => a.laneOff l) d2
  let d4 := (d3.shutWork).sreTrip
  let d5 := (d4.winClose).modClk (fun c => { c with
    mode := .boot, entryDt := d.dt, move := none, censusOff := true, hwStopped := true, gateNow := (d.csrAt 0 bClock 0x30).toNat })
  let d6 := (if d.pin.vreq = 650 then d5 else d5.vcoreTo 650).modMbox (fun m => { m with wdog := none, fwState := 0, act := .none })
  (d6.orCsr 0 bClock 0x60 32).modeEvent [64, 65] old .boot 5 100 false 0

/-- The alarm pin (R402). -/
def Dev.alarmSet (d : Dev) : Dev :=
  let top := (List.range 21).foldl (fun m n => max m (d.layer n).temp) (d.layer 0).temp
  let lim : Int := 16 * d.cfgFld 0 bThermal 0x10 16 8
  if lim ≤ top then
    (if d.therm.alarm then d
     else ((d.modTherm (fun t => { t with alarm := true })).modPin (fun p => { p with thermN := d.pinsOn })).orCsr 0 bThermal 0x30 8)
  else if top < lim - 32 then (d.modTherm (fun t => { t with alarm := false })).modPin (fun p => { p with thermN := false })
  else d

/-- A TEMP record (R484, R485). -/
def Dev.tempRecord (d : Dev) : Dev :=
  let mask := fun (f : LayerT → Bool) => maskOf ((List.range 21).filter (fun n => f (d.layer n)))
  d.tele 3 ([byte d.therm.hottest, 0] ++ leBytes 2 (ofSigned 16 d.therm.hotT) ++ leBytes 4 (mask (·.suspect)) ++
    leBytes 4 (mask (fun y => y.src != 0)) ++ List.replicate 4 0)

/-- THERMAL_EVALUATION, once in each cycle of 10 µs: `pow` is what each layer reports, in 0.1 W. -/
def Dev.thermEval (d : Dev) (pow : List Nat) : Dev :=
  if d.therm.shut || decide (d.dt / 10000 < d.therm.evalNext) then d
  else
    let lim : Int := 16 * d.cfgFld 0 bThermal 0x10 24 8
    let d1 := (List.range 21).foldl (fun (a : Dev) n => a.evalLayer n (pow.getD n 0) (d.predict n (pow.getD n 0))) d
    let hot := (List.range 21).foldl (fun b n => if (d1.layer b).temp < (d1.layer n).temp then n else b) 0
    let d2 := (d1.modTherm (fun t => { t with hottest := hot, hotT := (d1.layer hot).temp, evalAt := d.dt, evalNext := d.dt / 10000 + 1 })).thermJudge
    let d3 := (List.range 16).foldl (fun (a : Dev) k => a.followBand k) d2
    -- a TEMP record once per second, and at each change of a layer's SRC (R484)
    let moved := (List.range 21).any (fun n => (d.layer n).src != (d3.layer n).src)
    let d4 := if moved || d.dt / 1000000000 != d.therm.evalAt / 1000000000 then (d3.alarmSet).tempRecord else d3.alarmSet
    if lim ≤ (d4.layer hot).temp then d4.thermShut hot else d4

/-! ### Meanings -/

/-- SR_ACK (R232, R233): a transition that waited for the channels goes on. -/
def execSrAck (c : Nat) (s : State) : Host.Outcome State Fault Refusal := guardNext (chanOk c) (fun d => (d.srAck c).brstDue.moveTry) s
/-- THERMAL_EVALUATION (R394 to R403). -/
def execThermalEvaluation (pow : List Nat) (s : State) : Host.Outcome State Fault Refusal := guardNext true (fun d => d.thermEval pow) s
def execModeSet (o i : Nat) (s : State) : Host.Outcome State Fault Refusal :=
  guardNext (slotOk o i) (fun d => if d.runs o i 0x0201 && d.clk.move.isNone then d.modeSet o i else d) s
def execModeTimeout (s : State) : Host.Outcome State Fault Refusal := guardNext true (fun d => d.moveTimeout) s
def execClockMonitorTrip (s : State) : Host.Outcome State Fault Refusal := guardNext true (fun d => d.clockTrip) s
def execClockHoldEnd (s : State) : Host.Outcome State Fault Refusal := guardNext true (fun d => d.holdOver) s
def execRingSettleTimeout (s : State) : Host.Outcome State Fault Refusal := guardNext true (fun d => d.ringLate) s
def execRingRemeasure (period : Nat) (s : State) : Host.Outcome State Fault Refusal := guardNext true (fun d => d.ringMeasure period) s
def execIslandPllLock (k : Nat) (s : State) : Host.Outcome State Fault Refusal := guardNext (pllOk k) (fun d => d.islandLock k) s
def execPllUnlock (k : Nat) (s : State) : Host.Outcome State Fault Refusal := guardNext (pllOk k) (fun d => d.pllUnlock k) s
def execSwitchForcedRelease (k : Nat) (s : State) : Host.Outcome State Fault Refusal := guardNext (switchOk k) (fun d => d.switchForced k) s
/-- HEARTWOOD_WAKE (R380): a doorbell or a raised fault restarts the island in RETAIN. -/
def execHeartwoodWake (s : State) : Host.Outcome State Fault Refusal :=
  guardNext true (fun d => if d.clk.mode == .retain && d.clk.refOk then (d.modClk (fun c => { c with hwStopped := false })).brstDue else d) s
/-- MGMT_ISLAND_IDLE (R380): 1 ms without bus activity. -/
def execMgmtIslandIdle (s : State) : Host.Outcome State Fault Refusal :=
  guardNext true (fun d =>
    if d.mgMayStop && decide (d.clk.mgIdleAt + 1000000 ≤ d.dt) then d.modClk (fun c => { c with mgStopped := true }) else d) s
/-- GATE_CFG_WRITE (R390). -/
def execGateCfgWrite (p : Path) (v : Word) (s : State) : Host.Outcome State Fault Refusal :=
  guardNext (pathOk p) (fun d => if d.mayWrite p then d.gateCfg v else d) s

end Sys2Proof.Machine
end

