-- ==== Sys2Proof/Machine/Telem.lean ====
section
/-!
DEFINITION. The audit registers (R11, R16, R100, R118, R190, R219, R318), the census (R427) and the counter snapshot
(R483).
-/
namespace Sys2Proof.Machine

/-! ### Audit registers -/

/-- Pairs of an owner in some states. -/
def Dev.pairsIn (d : Dev) (o : Nat) (f : PairSt → Bool) : Nat := ((List.range 8).filter (fun i => f (d.pair o i).st)).length
def Dev.cmdBusy (d : Dev) (o : Nat) : Nat := d.pairsIn o (fun s => s == .posted || s == .running)
def Dev.rspBusy (d : Dev) (o : Nat) : Nat := d.pairsIn o (fun s => s == .done)
/-- Events an owner's queue holds, the entry kept for EVENTS_LOST among them once it is taken. -/
def Dev.evqCount (d : Dev) (o : Nat) : Nat := (d.mb o).evq.length
/-- MBOX.OWNER_n (R318). -/
def Dev.ownerWord (d : Dev) (o : Nat) : Nat := d.cmdBusy o + 16 * d.rspBusy o + 256 * d.evqCount o

/-- PORT credit audit registers, offsets 0x40 to 0x64 (R100). -/
def Dev.portAudit (d : Dev) (n off : Nat) : Nat :=
  let k := (off - 0x40) / 4
  if k < 4 then (d.tx n k).held + 65536 * d.txOut n k
  else if k < 8 then d.rxGrant n (k - 4) + 65536 * (d.rx n (k - 4)).occ
  else if k = 8 then (d.rx n 0).unrep + 65536 * (d.rx n 1).unrep
  else (d.rx n 2).unrep + 65536 * (d.rx n 3).unrep

/-- PARTNER.PT_AUDIT and PT_AUDIT2 (R118). -/
def Dev.ptAudit (d : Dev) (k : Nat) : Nat :=
  (d.txn.tags.filter (fun t => t / 4096 == k)).length + 65536 * (d.qm.parks.filter (fun p => p.ptn == k)).length
def Dev.ptAudit2 (d : Dev) (k : Nat) : Nat :=
  d.cmdBusy k + 16 * d.rspBusy k + 256 * d.evqCount k +
    65536 * ((List.range 31).filter (fun x => (d.xc x).owner == some k)).length + 2 ^ 24 * (d.ptn k).rspDrop

/-- QM cell and descriptor audit and PARK_USED (R168, R190). -/
def Dev.qmAudit (d : Dev) (off : Nat) : Nat :=
  match off with
  | 0x100 => d.qm.cellTotal
  | 0x104 => d.qm.cellFree
  | 0x108 => d.quarCells
  | 0x10C => d.qm.cellQueued
  | 0x110 => d.qm.cellInfl
  | 0x120 => d.qm.descTotal
  | 0x124 => d.qm.descFree
  | 0x128 => 4 * d.quarUnits
  | 0x12C => d.qm.descInuse
  | 0x140 => d.qm.parks.length
  | _ => 0

/-- SLALOM collector audit and RC_PASS (R217, R219). -/
def Dev.rcAudit (d : Dev) (off : Nat) : Nat :=
  match off with
  | 0x110 => 512
  | 0x114 => 512 - d.slotsHeld
  | 0x118 => d.slotsHeld
  | 0x11C => (d.txn.comps.filter (fun c => c.slot == .reserved)).length
  | 0x120 => d.sla.passStart
  | _ => 0

/-- Every audit register with a holding copy: its key and its value now. -/
def Dev.audits (d : Dev) : List (Nat × Nat) :=
  (d.qm.queue.map (fun q => (regKey q.1 bQm 0x30, q.2.drops))) ++
  ([0x100, 0x104, 0x108, 0x10C, 0x110, 0x120, 0x124, 0x128, 0x12C, 0x140].map (fun o => (regKey 0 bQm o, d.qmAudit o))) ++
  ([0x110, 0x114, 0x118, 0x11C, 0x120].map (fun o => (regKey 0 bSlalom o, d.rcAudit o))) ++
  (allPorts.map (fun n => (List.range 10).map (fun i => (regKey n bPort (0x40 + 4 * i), d.portAudit n (0x40 + 4 * i))))).flatten ++
  ((List.range 64).map (fun k => [(regKey k bPartner 0x50, d.ptAudit k), (regKey k bPartner 0x54, d.ptAudit2 k)])).flatten ++
  ((List.range 66).map (fun o => (regKey 0 bMbox (0x300 + 4 * o), d.ownerWord o)))

/-- Audit registers hold zero in their copies at reset. -/
def audZero : Nat → Nat := fun _ => 0

/-! ### The snapshot (R483) -/

/-- Take a snapshot for a source: a path, or 101 for the census. In BOOT it has no effect. Those of one DT are taken in turn, in the order
recorded (R259). -/
def Dev.snapshot (d : Dev) (src : Nat) : Dev :=
  if d.clk.mode == .boot then d
  else
    (d.arb 10 2 src 0).modTelem (fun t => { t with
      ctrHold := d.ctr
      audHold := d.audits.foldl (fun a x => tabSet audZero a x.1 x.2) []
      snapSeq := (t.snapSeq + 1) % 2 ^ 32, snapDt := d.dt, snapSrc := src })

/-- A census mismatch takes a snapshot (R427, R483): FS001 has been raised between two states. -/
def Dev.snapOnCensus (d0 d : Dev) : Dev := if (d0.src 1).raises == (d.src 1).raises then d else d.snapshot 101

/-! ### The census (R15, R427, R428) -/

/-- The census runs in SERVICE, DRAIN and DOZE, and in RETAIN unless it was entered from MAINT. -/
def Dev.censusOn (d : Dev) : Bool :=
  match d.clk.mode with
  | .service | .drain | .doze => true
  | .retain => !d.clk.censusOff
  | _ => false

/-- CENSUS_CHECK of a law, for a partner and VC where the law is one of credits. -/
def Dev.censusCheck (d : Dev) (law k vc : Nat) : Dev :=
  if !d.censusOn then d
  else
    let d1 := d.bump 0 bFault 0x98 1
    if d.fault.injLaw == some law then
      let d2 := (d1.modFault (fun u => { u with injLaw := none })).raiseLaw law k vc (d.lawDiff law k vc + 1) true
      d2.snapshot 101
    else if d.lawDiff law k vc = 0 then d1
    else (d1.raiseLaw law k vc (d.lawDiff law k vc) false).snapshot 101

/-! ### Meanings -/

def execCensusCheck (law k vc : Nat) (s : State) : Host.Outcome State Fault Refusal :=
  guardNext (decide (1 ≤ law ∧ law ≤ 5) && partnerOk k && vcOk vc) (fun d => d.censusCheck law k vc) s
/-- SNAP_GO (R483): a write of 1 to TELEM.SNAP.GO, which a partner may make too (R475). -/
def execSnapGo (p : Path) (v : Word) (s : State) : Host.Outcome State Fault Refusal :=
  guardNext (pathOk p) (fun d =>
    if fld v 0 1 = 1 && !(p == .jtag && d.otp.lc == .ended) then d.snapshot (pathIx p) else d) s

end Sys2Proof.Machine
end

