-- ==== Sys2Proof/Machine/CsrRead.lean ====
section
/-!
DEFINITION. Reading registers (R8, R472 to R478, R486, R487 and the register tables of the chapters): what each register
shows, from the state it stands for.
-/
namespace Sys2Proof.Machine

/-! ### Which offsets are implemented (R473) -/

/-- Offsets of the implemented registers of each block, as runs of words: block, first, last. -/
def implRuns : List (Nat × Nat × Nat) := [
  (0x00, 0x04, 0x14), (0x00, 0x20, 0x28), (0x00, 0x30, 0x30), (0x00, 0x50, 0x50), (0x00, 0x60, 0x6C),
  (0x01, 0x10, 0x20), (0x01, 0x30, 0x40), (0x01, 0x50, 0x60), (0x01, 0x80, 0x94), (0x01, 0xC0, 0xD4),
  (0x02, 0x10, 0x24), (0x02, 0x30, 0x30), (0x02, 0x80, 0xAC), (0x02, 0xC0, 0xEC), (0x02, 0x100, 0x150), (0x02, 0x200, 0x250),
  (0x02, 0x300, 0x350), (0x02, 0x400, 0x67C), (0x02, 0x800, 0xB88),
  (0x03, 0x10, 0x18), (0x03, 0x20, 0x44), (0x03, 0x50, 0x50), (0x03, 0x80, 0x9C), (0x03, 0xC0, 0xDC), (0x03, 0x400, 0x3FFC),
  (0x04, 0x10, 0x14), (0x04, 0x20, 0x38), (0x04, 0x40, 0x44), (0x04, 0x80, 0x9C), (0x04, 0xC0, 0xDC),
  (0x05, 0x10, 0x20), (0x05, 0x40, 0x50), (0x05, 0x400, 0x7FC)] ++ [
  (0x08, 0x00, 0x00), (0x08, 0x10, 0x14), (0x08, 0x20, 0x28), (0x08, 0x30, 0x30), (0x08, 0x40, 0x64), (0x08, 0x70, 0x74), (0x08, 0x140, 0x15C),
  (0x09, 0x00, 0x00), (0x09, 0x10, 0x38), (0x09, 0x40, 0x64), (0x09, 0x80, 0x9C), (0x09, 0x140, 0x164), (0x09, 0x180, 0x19C),
  (0x0A, 0x00, 0x04), (0x0A, 0x10, 0x10), (0x0A, 0x18, 0x30), (0x0A, 0x38, 0x38), (0x0A, 0x50, 0x54), (0x0A, 0x100, 0x100), (0x0A, 0x108, 0x124),
  (0x0A, 0x210, 0x224), (0x0A, 0x1000, 0x11FC)] ++ [
  (0x10, 0x00, 0x00), (0x10, 0x10, 0x28), (0x10, 0x30, 0x30), (0x10, 0x40, 0x40), (0x10, 0x100, 0x110), (0x10, 0x120, 0x12C), (0x10, 0x140, 0x140),
  (0x10, 0x150, 0x154), (0x10, 0x200, 0x27C), (0x10, 0x300, 0x33C), (0x10, 0x400, 0x43C), (0x10, 0x500, 0x510), (0x10, 0x520, 0x52C),
  (0x10, 0x540, 0x540), (0x10, 0x1000, 0x1FFC),
  (0x18, 0x00, 0x00), (0x18, 0x10, 0x14), (0x18, 0x20, 0x5C), (0x18, 0x80, 0xAC), (0x18, 0xC0, 0xEC), (0x18, 0x100, 0x104), (0x18, 0x110, 0x120),
  (0x18, 0x140, 0x14C), (0x18, 0x200, 0x210), (0x18, 0x240, 0x24C), (0x18, 0x1000, 0x1FFC)] ++ [
  (0x20, 0x00, 0x00), (0x20, 0x10, 0x28), (0x20, 0x30, 0x48), (0x20, 0x100, 0x1E4), (0x20, 0x200, 0x23C), (0x20, 0x300, 0x33C),
  (0x21, 0x00, 0x00), (0x21, 0x10, 0x10), (0x21, 0x20, 0x40), (0x21, 0x100, 0x10C), (0x21, 0x200, 0x2E4), (0x21, 0x300, 0x300), (0x21, 0x310, 0x314),
  (0x21, 0x320, 0x320), (0x21, 0x380, 0x39C), (0x21, 0x3C0, 0x3DC),
  (0x28, 0x10, 0x18), (0x28, 0x20, 0x20), (0x28, 0x30, 0x44), (0x28, 0x100, 0x200), (0x28, 0x300, 0x334), (0x28, 0x340, 0x374), (0x28, 0x400, 0x7FC),
  (0x28, 0x1000, 0x17FC)] ++ [
  (0x30, 0x00, 0x00), (0x30, 0x10, 0x24), (0x30, 0x40, 0x64), (0x30, 0xC0, 0xE4), (0x30, 0x100, 0x104),
  (0x38, 0x10, 0x14), (0x38, 0x20, 0x50), (0x38, 0x100, 0x2FC), (0x38, 0x300, 0x304), (0x38, 0x400, 0x4FC), (0x38, 0x500, 0x504), (0x38, 0x1000, 0x1FFC),
  (0x40, 0x04, 0x04), (0x40, 0x10, 0x18), (0x40, 0x100, 0x114), (0x40, 0x300, 0x404), (0x40, 0x500, 0x524), (0x40, 0x580, 0x5A4), (0x40, 0x600, 0x704),
  (0x40, 0x1000, 0x207C),
  (0x41, 0x10, 0x20), (0x41, 0x28, 0x34), (0x41, 0x40, 0x40), (0x41, 0x80, 0x94), (0x41, 0xC0, 0xD4)]

/-- A register is implemented at a word offset of a block. -/
def implemented (blk off : Nat) : Bool :=
  implRuns.any (fun r => r.1 == blk && decide (r.2.1 ≤ off) && decide (off ≤ r.2.2)) &&
    !(blk == bQm && decide (0x1000 ≤ off) && off % 16 == 12)

/-- Blocks with a select register at offset 0 (R472). -/
def hasSelect (blk : Nat) : Bool := [0x08, 0x09, 0x0A, 0x10, 0x18, 0x20, 0x21, 0x30].contains blk
/-- Width of a block's select field. -/
def selWidth (blk : Nat) : Nat :=
  if blk = bLane ∨ blk = bPort then 8 else if blk = bQm then 17 else if blk = bSlalom then 2 else if blk = bXfer then 5 else 6

/-- Registers named _LO of a _LO and _HI pair (R478): block, first, last, stride. -/
def loRuns : List (Nat × Nat × Nat × Nat) := [
  (0x00, 0x08, 0x08, 8), (0x00, 0x24, 0x24, 8),
  (0x01, 0x38, 0x38, 8), (0x01, 0x50, 0x58, 8), (0x01, 0x80, 0x90, 8), (0x01, 0xC0, 0xD0, 8),
  (0x02, 0x80, 0xA8, 8), (0x02, 0xC0, 0xE8, 8),
  (0x03, 0x80, 0x98, 8), (0x03, 0xC0, 0xD8, 8), (0x03, 0x1008, 0x3FF8, 48),
  (0x04, 0x80, 0x98, 8), (0x04, 0xC0, 0xD8, 8),
  (0x05, 0x18, 0x18, 8), (0x05, 0x400, 0x7F8, 8),
  (0x08, 0x40, 0x58, 8), (0x08, 0x140, 0x158, 8),
  (0x09, 0x28, 0x28, 8), (0x09, 0x60, 0x60, 8), (0x09, 0x80, 0x98, 8), (0x09, 0x160, 0x160, 8), (0x09, 0x180, 0x198, 8),
  (0x0A, 0x18, 0x18, 8), (0x0A, 0x108, 0x120, 8), (0x0A, 0x210, 0x220, 8),
  (0x10, 0x200, 0x278, 8), (0x10, 0x300, 0x338, 8), (0x10, 0x400, 0x438, 8)] ++ [
  (0x18, 0x80, 0xA8, 8), (0x18, 0xC0, 0xE8, 8), (0x18, 0x100, 0x100, 8), (0x18, 0x140, 0x148, 8), (0x18, 0x240, 0x248, 8),
  (0x20, 0x200, 0x238, 8), (0x20, 0x300, 0x338, 8), (0x21, 0x380, 0x398, 8), (0x21, 0x3C0, 0x3D8, 8),
  (0x28, 0x34, 0x34, 8), (0x28, 0x300, 0x330, 8), (0x28, 0x340, 0x370, 8), (0x28, 0x400, 0x7F8, 8),
  (0x30, 0x14, 0x14, 8), (0x30, 0x40, 0x60, 8), (0x30, 0xC0, 0xE0, 8),
  (0x38, 0x200, 0x300, 8), (0x38, 0x400, 0x500, 8), (0x38, 0x1000, 0x1FF0, 16),
  (0x40, 0x500, 0x520, 8), (0x40, 0x580, 0x5A0, 8),
  (0x41, 0x28, 0x30, 8), (0x41, 0x80, 0x90, 8), (0x41, 0xC0, 0xD0, 8)]

def isLo (blk off : Nat) : Bool :=
  loRuns.any (fun r => r.1 == blk && decide (r.2.1 ≤ off) && decide (off ≤ r.2.2.1) && (off - r.2.1) % r.2.2.2 == 0)

/-! ### Counters and holding copies -/

/-- Counters of a block: block, first and last _LO offset, first offset of the holding copies. -/
def ctrRuns : List (Nat × Nat × Nat × Nat) := [
  (0x01, 0x80, 0x90, 0xC0), (0x02, 0x80, 0xA8, 0xC0), (0x03, 0x80, 0x98, 0xC0), (0x04, 0x80, 0x98, 0xC0), (0x05, 0x400, 0x5F8, 0x600),
  (0x08, 0x40, 0x58, 0x140), (0x09, 0x80, 0x98, 0x180), (0x0A, 0x110, 0x120, 0x210), (0x10, 0x300, 0x338, 0x400),
  (0x18, 0x80, 0xA8, 0xC0), (0x18, 0x140, 0x148, 0x240), (0x20, 0x200, 0x238, 0x300), (0x21, 0x380, 0x398, 0x3C0),
  (0x28, 0x300, 0x330, 0x340), (0x28, 0x400, 0x5F8, 0x600), (0x30, 0x40, 0x60, 0xC0),
  (0x38, 0x200, 0x2F8, 0x400), (0x38, 0x300, 0x300, 0x500), (0x40, 0x500, 0x520, 0x580), (0x41, 0x80, 0x90, 0xC0)]

/-- Low or high half of a 64-bit value by the word offset within its pair. -/
def half (v i : Nat) : Nat := if i = 0 then v % 2 ^ 32 else v / 2 ^ 32 % 2 ^ 32

/-- A counter or a holding copy of a counter, where the offset names one. -/
def Dev.ctrWord (d : Dev) (inst blk off : Nat) : Option Nat :=
  match ctrRuns.find? (fun r => r.1 == blk && decide (r.2.1 ≤ off) && decide (off < r.2.2.1 + 8)) with
  | some r => let lo := off - (off - r.2.1) % 8; some (half (d.counter inst blk lo) (off - lo))
  | none =>
    match ctrRuns.find? (fun r => r.1 == blk && decide (r.2.2.2 ≤ off) && decide (off - r.2.2.2 < r.2.2.1 + 8 - r.2.1)) with
    | some r =>
      let x := off - r.2.2.2
      some (half (tabGet (fun _ => 0) d.telem.ctrHold (regKey inst blk (r.2.1 + (x - x % 8)))) (x % 8))
    | none => none

/-- The holding copy of an audit register. -/
def Dev.audWord (d : Dev) (inst blk off : Nat) : Nat := tabGet audZero d.telem.audHold (regKey inst blk off)

/-- A register that holds a value of its own, its reserved bits zero. -/
def Dev.stored (d : Dev) (inst blk off : Nat) : Nat :=
  match regInfo blk off with
  | some r => (d.csrAt inst blk off).toNat &&& (r.rw ||| r.w1c)
  | none => 0

/-- A stored register or a counter. -/
def Dev.plainReg (d : Dev) (inst blk off : Nat) : Nat := (d.ctrWord inst blk off).getD (d.stored inst blk off)

/-! ### Words of records -/

/-- Word `w` of a byte string. -/
def wordOf (bs : List Byte) (w : Nat) : Nat := leAt bs (4 * w) 4

/-- The 32 bytes of an error-log entry (R253). -/
def ELog.bytes (e : ELog) : List Byte :=
  let pin := fun (p : Option Nat) => byte (match p with | some x => x % 64 + 64 | none => 0)
  leBytes 8 e.dt ++ leBytes 5 e.addr ++ [0, byte (e.space + 4 * e.kind + 16 * e.source), byte (if e.space = 0 then e.channel else 0)] ++
    [pin e.pinA, pin e.pinB, byte (e.sbyte + 8 * e.sbit), pin e.partner] ++ List.replicate 12 0

def Dev.elogAt (d : Dev) (n : Nat) : ELog := tabGet (fun _ => {}) d.ecc.elog n
def Dev.logAt (d : Dev) (n : Nat) : LogEntry := tabGet (fun _ => {}) d.fault.log n

/-! ### Blocks -/

def laneStCode : LaneSt → Nat
  | .off => 0 | .detect => 1 | .train => 2 | .lock => 3 | .capx => 4 | .active => 5 | .quiet => 6 | .deep => 7 | .fail => 8
def portStCode : PortSt → Nat
  | .off => 0 | .bond => 1 | .neg => 2 | .init => 3 | .up => 4 | .restripe => 5 | .hold => 6 | .rest => 7 | .fail => 8
def partnerStCode : PartnerSt → Nat
  | .free => 0 | .attached => 1 | .leaving => 2 | .reclaim => 3

/-- LANE (R66). -/
def Dev.rdLane (d : Dev) (l off : Nat) : Nat :=
  if 144 ≤ l then 0
  else
    let x := d.lane l
    let o := d.oct (l / 8)
    match off with
    | 0x10 => d.stored (8 * (l / 8)) bLane 0x10
    | 0x14 => b2n o.pllLock + 2 * b2n o.pllOn + d.stored (8 * (l / 8)) bLane 0x14
    | 0x24 => laneStCode x.st + 16 * b2n x.rxpolInv + 32 * (x.farLidx % 16) + 512 * b2n (d.fecShown l) + 1024 * b2n (d.laneReversed l) +
        2048 * b2n x.prbsLock + 65536 * (x.failCause % 256)
    | 0x30 => tapsWord x.taps
    | _ => d.plainReg l bLane off

/-- PORT (R100). -/
def Dev.rdPort (d : Dev) (n off : Nat) : Nat :=
  if 144 ≤ n || d.portWidth n = 0 then 0
  else
    let p := d.port n
    match off with
    | 0x10 => clearBits (d.stored n bPort 0x10) 1 + b2n (p.st != .off)
    | 0x14 => portStCode p.st + 16 * (p.gen % 4) + 64 * b2n (p.order == some true) + 256 * (p.stby.getD 0) + 4096 * b2n p.stby.isSome +
        65536 * (p.partner.getD 0) + 2 ^ 22 * b2n p.partner.isSome + 2 ^ 24 * (p.failCause % 256)
    | 0x18 => p.txMask % 65536 + 65536 * (p.rxMask % 65536)
    | 0x28 => (d.tx n 0).pool + 65536 * (d.tx n 1).pool
    | 0x2C => (d.tx n 2).pool + 65536 * (d.tx n 3).pool
    | _ =>
      if 0x40 ≤ off ∧ off ≤ 0x64 then d.portAudit n off
      else if 0x140 ≤ off ∧ off ≤ 0x164 then d.audWord n bPort (off - 0x100)
      else d.plainReg n bPort off

/-- Highest generation among a partner's UP ports (R105). -/
def Dev.ptnGen (d : Dev) (k : Nat) : Nat :=
  ((d.portsOf k).filter (fun n => (d.port n).st == .up)).foldl (fun g n => max g (d.port n).gen) 0

/-- PARTNER (R118); `ix` is the caller's path. -/
def Dev.rdPartner (d : Dev) (ix k off : Nat) : Nat :=
  match off with
  | 0x04 => if ix < 64 then ix + 64 else 0
  | 0x10 => partnerStCode (d.ptn k).st + 16 * d.ptnGen k + 256 * (d.portsOf k).length + 8192 * b2n (d.pin_ k != 0)
  | 0x18 => half (d.ptn k).chipid 0
  | 0x1C => half (d.ptn k).chipid 1
  | 0x50 => d.ptAudit k
  | 0x54 => d.ptAudit2 k
  | 0x108 => maskOf ((List.range 32).filter (fun i => (d.ptn i).st == .free))
  | 0x10C => maskOf ((List.range 32).filter (fun i => (d.ptn (32 + i)).st == .free))
  | _ =>
    if 0x20 ≤ off ∧ off ≤ 0x30 then bits (maskOf (d.portsOf k)) (32 * ((off - 0x20) / 4)) 32
    else if 0x1000 ≤ off ∧ off < 0x1200 then d.audWord ((off - 0x1000) / 8) bPartner (if off % 8 = 0 then 0x50 else 0x54)
    else if off = 0x38 then d.plainReg k bPartner off else d.plainReg 0 bPartner off

/-- QM (R190). -/
def Dev.rdQm (d : Dev) (q off : Nat) : Nat :=
  let rec_ := d.qRecord q
  match off with
  | 0x10 => wordOf rec_ 0
  | 0x14 => wordOf rec_ 1
  | 0x18 => wordOf rec_ 5 % 32
  | 0x1C => imgProfileOf d.image q
  | 0x20 => wordOf rec_ 2
  | 0x24 => wordOf rec_ 5 / 65536
  | 0x28 => wordOf rec_ 7
  | 0x30 => (d.queue q).drops % 2 ^ 32
  | 0x40 => d.audWord q bQm 0x30
  | 0x154 => b2n d.movesPending + 256 * (d.qm.queue.filter (fun x => x.2.frozen)).length
  | _ =>
    if 0x100 ≤ off ∧ off ≤ 0x140 then d.qmAudit off
    else if 0x500 ≤ off ∧ off ≤ 0x540 then d.audWord 0 bQm (off - 0x400)
    else if 0x200 ≤ off ∧ off < 0x280 then half (imgNotify d.image ((off - 0x200) / 8)) (off / 4 % 2)
    else if 0x1000 ≤ off then
      (let p := imgProfile d.image ((off - 0x1000) / 16)
       match off % 16 with
       | 0 => p.qlimit
       | 4 => p.qwm
       | 8 => p.parkUs + 65536 * p.nt + 2 ^ 20 * b2n p.ntV + 2 ^ 21 * b2n p.mgmt
       | _ => 0)
    else d.plainReg 0 bQm off

/-- WALK_FLOOR (R210). -/
def Dev.walkFloor (d : Dev) : Nat :=
  let ss := (d.txn.reqs.filter (fun r => r.opc.isTable && r.st != .done)).map (·.stamp)
  match ss with
  | [] => d.dt
  | x :: t => t.foldl min x

/-- SLALOM (R219). -/
def Dev.rdSlalom (d : Dev) (e off : Nat) : Nat :=
  let x := d.eng e
  match off with
  | 0x10 => ((List.range 16).map (fun i => d.ctxBusy (16 * e + i))).sum + 65536 * min 255 x.roundLast + 2 ^ 24 * min 255 x.roundMax
  | 0x100 => half d.walkFloor 0
  | 0x104 => half d.walkFloor 1
  | _ =>
    if 0x20 ≤ off ∧ off ≤ 0x5C then (let c := 16 * e + (off - 0x20) / 4; d.ctxBusy c + 256 * tabGet (fun _ => 0) d.sla.peak c)
    else if 0x110 ≤ off ∧ off ≤ 0x120 then d.rcAudit off
    else if 0x200 ≤ off ∧ off ≤ 0x210 then d.audWord 0 bSlalom (off - 0xF0)
    else if 0x1000 ≤ off then wordOf (d.td ((off - 0x1000) / 64)) (off / 4 % 16)
    else if off < 0x100 then d.plainReg e bSlalom off else d.plainReg 0 bSlalom off

def chStCode : ChSt → Nat
  | .active => 0 | .selfref => 1 | .degraded => 2 | .retired => 3

/-- DRAM (R239). -/
def Dev.rdDram (d : Dev) (c off : Nat) : Nat :=
  let x := d.ch c
  match off with
  | 0x10 => chStCode x.st + 4 * x.band + 16 * b2n x.catchup.isSome + 32 * b2n (d.pacedNow c) + 64 * b2n x.wdrain + 256 * x.fill
  | 0x18 => x.rdq.length + 65536 * x.wrq.length
  | 0x1C => x.ptr % 2 ^ 19 + 2 ^ 24 * x.debt
  | 0x20 => 44 + 44 * 256 + 88 * 65536 + 132 * 2 ^ 24
  | 0x24 => 48 + 56 * 256 + 40 * 65536 + 176 * 2 ^ 24
  | 0x28 => 10 + 10 * 256 + 20 * 65536 + 80 * 2 ^ 24
  | _ =>
    if 0x100 ≤ off ∧ off ≤ 0x1E4 then
      (let v := d.vlink c ((off - 0x100) / 4); v.eye % 128 + 256 * (v.deskew % 256) + 65536 * (v.vref % 256) + 2 ^ 24 * b2n v.low)
    else d.plainReg c bDram off

/-- Stress in units of 1/65,536 of the budget of 175,320 hours, saturating (R446, R450). -/
def stressUnits (s : Nat) : Nat := min 65535 (s * 65536 / (631152000 * 2 ^ 32))

/-- Fewest free spare rows in any subarray of a channel. -/
def Dev.rowFreeMin (d : Dev) (c : Nat) : Nat :=
  let rs := d.graft.rows.filter (fun r => r.ch == c)
  32 - rs.foldl (fun m r => max m (rs.filter (fun x => x.bank == r.bank && x.row / 8192 == r.row / 8192)).length) 0

/-- GRAFT (R450). -/
def Dev.rdGraft (d : Dev) (c off : Nat) : Nat :=
  let e := d.evacOf c
  let used := fun (l : List Nat) => (l.filter (fun n => (d.spare c n).v)).length
  match off with
  | 0x10 => used [0, 1, 2, 3] + 16 * used [4, 5] + 256 * b2n (d.ch c).failed + 512 * b2n e.run + 1024 * b2n e.stuck +
      65536 * min 255 (d.graft.rows.filter (fun r => r.ch == c)).length + 2 ^ 24 * d.rowFreeMin c
  | 0x38 => e.done % 2 ^ 24
  | 0x3C => e.total % 2 ^ 24
  | 0x40 => (match d.evacWork c with | (b, _) :: _ => if e.want then b % 262144 else 0 | [] => 0)
  | 0x310 => b2n d.graft.sdtValid + 2 * b2n d.graft.longRan
  | 0x314 => d.graft.sdtFail
  | _ =>
    if 0x20 ≤ off ∧ off ≤ 0x34 then (let s := d.spare c ((off - 0x20) / 4); s.link % 64 + 64 * b2n s.v + 128 * b2n s.fused)
    else if 0x100 ≤ off ∧ off ≤ 0x10C then
      (let t := (off - 0x100) / 4
       let top := d.graft.trunkStress.foldl (fun m s => if (if s.1 < 8192 then s.1 / 2048 else (s.1 - 8192) / 32) = t then max m s.2 else m) 0
       ((List.range 32).filter (fun g => (d.trunk t g).v)).length % 64 + 65536 * stressUnits top)
    else if 0x200 ≤ off ∧ off ≤ 0x2E4 then
      (let k := 64 * c + (off - 0x200) / 4
       stressUnits (tabGet (fun _ => 0) d.graft.stress k) + 65536 * b2n (d.graft.atLimit.contains k))
    else d.plainReg 0 bGraft off

/-- An armed injection waits (R254): its target lies in an invalid block or word, or in a poisoned unit. -/
def Dev.injWaits (d : Dev) : Bool :=
  d.injArmed && (if fld d.injReg 1 1 = 1 then !d.wordValid (d.injAddr / 8)
    else match d.placeAt d.injAddr with
      | some (r, p) => !r.sram && (let q := d.phys p; !d.blkValid (placeBlk q) || d.mem.poison.contains (placeUnit q))
      | none => true)

/-- ECC (R256). -/
def Dev.rdEcc (d : Dev) (off : Nat) : Nat :=
  match off with
  | 0x20 => b2n (!d.ecc.dramBehind.isEmpty) + 2 * b2n d.ecc.sramBehind + 65536 * (d.ecc.dramLast.foldl (fun m e => max m e.2) 0)
  | 0x3C => d.stored 0 bEcc 0x3C + 2 * b2n d.injWaits
  | 0x44 => d.mem.poison.length
  | 0x200 => d.ecc.elogNext + 256 * ((List.range 64).filter (fun n => (d.elogAt n).unread)).length + 32768 * b2n d.ecc.elogOvf
  | _ =>
    if 0x100 ≤ off ∧ off < 0x200 then
      (let x := d.ch ((off - 0x100) / 4)
       let pin := fun (p : Option Nat) => match p with | some y => y % 64 + 64 | none => 0
       pin x.markA + 256 * pin x.markB + 32768 * b2n x.markFull)
    else if 0x1000 ≤ off then wordOf (d.elogAt ((off - 0x1000) / 32)).bytes (off / 4 % 8)
    else d.plainReg 0 bEcc off

def xcStCode : XcSt → Nat
  | .free => 0 | .idle => 1 | .run => 2 | .chainWait => 3 | .draining => 4

/-- XFER (R298): HOLD counts started units of 256 bytes. -/
def Dev.rdXfer (d : Dev) (x off : Nat) : Nat :=
  let c := d.xc x
  match off with
  | 0x10 => xcStCode c.st + 8 * b2n c.owner.isSome + 16 * (c.owner.getD 0) + 1024 * b2n (x == 31) + 65536 * c.code
  | 0x14 => half c.cur 0
  | 0x18 => c.cur / 2 ^ 32 % 256
  | 0x1C => c.done % 2 ^ 32
  | 0x20 => min 64 c.inflight + 256 * min 16 ((c.hold.length + 3) / 4)
  | 0x104 => maskOf ((List.range 32).filter (fun i => (d.xc i).st == .free))
  | 0x100 => d.plainReg 0 bXfer off
  | _ => d.plainReg x bXfer off

/-- REFCODE of a channel (R275). -/
def Chan.refCode (c : Chan) : Nat := if c.catchup.isSome then c.band + 2 else c.band

/-- REG (R275). -/
def Dev.rdReg (d : Dev) (off : Nat) : Nat :=
  let r := d.reg
  match off with
  | 0x10 => clearBits (d.stored 0 bReg 0x10) 0xFF + r.share % 256
  | 0x20 => r.n % 128 + 256 * (r.bind % 64) + 65536 * b2n r.scaled + 2 ^ 24 * (r.causes % 16)
  | 0x24 => r.gmin % 65536
  | 0x28 => (r.rsv.map (·.b)).sum % 2 ^ 32
  | 0x2C => (r.rsv.map (·.bNow)).sum % 65536
  | _ =>
    if 0x30 ≤ off ∧ off < 0x50 then tabGet (fun _ => 65536) r.kScale ((off - 0x30) / 4)
    else if 0x100 ≤ off ∧ off < 0x200 then
      (let c := (off - 0x100) / 4
       let (n, dn) := d.admitOf c
       tabGet (fun _ => 49782) r.g c % 65536 + 65536 * (128 * n / dn) + 2 ^ 24 * (d.ch c).refCode + 2 ^ 27 * b2n (d.retired c))
    else if 0x1000 ≤ off then
      (let i := (off - 0x1000) / 16
       let e := d.rsv i
       match off % 16 with
       | 0 => half e.chipid 0
       | 4 => half e.chipid 1
       | 8 => e.rate % 2 ^ 22 + 2 ^ 24 * e.tc + 2 ^ 31 * b2n e.valid
       | _ => ((r.rsv.find? (fun x => x.idx == i)).map (·.bNow)).getD 0 % 65536 + 65536 * b2n (e.valid && (d.partnerOf e.chipid).isSome))
    else d.plainReg 0 bReg off

/-- Mailbox owner of a path; Heartwood owns none (R301). -/
def ownerOfPath (ix : Nat) : Option Nat := if ix < 66 then some ix else none

/-- MBOX (R318): the slot windows and queue of the caller's owner. -/
def Dev.rdMbox (d : Dev) (ix off : Nat) : Nat :=
  let m := d.mbox
  let own := fun (f : Nat → Nat) => match ownerOfPath ix with | some o => f o | none => 0
  match off with
  | 0x04 => own id
  | 0x14 => m.fwState + 8 * b2n m.image + 16 * b2n m.trial + 256 * ((allPairs.filter (fun x => (d.pair x.1 x.2).st == .running)).length % 32)
  | 0x18 => m.ver % 65536
  | 0x100 => own (fun o => ((List.range 8).map (fun i => 4 ^ i * (match (d.pair o i).st with | .free => 0 | .posted => 1 | .running => 2 | .done => 3))).sum)
  | 0x104 => own (fun o => maskOf ((List.range 8).filter (fun i => (d.pair o i).st == .posted || (d.pair o i).st == .running)))
  | 0x108 => own (fun o => maskOf ((List.range 8).filter (fun i => (d.pair o i).st == .done)))
  | 0x10C => own (fun o => d.evqCount o + 65536 * (d.mb o).eseq)
  | 0x114 => own (fun o => d.plainReg o bMbox 0x114)
  | _ =>
    if 0x300 ≤ off ∧ off ≤ 0x404 then d.ownerWord ((off - 0x300) / 4)
    else if 0x600 ≤ off ∧ off ≤ 0x704 then d.audWord 0 bMbox (off - 0x300)
    else if 0x1000 ≤ off ∧ off < 0x1800 then own (fun o => wordOf (d.pair o ((off - 0x1000) / 256)).cmd (off / 4 % 64))
    else if 0x1800 ≤ off ∧ off < 0x2000 then own (fun o => wordOf (d.pair o ((off - 0x1800) / 256)).resp (off / 4 % 64))
    else if 0x2000 ≤ off then own (fun o => match (d.mb o).evq with | e :: _ => wordOf e.bytes ((off - 0x2000) / 4) | [] => 0)
    else d.plainReg 0 bMbox off

def cfgStCode : CfgSt → Nat
  | .confirmed => 0 | .pending => 1 | .committing => 2 | .rollingBack => 3

/-- CONFIG (R370). -/
def Dev.rdConfig (d : Dev) (off : Nat) : Nat :=
  let c := d.cfg
  let dl := if c.st == .pending then c.deadline else 0
  match off with
  | 0x10 => cfgStCode c.st + 4 * b2n c.session.isSome + 256 * (c.session.getD 0) + 65536 * b2n c.staged.present + 2 ^ 17 * b2n c.checked +
      2 ^ 18 * b2n c.previous.present
  | 0x14 => if c.staged.present then c.staged.gen else 0
  | 0x18 => c.active.gen
  | 0x1C => if c.previous.present then c.previous.gen else 0
  | 0x20 => c.active.crc
  | 0x28 => half c.commitDt 0
  | 0x2C => half c.commitDt 1
  | 0x30 => half dl 0
  | 0x34 => half dl 1
  | _ => d.plainReg 0 bConfig off

def dtSrcCode : DtSrc → Nat
  | .pll => 0 | .divider => 1 | .ring => 2 | .frozen => 3


/-- CLOCK (R389). -/
def Dev.rdClock (d : Dev) (off : Nat) : Nat :=
  let c := d.clk
  match off with
  | 0x10 => c.refclk + 4 * b2n c.tbLock + 8 * b2n c.hwLock + 16 * b2n c.mgLock + 32 * b2n c.hold + 64 * b2n c.ringSettled + 256 * dtSrcCode c.dtSrc
  | 0x14 => b2n c.tbPll + 2 * b2n c.hwPll + 4 * b2n c.mgPll + d.stored 0 bClock 0x14
  | 0x1C => b2n c.ringSettled + 2 * b2n c.ringFailed + 4 * (c.ringCause % 4) + 768
  | 0x20 => c.ringPeriod % 2 ^ 32
  | 0x34 => maskOf ((List.range 18).filter d.octRuns)
  | 0x38 => maskOf ((List.range 32).filter d.phyRuns)
  | 0x3C => maskOf ((List.range 32).filter (fun i => d.phyRuns (32 + i)))
  | 0x40 => modeCode c.mode + 16 * (match c.move with | some m => modeCode m.tgt | none => 0) + 128 * b2n c.move.isSome +
      256 * b2n (c.mode == .doze && c.dozeDeep)
  | 0x50 => half c.dt 0
  | 0x54 => half c.dt 1
  | 0x58 => half c.tripDt 0
  | 0x5C => half c.tripDt 1
  | _ => d.plainReg 0 bClock off

/-- A weight of MODEL_n as its field reads. -/
def weightField (w : Nat) : Nat := if w ≥ 256 then 255 else w

/-- THERMAL (R410). -/
def Dev.rdThermal (d : Dev) (off : Nat) : Nat :=
  let t := d.therm
  match off with
  | 0x20 => t.hottest + 65536 * ofSigned 16 t.hotT
  | 0x24 => b2n t.throttling + 2 * b2n t.alarm + 4 * b2n t.envelope + 8 * b2n t.noTrim + 16 * b2n ((List.range 21).any d.rising)
  | _ =>
    if 0x100 ≤ off ∧ off ≤ 0x150 then
      (let n := (off - 0x100) / 4
       let y := d.layer n
       ofSigned 16 y.temp + 65536 * y.src + 2 ^ 18 * b2n (d.rising n) + 2 ^ 20 * min 15 y.count)
    else if 0x200 ≤ off ∧ off ≤ 0x250 then (let y := d.layer ((off - 0x200) / 4); ofSigned 16 (y.pred.getD 0) + 65536 * (y.power % 65536))
    else if 0x300 ≤ off ∧ off ≤ 0x350 then
      (let c := d.coef ((off - 0x300) / 4)
       weightField c.wlo + 256 * weightField c.whi + 65536 * b2n (decide (256 ≤ c.wlo)) + 2 ^ 17 * b2n (decide (256 ≤ c.whi)) + 2 ^ 18 * (c.theta % 64) +
         2 ^ 24 * ofSigned 8 c.ofs)
    else if 0x400 ≤ off ∧ off ≤ 0x67C then
      (let i := (off - 0x400) / 4
       let s := d.sensor i
       ofSigned 16 s.reading + 65536 * b2n s.valid + 2 ^ 17 * b2n s.broken + 2 ^ 18 * b2n (d.layer (sensorLayer i)).suspect)
    else if 0x800 ≤ off ∧ off ≤ 0xB88 then
      (let x := d.dom ((off - 0x800) / 4)
       min 3 x.fails + 4 * b2n x.pending + 8 * b2n x.suspended + 65536 * ofSigned 16 x.refT)
    else d.plainReg 0 bThermal off

/-- FAULT (R430). -/
def Dev.rdFault (d : Dev) (off : Nat) : Nat :=
  let u := d.fault
  let ns := List.range 256
  match off with
  | 0x14 => (ns.filter (fun n => (d.src n).held)).length + 65536 * (ns.filter (fun n => (d.src n).esc.isSome)).length
  | 0x18 => b2n (u.errLow && !u.errRel) + 2 * b2n u.errLow + 256 * u.errCause
  | 0x40 => u.logNext + 256 * ((List.range 32).filter (fun n => (d.logAt n).unread)).length + 32768 * b2n u.logOvf
  | _ =>
    if 0x20 ≤ off ∧ off < 0x40 then maskOf ((List.range 32).filter (fun i => (d.src (8 * (off - 0x20) + i)).held))
    else if 0x400 ≤ off ∧ off < 0x800 then
      (let n := (off - 0x400) / 4
       d.reactOf n + 256 * faultClass n + 65536 * d.escMs n)
    else if 0x800 ≤ off ∧ off < 0x1000 then wordOf (d.logAt ((off - 0x800) / 64)).bytes (off / 4 % 16)
    else if 0x1000 ≤ off then
      (let s := d.src ((off - 0x1000) / 48)
       match (off - 0x1000) % 48 with
       | 0 => b2n s.held + 2 * b2n s.esc.isSome + 4 * b2n s.brst
       | 4 => s.raises
       | 8 => half s.lastDt 0
       | 12 => half s.lastDt 1
       | x => wordOf s.detail.bytes ((x - 16) / 4))
    else d.plainReg 0 bFault off

/-- OTP (R470). -/
def Dev.rdOtp (d : Dev) (off : Nat) : Nat :=
  let u := d.otp
  match off with
  | 0x10 => lcCode u.lc + 8 * b2n u.lcAbsent + 16 * b2n u.lcTorn + 64 * b2n u.sweep.isSome + 128 * b2n u.sweepNext
  | 0x14 => b2n u.win.isSome + 2 * b2n d.pin.vprogOk + 256 * d.cfgFld 0 bOtp 0x14 8 8
  | 0x20 => u.present % 2 ^ 32
  | 0x24 => u.marginal % 2 ^ 32
  | 0x28 => u.sealed % 2 ^ 32
  | 0x2C => u.wlock % 2 ^ 32
  | 0x30 => u.rlock % 2 ^ 32
  | 0x34 => maskOf ((List.range 32).filter (fun r => u.shadow.any (fun e => e.1 / 64 == r)))
  | 0x38 => u.onecopy % 2 ^ 32
  | 0x44 => u.lastWord + 256 * u.lastRegion
  | _ => d.plainReg 0 bOtp off

/-- TELEM (R487). -/
def Dev.rdTelem (d : Dev) (off : Nat) : Nat :=
  let t := d.telem
  match off with
  | 0x14 => t.snapSeq
  | 0x18 => half t.snapDt 0
  | 0x1C => half t.snapDt 1
  | 0x20 => t.snapSrc
  | _ => if 0x40 ≤ off ∧ off < 0x50 then d.teleNext ((off - 0x40) / 4 + 1) % 2 ^ 32 else d.plainReg 0 bTelem off

/-- GLOBAL (R486). -/
def Dev.rdGlobal (d : Dev) (off : Nat) : Nat :=
  match off with
  | 0x04 => 0x6420 + 65536 * (d.otp.word2 % 256)
  | 0x08 => half d.otp.chipid 0
  | 0x0C => half d.otp.chipid 1
  | 0x10 => d.pin.resetCause + 256 * d.pin.resetSource
  | 0x14 => d.pin.bootHold
  | 0x20 => d.pin.vreq % 1024 + 65536 * (d.pin.vforce % 1024)
  | 0x24 => half d.pin.vreqDt 0
  | 0x28 => half d.pin.vreqDt 1
  | 0x50 => b2n d.mgmt.dyn.isSome + 2 * (d.mgmt.dyn.getD 0 % 128) + 256 * (0x58 + d.pin.straps % 8) + d.stored 0 bGlobal 0x50
  | _ => d.plainReg 0 bGlobal off

/-- What the register at a plain offset shows to path `ix`; a reserved location reads zero (R473). -/
def Dev.regShows (d : Dev) (ix blk off : Nat) : Nat :=
  let sel := tabGet (fun _ => 0) d.sel (ix * 256 + blk)
  if !implemented blk off then 0
  else if off = 0 && hasSelect blk then sel
  else match blk with
    | 0x00 => d.rdGlobal off
    | 0x01 => d.rdClock off
    | 0x02 => d.rdThermal off
    | 0x03 => d.rdFault off
    | 0x04 => d.rdOtp off
    | 0x05 => d.rdTelem off
    | 0x08 => d.rdLane sel off
    | 0x09 => d.rdPort sel off
    | 0x0A => d.rdPartner ix sel off
    | 0x10 => d.rdQm sel off
    | 0x18 => d.rdSlalom sel off
    | 0x20 => d.rdDram sel off
    | 0x21 => d.rdGraft sel off
    | 0x28 => d.rdEcc off
    | 0x30 => d.rdXfer sel off
    | 0x38 => d.rdReg off
    | 0x40 => d.rdMbox ix off
    | 0x41 => d.rdConfig off
    | _ => 0

/-! ### An access -/

/-- What an access answers: status (R132), value, and the device afterwards. -/
structure Acc where
  status : Status := .ok
  value : Nat := 0
  dev : Dev := {}

/-- Lowest bit and width of the RC field of a register. -/
def rcField (blk off : Nat) : Option (Nat × Nat) :=
  if blk = bPartner ∧ off = 0x54 then some (24, 8)
  else if blk = bSlalom ∧ off = 0x10 then some (24, 8)
  else if blk = bSlalom ∧ 0x20 ≤ off ∧ off ≤ 0x5C then some (8, 7)
  else none

/-- A read of an RC field returns its value from before an event of the same DT (R9). -/
def Dev.rcShows (d : Dev) (ix blk off v : Nat) : Nat :=
  match rcField blk off with
  | some (lo, w) =>
    let sel := tabGet (fun _ => 0) d.sel (ix * 256 + blk)
    clearBits v ((2 ^ w - 1) * 2 ^ lo) + (d.rcNow sel blk off (bits v lo w)).1 % 2 ^ w * 2 ^ lo
  | none => v

/-- Side effects of a read by a path other than a partner (R8, R253, R426, R475): RC fields clear, log entries are freed. -/
def Dev.readEffect (d : Dev) (ix blk off : Nat) : Dev :=
  let sel := tabGet (fun _ => 0) d.sel (ix * 256 + blk)
  if ix < 64 then d
  else if (rcField blk off).isSome then
    -- RC: to the reset value 0, but for events of the same DT (R8, R9)
    (let k := regKey sel blk off
     let v := (d.rcNow sel blk off 0).2
     let d1 := { d with rcv := tabMod (fun _ => (0, 0, 0)) d.rcv k (fun e => (e.1, 0, e.2.2)) }
     if blk = bPartner then d1.modPtn sel (fun p => { p with rspDrop := v })
     else if off = 0x10 then d1.modEng sel (fun e => { e with roundMax := v })
     else { d1 with sla := { d1.sla with peak := tabSet (fun _ => 0) d1.sla.peak (16 * sel + (off - 0x20) / 4) v } })
  else if blk = bEcc ∧ 0x1000 ≤ off ∧ off % 32 = 28 then
    d.modEcc (fun u => { u with elog := tabMod (fun _ => {}) u.elog ((off - 0x1000) / 32) (fun e => { e with unread := false }) })
  else if blk = bFault ∧ 0x800 ≤ off ∧ off < 0x1000 ∧ off % 64 = 60 then d.logRead ((off - 0x800) / 64)
  else d

def Dev.latchOf (d : Dev) (ix blk : Nat) : Option (Nat × Nat) := tabGet (fun _ => none) d.latch (ix * 256 + blk)
def Dev.setLatch (d : Dev) (ix blk : Nat) (v : Option (Nat × Nat)) : Dev := { d with latch := tabSet (fun _ => none) d.latch (ix * 256 + blk) v }

/-- Read the register at offset `a` of the CSR range for path `ix` (R473 to R478): the alias views read zero. -/
def Dev.csrRead (d : Dev) (ix a : Nat) : Acc :=
  if a % 4 ≠ 0 ∨ 0x1000000 ≤ a then { status := .addr, dev := d }
  else if ix = 65 && d.otp.lc == .ended then { status := .denied, dev := d }
  else
    let blk := a / 0x10000
    let off := a % 0x10000
    if 0x4000 ≤ off then { dev := d }
    else
      let live := d.regShows ix blk off
      let v := match d.latchOf ix blk with
        | some (lo, hi) => if lo + 4 = off then hi else live
        | none => live
      let d1 := if isLo blk off then d.setLatch ix blk (some (off, d.regShows ix blk (off + 4))) else d.setLatch ix blk none
      { value := d.rcShows ix blk off v, dev := d1.readEffect ix blk off }

end Sys2Proof.Machine
end

