-- ==== Sys2Proof/Machine/CsrWrite.lean ====
section
/-!
DEFINITION. Writing registers (R8, R9, R67, R101, R119, R240, R257, R276, R299, R390, R411, R431, R451, R471, R475 to R477): rights,
aliases, ranges and effects.
-/
namespace Sys2Proof.Machine

/-- Instance whose copy of a register a select value names. -/
def instOf (blk off sel : Nat) : Nat :=
  if blk = bLane then (if off = 0x10 ∨ off = 0x14 then 8 * (sel / 8) else sel)
  else if blk = bPort ∨ blk = bDram then sel
  else if blk = bPartner then (if off = 0x38 then sel else 0)
  else if blk = bSlalom ∨ blk = bXfer then (if off < 0x100 then sel else 0)
  else 0

/-- RW fields of a register, for the alias views (R477). -/
def rwMask (blk off : Nat) : Nat :=
  if off = 0 && hasSelect blk then 2 ^ selWidth blk - 1
  else if blk = bLane ∧ off = 0x30 then 0x3F3F3F3F
  else if blk = bFault ∧ off = 0x18 then 1
  else if blk = bFault ∧ 0x400 ≤ off ∧ off < 0x800 then 0xFFFF001F
  else if blk = bMbox ∧ 0x1000 ≤ off ∧ off < 0x1800 then 0xFFFFFFFF
  else match regInfo blk off with
    | some r => r.rw
    | none => 0

/-- A value of a field lies in a range. -/
def inR (v lo w a b : Nat) : Bool := decide (a ≤ bits v lo w) && decide (bits v lo w ≤ b)

/-- The ranges of a register's fields; a write outside them is ignored as a whole. -/
def rangeOk (blk off v : Nat) : Bool :=
  match blk, off with
  | 0x08, 0x60 => inR v 0 16 1 65535 && inR v 16 16 1 65535
  | 0x08, 0x64 => inR v 0 32 1 0xFFFFFFFF
  | 0x08, 0x70 => inR v 0 16 10 2000 && inR v 16 16 50 10000
  | 0x08, 0x74 => inR v 0 16 100 10000
  | 0x09, 0x30 => inR v 0 16 200 65535 && inR v 16 4 1 15
  | 0x09, 0x34 => inR v 0 16 1 2000 && inR v 16 16 1 1000
  | 0x09, 0x38 => bits v 0 16 == 0 || inR v 0 16 10 60000
  | 0x0A, 0x100 => inR v 0 16 1 10000 && inR v 16 16 1 1000
  | 0x20, 0x30 => inR v 0 8 0 80 && inR v 8 8 4 255 && inR v 24 6 0 31 && inR v 16 6 (bits v 24 6 + 1) 32
  | 0x20, 0x34 => inR v 0 16 50 10000
  | 0x20, 0x38 => inR v 0 3 1 5 && inR v 8 8 1 100
  | 0x20, 0x3C => inR v 0 9 256 322
  | 0x20, 0x40 => inR v 0 10 20 1000 && inR v 16 10 100 1000
  | 0x20, 0x44 => inR v 0 16 100 60000
  | 0x20, 0x48 => inR v 0 16 100 60000 && inR v 16 6 8 32
  | 0x28, 0x10 => inR v 0 16 10 1440 && inR v 16 16 10 3600
  | 0x28, 0x14 => inR v 0 8 2 255 && inR v 16 16 1 60000
  | 0x28, 0x18 => inR v 0 16 1 65535 && inR v 16 16 1 60000
  | 0x38, 0x10 => inR v 12 3 1 7 && inR v 16 3 (bits v 12 3) 7
  | 0x38, 0x14 => inR v 16 16 10 10000
  | 0x30, 0x100 => inR v 0 7 1 64
  | 0x40, 0x10 => inR v 0 10 10 1000 && inR v 12 20 60 86400
  | 0x01, 0x18 => inR v 0 10 20 1000 && inR v 10 5 4 20 && inR v 16 14 10 10000
  | 0x02, 0x10 => inR v 24 8 105 118 && inR v 0 8 85 108 && inR v 8 8 (bits v 0 8 + 2) (bits v 24 8 - 3) && inR v 16 8 85 (bits v 24 8)
  | 0x02, 0x14 => inR v 0 5 1 20 && inR v 8 7 1 100 && inR v 16 10 1 1000
  | 0x02, 0x18 => inR v 0 5 1 20 && inR v 16 10 10 1000
  | 0x02, 0x1C => inR v 0 5 2 20 && inR v 8 4 1 15 && inR v 16 5 1 20
  | 0x03, 0x10 => inR v 0 16 0 60000
  | 0x21, 0x300 => inR v 0 8 2 255 && inR v 8 8 50 99 && inR v 16 16 1 60000
  | _, _ => true

/-- A whole write of a register that holds a value of its own: RW fields take the value, W1C fields clear where it is 1 and no event of the
same DT has set the bit (R8, R9). -/
def Dev.storeReg (d : Dev) (inst blk off v : Nat) : Dev :=
  match regInfo blk off with
  | none => d
  | some r =>
    if !rangeOk blk off v then d
    else
      let old := (d.csrAt inst blk off).toNat
      d.setCsr inst blk off (word ((v &&& r.rw) ||| clearBits (old &&& r.w1c) (clearBits v (d.evtNow inst blk off))))

/-- A write of LANE_CTRL (R59, R65, R66). Of the events that one write brings, the first in the order of R60 wins. -/
def Dev.laneCtrlWrite (d : Dev) (l v : Nat) : Dev :=
  let was := d.laneEnabled l
  let d1 := d.setCsr l bLane 0x20 (word ((v &&& 0x778E) + b2n was))
  let d2 := if bit v 0 then d1.laneDo l (fun x => x.laneEnable l)
    else if was then d1.laneDo l (fun x => x.laneOff l) else d1
  let st := (d2.lane l).st
  let d3 :=
    if !bit v 0 then d2
    else if bit v 6 && (st == .active || st == .fail) then d2.laneDo l (fun x => x.laneRetrain l)
    else match bits v 4 2 with
      | 1 => d2.laneDo l (fun x => x.laneQuiet l)
      | 2 => d2.laneDo l (fun x => x.laneDeep l)
      | 3 => d2.laneDo l (fun x => x.laneWake l)
      | _ => d2
  d3.prbsSync l

/-- A clear of a held source; one that comes at or after the timer's expiry finds the escalation made (R417, R350). -/
def Dev.heldClear (d : Dev) (n : Nat) : Dev := ((d.escalate n).clearSource n).1

/-- A write of REACT_n: refused as a whole where R419 forbids it. -/
def Dev.reactWrite (d : Dev) (n v : Nat) : Dev :=
  let r := d.reactSet n (bits v 0 5) (bits v 16 16)
  if r.2 then r.1 else d.orCsr 0 bFault 0x44 4

/-- Doorbells for the pairs of an owner, in slot order (R302, R318). -/
def Dev.ring (d : Dev) (o v : Nat) : Dev :=
  (bitList v 8).foldl (fun (a : Dev) i => a.postCmd o i (padTo 256 (a.pair o i).cmd) none) d

/-- RSP_ACK: DONE pairs go to FREE, their slot images kept (R305, R318). -/
def Dev.rspAck (d : Dev) (o v : Nat) : Dev :=
  (bitList v 8).foldl (fun (a : Dev) i =>
    if (a.pair o i).st == .done then a.modPair o i (fun p => { cmd := p.cmd, resp := p.resp }) else a) d

/-- A word of a command slot image, written while its pair is FREE (R318). -/
def Dev.slotWrite (d : Dev) (o off v : Nat) : Dev :=
  let i := (off - 0x1000) / 256
  if (d.pair o i).st == .free then
    d.modPair o i (fun p => { p with cmd := overlay (padTo 256 p.cmd) (off % 256) (leBytes 4 v) })
  else d

/-- MBOX writes by a path; Heartwood owns no mailbox. -/
def Dev.wrMbox (d : Dev) (ix off v : Nat) : Dev :=
  match ownerOfPath ix with
  | none => if off < 0x100 then d.storeReg 0 bMbox off v else d
  | some o =>
    if off = 0x104 then d.ring o v
    else if off = 0x108 then d.rspAck o v
    else if off = 0x110 then (if bit v 0 then d.popEvent o else d)
    else if off = 0x114 then d.storeReg o bMbox off v
    else if 0x1000 ≤ off ∧ off < 0x1800 then d.slotWrite o off v
    else d.storeReg 0 bMbox off v

/-- FAULT writes. -/
def Dev.wrFault (d : Dev) (off v : Nat) : Dev :=
  if 0x20 ≤ off ∧ off < 0x40 then (bitList v 32).foldl (fun (a : Dev) i => a.heldClear (8 * (off - 0x20) + i)) d
  else if 0x400 ≤ off ∧ off < 0x800 then d.reactWrite ((off - 0x400) / 4) v
  else match off with
    | 0x18 => d.errDrive (bit v 0)
    | 0x40 => if bit v 15 && !bit (d.evtNow 0 bFault 0x40) 15 then d.modFault (fun u => { u with logOvf := false }) else d
    | 0x50 => d.chkInj v
    | _ => d.storeReg 0 bFault off v

/-- ECC writes; the INJ registers only in MAINT or SERVICE (R254). -/
def Dev.wrEcc (d : Dev) (off v : Nat) : Dev :=
  match off with
  | 0x200 => if bit v 15 && !bit (d.evtNow 0 bEcc 0x200) 15 then d.modEcc (fun u => { u with elogOvf := false }) else d
  | 0x30 | 0x34 | 0x38 => if d.clk.mode == .maint || d.clk.mode == .service then d.storeReg 0 bEcc off v else d
  | 0x14 => d.rollMark.storeReg 0 bEcc off v
  | 0x18 => d.rollCe.storeReg 0 bEcc off v
  | _ => d.storeReg 0 bEcc off v

/-- PORT writes: behind a select that names no configured port only PORT_CFG acts (R69, R100). -/
def Dev.wrPort (d : Dev) (n off v : Nat) : Dev :=
  if 144 ≤ n then d
  else if off = 0x10 then (d.portCfg n v).settle
  else if d.portWidth n = 0 then d
  else
    let a := (d.csrAt n bPort 0x20).toNat
    let b := (d.csrAt n bPort 0x24).toNat
    match off with
    | 0x20 => if poolsOk (d.portWidth n) v b then d.storeReg n bPort off v else d
    | 0x24 => if poolsOk (d.portWidth n) a v then d.storeReg n bPort off v else d
    | _ => d.storeReg n bPort off v

/-- LANE writes. -/
def Dev.wrLane (d : Dev) (l off v : Nat) : Dev :=
  if 144 ≤ l then d
  else match off with
    | 0x10 => d.octCfg l v
    | 0x20 => d.laneCtrlWrite l v
    | 0x30 => d.txFir l v
    | _ => d.storeReg (instOf bLane off l) bLane off v

/-- The effect of a whole write of a register at a plain offset by path `ix`. -/
def Dev.regWrite (d : Dev) (ix blk off v : Nat) : Dev :=
  let sel := tabGet (fun _ => 0) d.sel (ix * 256 + blk)
  if off = 0 && hasSelect blk then
    { d with sel := tabSet (fun _ => 0) d.sel (ix * 256 + blk) (v % 2 ^ selWidth blk) }
  else match blk with
    | 0x08 => d.wrLane sel off v
    | 0x09 => d.wrPort sel off v
    | 0x03 => d.wrFault off v
    | 0x28 => d.wrEcc off v
    | 0x40 => d.wrMbox ix off v
    | 0x21 => (if off = 0x300 then d.rollRow else d).storeReg 0 bGraft off v
    | 0x04 => if off = 0x14 then d.progCtrl (word v) else d.storeReg 0 bOtp off v
    | 0x01 => if off = 0x30 then d.gateCfg (word v) else d.storeReg 0 bClock off v
    | 0x05 => if off = 0x10 then (if bit v 0 then d.snapshot ix else d) else d.storeReg 0 bTelem off v
    | 0x10 => if off = 0x18 then (if bit v 1 && !bit (d.evtNow sel bQm 0x18) 1 then d.modQueue sel (fun q => { q with overrun := false }) else d) else d.storeReg 0 bQm off v
    | _ => d.storeReg (instOf blk off sel) blk off v

/-- A partner may write the select registers and TELEM.SNAP (R475). -/
def partnerMay (blk off : Nat) : Bool := (off = 0 && hasSelect blk) || (blk == bTelem && off == 0x10)
/-- Registers of which a partner's write is ignored and answered OK (R475). -/
def partnerIgnored (blk off : Nat) : Bool :=
  (blk == bEcc && (off == 0x30 || off == 0x34 || off == 0x38)) || (blk == bOtp && off == 0x14)

/-- The value that a write of `v` through alias view `al` gives the register (R477): 1 set, 2 clear, 3 toggle. -/
def Dev.aliasValue (d : Dev) (ix blk off al v : Nat) : Nat :=
  let m := rwMask blk off
  let old := d.regShows ix blk off &&& m
  let x := v &&& m
  if al = 1 then old ||| x else if al = 2 then clearBits old x else old ^^^ x

/-- Write the register at offset `a` of the CSR range by path `ix` (R473 to R478). -/
def Dev.csrWrite (d : Dev) (ix a v : Nat) : Status × Dev :=
  if a % 4 ≠ 0 ∨ 0x1000000 ≤ a then (.addr, d)
  else if ix = 65 && d.otp.lc == .ended then (.denied, d)
  else
    let blk := a / 0x10000
    let al := a % 0x10000 / 0x4000
    let off := a % 0x4000
    if !implemented blk off then (.ok, d)
    else if ix < 64 && !partnerMay blk off then ((if partnerIgnored blk off then .ok else .denied), d)
    else if al = 0 then (.ok, d.regWrite ix blk off v)
    else if rwMask blk off = 0 then (.ok, d)
    else (.ok, d.regWrite ix blk off (d.aliasValue ix blk off al v))

/-! ### Direct accesses by a path -/

/-- Record what an access answered. -/
def Dev.accRecord (d : Dev) (st : Status) (v : Nat) : Dev := d.modMgmt (fun m => { m with accStatus := st.code, accValue := word v })

def Dev.pathWrite (d : Dev) (p : Path) (a v : Nat) : Dev := let r := d.csrWrite (pathIx p) a v; r.2.accRecord r.1 0
def Dev.pathRead (d : Dev) (p : Path) (a : Nat) : Dev := let r := d.csrRead (pathIx p) a; r.dev.accRecord r.status r.value

/-- Offset of a register in alias view `al`. -/
def aliasOff (a al : Nat) : Nat := a / 0x10000 * 0x10000 + al * 0x4000 + a % 0x4000

/-! ### Meanings -/

/-- A select write (R476); a block without a select has none. -/
def execSelectWrite (p : Path) (blk : Nat) (v : Word) (s : State) : Host.Outcome State Fault Refusal :=
  guardNext (pathOk p) (fun d => if hasSelect blk then d.pathWrite p (blk * 0x10000) v.toNat else d) s
/-- A write of a register without a row of its own (R8). -/
def execRegisterWrite (p : Path) (a : Nat) (v : Word) (s : State) : Host.Outcome State Fault Refusal :=
  guardNext (pathOk p) (fun d => d.pathWrite p a v.toNat) s
def execSetAliasWrite (p : Path) (a : Nat) (v : Word) (s : State) : Host.Outcome State Fault Refusal :=
  guardNext (pathOk p) (fun d => d.pathWrite p (aliasOff a 1) v.toNat) s
def execClearAliasWrite (p : Path) (a : Nat) (v : Word) (s : State) : Host.Outcome State Fault Refusal :=
  guardNext (pathOk p) (fun d => d.pathWrite p (aliasOff a 2) v.toNat) s
def execToggleAliasWrite (p : Path) (a : Nat) (v : Word) (s : State) : Host.Outcome State Fault Refusal :=
  guardNext (pathOk p) (fun d => d.pathWrite p (aliasOff a 3) v.toNat) s
/-- A read of a _LO register latches its high half (R478). -/
def execLoReadLatch (p : Path) (a : Nat) (s : State) : Host.Outcome State Fault Refusal := guardNext (pathOk p) (fun d => d.pathRead p a) s
/-- A read of an RC field (R8, R475). -/
def execRcFieldRead (p : Path) (a : Nat) (s : State) : Host.Outcome State Fault Refusal := guardNext (pathOk p) (fun d => d.pathRead p a) s
/-- A read of the last word of an error-log entry (R253). -/
def execElogEntryRead (p : Path) (n : Nat) (s : State) : Host.Outcome State Fault Refusal :=
  guardNext (pathOk p && elogOk n) (fun d => d.pathRead p (0x280000 + 0x1000 + 32 * n + 28)) s
/-- A read of word 15 of a fault-log entry (R426). -/
def execFaultLogRead (p : Path) (n : Nat) (s : State) : Host.Outcome State Fault Refusal :=
  guardNext (pathOk p && logOk n) (fun d => d.pathRead p (0x030000 + 0x800 + 64 * n + 60)) s
/-- A write of INJ_CFG with ARM 1 (R254). -/
def execInjArm (p : Path) (v : Word) (s : State) : Host.Outcome State Fault Refusal :=
  guardNext (pathOk p) (fun d => d.pathWrite p 0x280030 (v.toNat ||| 1)) s
/-- A write of INJ_CFG with ARM 0 (R254). -/
def execInjDisarm (p : Path) (v : Word) (s : State) : Host.Outcome State Fault Refusal :=
  guardNext (pathOk p) (fun d => d.pathWrite p 0x280030 (clearBits v.toNat 1)) s
/-- A write of HELD_n (R417). -/
def execHeldClearWrite (p : Path) (n : Nat) (v : Word) (s : State) : Host.Outcome State Fault Refusal :=
  guardNext (pathOk p && decide (n < 8)) (fun d => d.pathWrite p (0x030020 + 4 * n) v.toNat) s
/-- A write of REACT_n (R419). -/
def execReactWrite (p : Path) (n : Nat) (v : Word) (s : State) : Host.Outcome State Fault Refusal :=
  guardNext (pathOk p && sourceOk n) (fun d => d.pathWrite p (0x030400 + 4 * n) v.toNat) s
/-- A write of ERR_CTRL.DRIVE (R418). -/
def execErrDriveWrite (p : Path) (v : Word) (s : State) : Host.Outcome State Fault Refusal :=
  guardNext (pathOk p) (fun d => d.pathWrite p 0x030018 v.toNat) s
/-- A write of CHK_INJ (R428). -/
def execChkInjArm (p : Path) (v : Word) (s : State) : Host.Outcome State Fault Refusal :=
  guardNext (pathOk p) (fun d => d.pathWrite p 0x030050 v.toNat) s
/-- A write of CMD_DB (R302). -/
def execCmdDbRing (p : Path) (v : Word) (s : State) : Host.Outcome State Fault Refusal :=
  guardNext (pathOk p) (fun d => d.pathWrite p 0x400104 v.toNat) s
/-- A write of RSP_ACK (R305). -/
def execRspAckWrite (p : Path) (v : Word) (s : State) : Host.Outcome State Fault Refusal :=
  guardNext (pathOk p) (fun d => d.pathWrite p 0x400108 v.toNat) s
/-- A write of EVQ_POP (R311). -/
def execEvqPop (p : Path) (v : Word) (s : State) : Host.Outcome State Fault Refusal :=
  guardNext (pathOk p) (fun d => d.pathWrite p 0x400110 v.toNat) s

end Sys2Proof.Machine
end

