-- ==== Sys2Proof/Machine/Requests.lean ====
section
/-!
DEFINITION. The requests of partners on VC0, VC2 and VC3 (R120 to R144, R302), and the progress of what they start:
fragments, table steps, enqueues, parks, transfer channels, evacuation.
-/
namespace Sys2Proof.Machine

/-! ### CSR requests (R140) -/

/-- A CSR request of an earlier place of the same path waits to begin (R140). -/
def Dev.csrBlocked (d : Dev) (r : Req) : Bool :=
  d.txn.reqs.any (fun x => (x.opc == .csrRead || x.opc == .csrWrite) && x.ptn == r.ptn && decide (x.ord < r.ord) && x.st == .waiting)

/-- A CSR request acts, by the partner's own path. -/
def Dev.csrBegin (d : Dev) (r : Req) : Dev :=
  let a := r.addr - csrBase
  if r.opc == .csrRead then
    (let x := d.csrRead r.ptn a
     x.dev.answer r x.status (if x.status == .ok then leBytes 4 x.value else []) 0)
  else (let x := d.csrWrite r.ptn a (leAt r.data 0 4)
        x.2.answer r x.1 [] 0)

def Dev.csrReq (d : Dev) (o : Opc) (h : ReqHdr) : Dev :=
  match d.takeReq o o.code h with
  | (d1, none) => d1
  | (d1, some r) =>
    if d1.fenceBlocked r || d1.csrBlocked r then d1.modTxn (fun t => { t with reqs := t.reqs ++ [r] }) else d1.csrBegin r

/-! ### Other packets -/

/-- UNKNOWN_OPCODE_REQUEST (R124, R131, R302). -/
def Dev.unknownReq (d : Dev) (raw : Nat) (h : ReqHdr) : Dev := (d.takeReq .unknown raw h).1

/-- MBOX_CMD (R302, R307): `plen` bytes of command slot image. -/
def Dev.mboxPacket (d : Dev) (n plen : Nat) (img : List Byte) : Dev :=
  match (d.port n).partner with
  | none => d
  | some k =>
    if !d.present k then d
    else
      let b := padTo 256 (img.take plen)
      let d1 := d.arbStamp k 0
      if plen < 16 ∨ 256 < plen ∨ plen ≠ 16 + cmdPlen b then d1.refuseVc3 k n 0x70
      else d1.postCmd k (cmdSlot b) b (some n)

/-! ### Progress -/

/-- FRAGMENT_ISSUE (R138, R140, R143): a request that a fence or its queue, channel or path held back begins; one that has
begun issues the accesses of its next fragment. -/
def Dev.fragIssue (d : Dev) (id : Nat) : Dev :=
  match d.req? id with
  | none => d
  | some r =>
    if r.st == .waiting && !r.begun then
      (match r.opc with
       | .dequeue => if d.fenceBlocked r || d.queueBlocked r then d else d.deqBegin r
       | .qstatus => if d.fenceBlocked r || d.queueBlocked r then d else d.qstatBegin r
       | .csrRead | .csrWrite => if d.fenceBlocked r || d.csrBlocked r then d else d.csrBegin r
       | .xferClaim | .xferStart | .xferAppend | .xferStop | .xferRelease =>
         if d.fenceBlocked r || d.xferBlocked r then d else d.xferBegin r
       | _ => d.issueFrag id)
    else d.issueFrag id

/-- LINK_READ_RETURN (R288). -/
def Dev.linkReturn (d : Dev) (x : Nat) : Dev :=
  if (d.xc x).st == .run && (d.xc x).ph == .link && !d.xDescHeld x then (d.arb 8 x x 0).xLink x else d

/-- CHAIN_WAIT_REREAD (R290): once, 1 µs after the channel entered CHAIN_WAIT. -/
def Dev.chainReread (d : Dev) (x : Nat) : Dev :=
  if (d.xc x).st == .chainWait && due (d.xc x).waitAt d.dt && !d.xDescHeld x then
    ((d.arb 8 x x 0).modXc x (fun c => { c with waitAt := none })).xLink x
  else d

/-! ### Meanings: raw requests (R125, R126, R152) -/

def execRead (h : ReqHdr) (s : State) : Host.Outcome State Fault Refusal := guardNext (hdrOk h) (fun d => d.admitRaw .read h) s
def execWrite (h : ReqHdr) (s : State) : Host.Outcome State Fault Refusal := guardNext (hdrOk h) (fun d => d.admitRaw .write h) s
def execWriteMask (h : ReqHdr) (s : State) : Host.Outcome State Fault Refusal := guardNext (hdrOk h) (fun d => d.admitRaw .writeMask h) s
def execReadLong (h : ReqHdr) (s : State) : Host.Outcome State Fault Refusal := guardNext (hdrOk h) (fun d => d.admitRaw .readLong h) s
def execAtomAdd (h : ReqHdr) (s : State) : Host.Outcome State Fault Refusal := guardNext (hdrOk h) (fun d => d.admitRaw .atomAdd h) s
def execAtomSwap (h : ReqHdr) (s : State) : Host.Outcome State Fault Refusal := guardNext (hdrOk h) (fun d => d.admitRaw .atomSwap h) s
def execAtomCas (h : ReqHdr) (s : State) : Host.Outcome State Fault Refusal := guardNext (hdrOk h) (fun d => d.admitRaw .atomCas h) s
def execAtomAnd (h : ReqHdr) (s : State) : Host.Outcome State Fault Refusal := guardNext (hdrOk h) (fun d => d.admitRaw .atomAnd h) s
def execAtomOr (h : ReqHdr) (s : State) : Host.Outcome State Fault Refusal := guardNext (hdrOk h) (fun d => d.admitRaw .atomOr h) s
def execAtomXor (h : ReqHdr) (s : State) : Host.Outcome State Fault Refusal := guardNext (hdrOk h) (fun d => d.admitRaw .atomXor h) s

/-! ### Meanings: table requests (R193 to R213) -/

def execEmLookup (h : ReqHdr) (s : State) : Host.Outcome State Fault Refusal := guardNext (hdrOk h) (fun d => d.admitTable .emLookup h) s
def execLpmLookup (h : ReqHdr) (s : State) : Host.Outcome State Fault Refusal := guardNext (hdrOk h) (fun d => d.admitTable .lpmLookup h) s
def execEmInsert (h : ReqHdr) (s : State) : Host.Outcome State Fault Refusal := guardNext (hdrOk h) (fun d => d.admitTable .emInsert h) s
def execEmDelete (h : ReqHdr) (s : State) : Host.Outcome State Fault Refusal := guardNext (hdrOk h) (fun d => d.admitTable .emDelete h) s
def execCount (h : ReqHdr) (s : State) : Host.Outcome State Fault Refusal := guardNext (hdrOk h) (fun d => d.admitTable .count h) s
def execPolice (h : ReqHdr) (s : State) : Host.Outcome State Fault Refusal := guardNext (hdrOk h) (fun d => d.admitTable .police h) s

/-! ### Meanings: CSR, queue and transfer requests, mailbox packets -/

def execCsrRead (h : ReqHdr) (s : State) : Host.Outcome State Fault Refusal := guardNext (hdrOk h) (fun d => d.csrReq .csrRead h) s
def execCsrWrite (h : ReqHdr) (s : State) : Host.Outcome State Fault Refusal := guardNext (hdrOk h) (fun d => d.csrReq .csrWrite h) s
def execEnqueue (h : ReqHdr) (s : State) : Host.Outcome State Fault Refusal := guardNext (hdrOk h) (fun d => d.enqueue h) s
def execDequeue (h : ReqHdr) (s : State) : Host.Outcome State Fault Refusal := guardNext (hdrOk h) (fun d => d.dequeue h) s
def execQstatus (h : ReqHdr) (s : State) : Host.Outcome State Fault Refusal := guardNext (hdrOk h) (fun d => d.qstatus h) s
def execXferClaim (h : ReqHdr) (s : State) : Host.Outcome State Fault Refusal := guardNext (hdrOk h) (fun d => d.xferReq .xferClaim h) s
def execXferStart (h : ReqHdr) (s : State) : Host.Outcome State Fault Refusal := guardNext (hdrOk h) (fun d => d.xferReq .xferStart h) s
def execXferAppend (h : ReqHdr) (s : State) : Host.Outcome State Fault Refusal := guardNext (hdrOk h) (fun d => d.xferReq .xferAppend h) s
def execXferStop (h : ReqHdr) (s : State) : Host.Outcome State Fault Refusal := guardNext (hdrOk h) (fun d => d.xferReq .xferStop h) s
def execXferRelease (h : ReqHdr) (s : State) : Host.Outcome State Fault Refusal := guardNext (hdrOk h) (fun d => d.xferReq .xferRelease h) s
def execMboxCmd (n plen : Nat) (img : List Byte) (s : State) : Host.Outcome State Fault Refusal :=
  guardNext (portOk n) (fun d => d.mboxPacket n plen img) s
def execUnknownOpcodeRequest (opc : Nat) (h : ReqHdr) (s : State) : Host.Outcome State Fault Refusal :=
  guardNext (hdrOk h) (fun d => d.unknownReq opc h) s

/-! ### Meanings: progress -/

def execFragmentIssue (id : Nat) (s : State) : Host.Outcome State Fault Refusal := guardNext true (fun d => d.fragIssue id) s
def execEnqueueLink (q : Nat) (s : State) : Host.Outcome State Fault Refusal := guardNext (queueOk q) (fun d => d.enqLink q) s
def execParkEnd (id : Nat) (s : State) : Host.Outcome State Fault Refusal := guardNext true (fun d => d.parkEnd id) s
def execCellMove (q : Nat) (s : State) : Host.Outcome State Fault Refusal := guardNext (queueOk q) (fun d => d.cellMove q) s
def execTableOperationStart (id : Nat) (s : State) : Host.Outcome State Fault Refusal := guardNext true (fun d => d.tableStart id) s
def execSlalomGate (e len : Nat) (s : State) : Host.Outcome State Fault Refusal := guardNext (engOk e) (fun d => d.gate e len) s
def execStepDataReturn (id : Nat) (s : State) : Host.Outcome State Fault Refusal := guardNext true (fun d => d.stepReturn id) s
def execResultComplete (src : Nat) (s : State) : Host.Outcome State Fault Refusal := guardNext (collOk src) (fun d => d.resultComplete src) s
def execCollectorPass (s : State) : Host.Outcome State Fault Refusal := guardNext true (fun d => d.collectorPass) s
def execDescFetch (x : Nat) (s : State) : Host.Outcome State Fault Refusal := guardNext (xcOk x) (fun d => d.xFetch x) s
def execLinkReadReturn (x : Nat) (s : State) : Host.Outcome State Fault Refusal := guardNext (xcOk x) (fun d => d.linkReturn x) s
def execChainWaitReread (x : Nat) (s : State) : Host.Outcome State Fault Refusal := guardNext (xcOk x) (fun d => d.chainReread x) s
def execDescComplete (x : Nat) (s : State) : Host.Outcome State Fault Refusal := guardNext (xcOk x) (fun d => d.xComplete x) s
def execXferDrainComplete (x : Nat) (s : State) : Host.Outcome State Fault Refusal := guardNext (xcOk x) (fun d => d.xDrained x) s
def execBlockSwitch (s : State) : Host.Outcome State Fault Refusal := guardNext true (fun d => d.blockSwitch) s
def execChannelRetirement (c : Nat) (s : State) : Host.Outcome State Fault Refusal := guardNext (chanOk c) (fun d => d.retire c) s

end Sys2Proof.Machine
end

