-- ==== Sys2Proof/Machine/CmdStart.lean ====
section
/-!
DEFINITION. Starting commands (R306, R320 to R323): the order in which they start, the checks at the start, expiry, limits, and
the watchdog and lockstep of Heartwood (R300).
-/
namespace Sys2Proof.Machine

/-! ### Parameters (R320) -/

def zeroAt (p : List Byte) (o n : Nat) : Bool := allZero (slice p o n)
/-- A field of `w` bytes at offset `o` lies in a range. -/
def fieldIn (p : List Byte) (o w a b : Nat) : Bool := decide (a ≤ leAt p o w) && decide (leAt p o w ≤ b)

/-- Parameters of a table command: the descriptor, and PLEN where the descriptor is of the kind the command needs. -/
def Dev.tableParamOk (d : Dev) (op n : Nat) (p : List Byte) : Bool :=
  let td := leAt p 0 1
  let t := d.td td
  let want := 4 + tdKsize t + (if op = 0x0601 then tdRsize t else 0)
  decide (4 ≤ n) && decide (td < 64) && zeroAt p 1 3 && (!(tdKind t == 1 || (op == 0x0603 && tdKind t == 2)) || n == want)

/-- The parameters of a command of PLEN `n` meet R320. An open staging or update session bounds its writes. -/
def Dev.paramOk (d : Dev) (o op n : Nat) (p : List Byte) : Bool :=
  match op with
  | 0x0103 => n == 4 && fieldIn p 0 1 0 1 && zeroAt p 1 1
  | 0x0105 => n == 2 && decide (leAt p 1 1 ≤ (if leAt p 0 1 = 0x18 then 3 else 0))
  | 0x0106 => n == 2 && leAt p 0 2 == 0xC5E7
  | 0x0201 => n == 4 && fieldIn p 0 1 1 5 && fieldIn p 1 1 0 1 && fieldIn p 2 2 0 10000
  | 0x0301 => n == 8 && fieldIn p 4 4 64 1048576
  | 0x0302 => n == 8 + leAt p 4 2 && fieldIn p 4 2 1 232 && zeroAt p 6 2 &&
      (d.cfg.session.isNone || decide (leAt p 0 4 + leAt p 4 2 ≤ d.cfg.sesLen))
  | 0x0303 | 0x0307 => n == 4
  | 0x0304 => n == 12 && fieldIn p 0 1 0 2 && zeroAt p 1 3 && fieldIn p 8 2 1 232 && zeroAt p 10 2
  | 0x0306 => n == 8 && fieldIn p 4 2 0 3600 && zeroAt p 6 2
  | 0x0403 | 0x0404 => n == 1 && fieldIn p 0 1 0 63
  | 0x0405 | 0x0406 | 0x0501 => n == 1 && fieldIn p 0 1 0 143
  | 0x0502 => n == 6 && fieldIn p 0 1 0 143 && fieldIn p 1 1 0 3 && fieldIn p 2 1 0 3 && zeroAt p 3 1 && fieldIn p 4 2 1 60000 &&
      d.prbsOk (leAt p 0 1) (leAt p 1 1) == leAt p 1 1 && d.prbsOk (leAt p 0 1) (leAt p 2 1) == leAt p 2 1
  | 0x0601 | 0x0602 | 0x0603 => d.tableParamOk op n p
  | 0x0604 => n == 12 && fieldIn p 0 1 0 63 && zeroAt p 1 3 && fieldIn p 8 4 1 1048576
  | 0x0701 | 0x0703 | 0x0704 => n == 4 && fieldIn p 0 4 0 131071
  | 0x0802 => n == 8 && !(64 ≤ o && leAt p 0 8 == 0)
  | 0x0903 => n == 12 && fieldIn p 0 1 1 4 && zeroAt p 1 3 && fieldIn p 8 1 1 7 && zeroAt p 9 3
  | 0x0A01 | 0x0A02 | 0x0B01 | 0x0B03 => n == 1
  | 0x0A03 => n == 4 && fieldIn p 1 1 0 31
  | 0x0A04 => n == 32 && zeroAt p 1 1 && faultDefined (leAt p 0 1)
  | 0x0A05 => n == 1 && fieldIn p 0 1 0 1
  | 0x0B02 => n == 3 && fieldIn p 1 1 0 47 && fieldIn p 2 1 0 1
  | 0x0B04 => n == 4 && fieldIn p 0 4 0 1023
  | 0x0C01 => n == 3 && fieldIn p 0 1 0 31 && fieldIn p 2 1 1 58 && decide (leAt p 1 1 + leAt p 2 1 ≤ 64)
  | 0x0C02 => n == 4 + 4 * leAt p 2 1 && fieldIn p 0 1 0 31 && leAt p 0 1 != 1 && fieldIn p 2 1 1 56 && zeroAt p 3 1 &&
      decide (leAt p 1 1 + leAt p 2 1 ≤ 64)
  | 0x0C03 => n == 3 && fieldIn p 0 1 0 31 && leAt p 0 1 != 1 && fieldIn p 2 1 1 64 && decide (leAt p 1 1 + leAt p 2 1 ≤ 64)
  | 0x0C04 => n == 2 && fieldIn p 0 1 0 31 && leAt p 0 1 != 1 && fieldIn p 1 1 0 3
  | 0x0C05 => n == 104 && fieldIn p 0 1 0 4 && fieldIn p 1 1 0 7 && zeroAt p 2 6
  | 0x0D01 => n == 4 && fieldIn p 0 4 4097 462848
  | 0x0D02 => n == 8 + leAt p 4 2 && fieldIn p 4 2 1 232 && zeroAt p 6 2 &&
      (d.mbox.updOpen.isNone || decide (leAt p 0 4 + leAt p 4 2 ≤ d.mbox.updLen))
  | 0x0D05 => n == 2
  | 0x0E01 => n == 12 && leAt p 0 1 % 4 == 0 && zeroAt p 5 3 && fieldIn p 8 1 1 58 && zeroAt p 9 3
  | 0x0E02 => n == 12 + 4 * leAt p 8 1 && leAt p 0 1 % 4 == 0 && zeroAt p 5 3 && fieldIn p 8 1 1 56 && zeroAt p 9 3
  | 0x0E03 => n == 16 && leAt p 0 1 % 4 == 0 && zeroAt p 5 3
  | _ => n == 0

/-! ### Checks at the start (R321) -/

/-- The owner may send the command (R321, step 2; R329, R347). -/
def Dev.ownerMay (d : Dev) (o op : Nat) (c : CmdInfo) : Bool :=
  bit c.own (ownBit o) && !(op == 0x0307 && o == 65 && d.cfg.st == .pending && d.cfg.owner != 65) &&
    !(op == 0x0D05 && d.mbox.trial && o != 64 && o != d.mbox.actOwner)

/-- The life-cycle state permits the command (R341, R343, R345, R445, R463, R467). -/
def Dev.lcAllows (d : Dev) (op : Nat) (p : List Byte) : Bool :=
  let lc := d.otp.lc
  let r := leAt p 0 1
  if op = 0x0A04 ∨ op = 0x0B04 then lc == .manufacture || lc == .provision || lc == .return
  else if op = 0x0202 ∨ op = 0x0B02 ∨ op = 0x0B03 then lc != .ended
  else if op = 0x0C03 then (lc == .manufacture || lc == .provision) && (r == 1 || decide (32 ≤ r) || burnedIn r lc)
  else if op = 0x0201 then !(lc == .ended && r == 2)
  else true

/-- The first of checks 1 to 5 of R321 that fails. -/
def Dev.startRefusal (d : Dev) (o i : Nat) : Option Nat :=
  let img := (d.pair o i).cmd
  let op := cmdOpcode img
  let p := cmdParams img
  match cmdInfo op with
  | none => some 1
  | some c =>
    if !d.ownerMay o op c then some 8
    else if !bit c.modes (modeCode d.clk.mode) then some 0x0F02
    else if !d.lcAllows op p then some 0x0F03
    else if !d.paramOk o op (cmdPlen img) p then some 0x0F01
    else none

/-! ### Order of starts (R306, R322, R323) -/

/-- A CFG_CONFIRM of the pending generation, stamped before the deadline, is POSTED or RUNNING (R323). -/
def Dev.confirmAhead (d : Dev) : Bool :=
  allPairs.any (fun x => let p := d.pair x.1 x.2
    (p.st == .posted || p.st == .running) && cmdOpcode p.cmd == 0x0307 && decide (p.stamp < d.cfg.deadline) &&
      leAt (cmdParams p.cmd) 0 4 == d.cfg.active.gen)
/-- The same for an FW_CONFIRM of the image on trial. -/
def Dev.fwConfirmAhead (d : Dev) : Bool :=
  allPairs.any (fun x => let p := d.pair x.1 x.2
    (p.st == .posted || p.st == .running) && cmdOpcode p.cmd == 0x0D05 && (match d.mbox.confirmBy with | some t => decide (p.stamp < t) | none => false) &&
      leAt (cmdParams p.cmd) 0 2 == d.mbox.ver)

/-- Firmware starts an evacuation now: in a mode in which XC31 runs, with none under way (R296, R371). -/
def Dev.evacCan (d : Dev) : Bool :=
  d.fwUp && d.evacuating.isNone && (d.clk.mode == .maint || d.clk.mode == .service || d.clk.mode == .drain)
/-- The evacuation of a channel that hardware made DEGRADED is due to start, stamped at that DT. -/
def Dev.evacAhead (d : Dev) (stamp : Nat) : Bool :=
  d.evacCan && (List.range 64).any (fun c => (d.evacOf c).want && (match (d.evacOf c).trig with | some t => decide (t ≤ stamp) | none => false))

/-- Firmware's own rollback, revert or start of evacuation, stamped at its deadline or trigger, goes before an exclusive command of this
stamp. -/
def Dev.ownActAhead (d : Dev) (stamp : Nat) : Bool :=
  d.evacAhead stamp ||
  d.cfg.st == .rollingBack || (d.cfg.st == .pending && decide (d.cfg.deadline ≤ stamp) && !d.confirmAhead) ||
  (d.mbox.trial && (match d.mbox.confirmBy with | some t => decide (t ≤ stamp) | none => false) && !d.fwConfirmAhead)

/-- RUNNING commands. -/
def Dev.running (d : Dev) : List (Nat × Nat) := allPairs.filter (fun x => (d.pair x.1 x.2).st == .running)
/-- Another exclusive command runs. -/
def Dev.exclRunning (d : Dev) : Bool := d.running.any (fun x => cmdExclusive (cmdOpcode (d.pair x.1 x.2).cmd))

/-- FENCE: every VC0 and VC2 request of the owner stamped before the command has completed. -/
def Dev.cmdFenced (d : Dev) (o : Nat) (p : Pair) : Bool :=
  cmdFence p.cmd && decide (o < 64) &&
    (d.txn.reqs.any (fun r => r.ptn == o && decide (r.ord < p.ord) && r.st != .done) || d.qm.opens.any (fun r => r.ptn == o && decide (r.ord < p.ord)))
/-- SERIAL: every earlier command of the owner has completed. -/
def Dev.cmdSerialHeld (d : Dev) (o : Nat) (p : Pair) : Bool :=
  cmdSerial p.cmd && (List.range 8).any (fun j => let q := d.pair o j
    (q.st == .posted || q.st == .running) && decide (q.ord < p.ord))
/-- A transition holds back the commands that its target mode does not permit (R322). -/
def Dev.moveHolds (d : Dev) (op : Nat) : Bool :=
  match d.clk.move with
  | some m => (cmdInfo op).isSome && !cmdInMode op m.tgt
  | none => false

/-- Nothing of its own holds a POSTED command back. -/
def Dev.cmdReady (d : Dev) (o i : Nat) : Bool :=
  let p := d.pair o i
  let op := cmdOpcode p.cmd
  p.st == .posted && !d.cmdFenced o p && !d.cmdSerialHeld o p && !d.moveHolds op &&
    !(cmdExclusive op && (d.exclRunning || d.ownActAhead p.stamp))

/-- An earlier command that may start has yet to start. -/
def Dev.earlierCmd (d : Dev) (o i : Nat) : Bool :=
  let n := (d.pair o i).ord
  allPairs.any (fun x => decide ((d.pair x.1 x.2).ord < n) && d.cmdReady x.1 x.2 && (x.1 == 65 || d.mbox.fwState != 0))

/-- A POSTED command has passed EXPIRE_MS (R305). -/
def Dev.cmdExpired (d : Dev) (o i : Nat) : Bool :=
  let p := d.pair o i
  p.st == .posted && cmdExpire p.cmd != 0 && decide (p.stamp + 1000000 * cmdExpire p.cmd ≤ d.dt)

/-- Firmware that was restarting runs again, and services the watchdog (R300). -/
def Dev.fwService (d : Dev) : Dev :=
  d.modMbox (fun m =>
    if m.fwState = 0 ∨ m.fwState = 4 then m
    else { m with fwState := if m.fwState = 3 then 1 else m.fwState, wdog := some (d.dt + 1000000 * d.cfgFld 0 bMbox 0x10 0 10) })

/-- Firmware, or the ROM loader for mailbox 65, can start a command of an owner (R306, R309, R315, R380, R384). -/
def Dev.canStart (d : Dev) (o : Nat) : Bool :=
  d.clk.refOk && d.mbox.act == .none &&
    (if d.mbox.fwState = 0 then o == 65 else (d.mbox.fwState == 1 || d.mbox.fwState == 3) && !d.clk.hwStopped)

/-- A command is answered EXPIRED (R305). -/
def Dev.cmdExpireNow (d : Dev) (o i : Nat) : Dev := if d.cmdExpired o i then d.respond o i 4 [] else d

/-- COMMAND_START (R306, R321): the command becomes RUNNING, or is answered by the first check that fails. -/
def Dev.cmdStart (d : Dev) (o i : Nat) : Dev :=
  if (d.pair o i).st != .posted then d
  else if d.cmdExpired o i then d.respond o i 4 []
  else if !d.canStart o || !d.cmdReady o i || d.earlierCmd o i || decide (16 ≤ d.running.length) then d
  else
    let d1 := (d.fwService).modPair o i (fun p => { p with st := .running, start := d.dt, ovr := false })
    match d1.startRefusal o i with
    | some st => d1.fin o i st []
    | none => d1

/-- COMMAND_LIMIT_EXCEEDED (R306, R317): FS164 names the owner and the opcode; the command goes on. -/
def Dev.cmdOver (d : Dev) (o i : Nat) : Dev :=
  let p := d.pair o i
  if p.st == .running && !p.ovr && decide (p.start + d.cmdLimit p.cmd < d.dt) then
    (d.modPair o i (fun p => { p with ovr := true })).raise0 164 { kind := 13, inst := o, a := cmdOpcode p.cmd }
  else d

/-- WATCHDOG_EXPIRY (R300): WDOG_MS have passed without a service; it is suspended during an activation (R315). -/
def Dev.watchdog (d : Dev) : Dev :=
  if d.mbox.act == .none && due d.mbox.wdog d.dt then (d.hwReset).raise0 161 {} else d

def execCommandStart (o i : Nat) (s : State) : Host.Outcome State Fault Refusal := guardNext (slotOk o i) (fun d => d.cmdStart o i) s
def execCommandExpire (o i : Nat) (s : State) : Host.Outcome State Fault Refusal := guardNext (slotOk o i) (fun d => d.cmdExpireNow o i) s
def execCommandLimitExceeded (o i : Nat) (s : State) : Host.Outcome State Fault Refusal := guardNext (slotOk o i) (fun d => d.cmdOver o i) s
def execWatchdogExpiry (s : State) : Host.Outcome State Fault Refusal := guardNext true (fun d => d.watchdog) s
/-- LOCKSTEP_MISMATCH (R300, R428): both cores stop. -/
def execLockstepMismatch (s : State) : Host.Outcome State Fault Refusal := guardNext true (fun d => d.lockstepStop) s
/-- A FAULT_CLEAR of a source, stamped before its escalation timer ends, is POSTED or RUNNING (R341). -/
def Dev.clearAhead (d : Dev) (n : Nat) : Bool :=
  match (d.src n).esc with
  | none => false
  | some t => allPairs.any (fun x => let p := d.pair x.1 x.2
      (p.st == .posted || p.st == .running) && cmdOpcode p.cmd == 0x0A02 && leAt (cmdParams p.cmd) 0 1 == n && decide (p.stamp < t))
/-- ESCALATION_EXPIRY (R416), which a clear stamped before it stops (R341). -/
def execEscalationExpiry (n : Nat) (s : State) : Host.Outcome State Fault Refusal :=
  guardNext (sourceOk n) (fun d => if d.clearAhead n then d else d.escalate n) s
def execErrPulseEnd (s : State) : Host.Outcome State Fault Refusal := guardNext true (fun d => d.errPulseEnd) s

end Sys2Proof.Machine
end

