-- ==== Sys2Proof/Machine/Cmds.lean ====
section
/-!
DEFINITION. The firmware commands of the system, partner, port and lane groups (R324, R325, R331 to R333).
-/
namespace Sys2Proof.Machine

/-- Run a command's effect where its pair is RUNNING with its opcode and firmware executes. -/
def Dev.cmd (d : Dev) (o i op : Nat) (f : Dev → Dev) : Dev := if d.runs o i op then f d else d

/-! ### System -/

/-- Firmware version in force: 0 in ROM (R324). -/
def Dev.fwVer (d : Dev) : Nat := if d.mbox.fwState = 0 then 0 else d.mbox.ver

def Dev.sysInfo (d : Dev) (o : Nat) : List Byte :=
  leBytes 2 0x6420 ++ [byte (d.otp.word2 % 256), byte (modeCode d.clk.mode)] ++ leBytes 2 d.fwVer ++ leBytes 2 0x0100 ++
    leBytes 8 d.otp.chipid ++ [byte (lcCode d.otp.lc), byte o] ++ List.replicate 6 0 ++ leBytes 8 d.dt

/-- Partners attached. -/
def Dev.attached (d : Dev) : List Nat := (List.range 64).filter (fun k => (d.ptn k).st == .attached)
/-- Channels DEGRADED, in self-refresh or not. -/
def Dev.degradedCount (d : Dev) : Nat := ((List.range 64).filter (fun c => !d.retired c && d.chQuar c)).length

/-- Conditions of R17 that do not hold: bit 0 spare port, bit 1 reserve, bit 2 thermal envelope. -/
def Dev.availMissing (d : Dev) : Nat :=
  b2n (d.attached.any (fun k => (d.ptn k).noSpare)) + 2 * b2n (!d.reserveOk) + 4 * b2n (!d.inEnvelope)

def Dev.sysStatus (d : Dev) : List Byte :=
  [byte (modeCode d.clk.mode), byte d.pin.bootHold, byte d.availMissing, byte d.attached.length, byte d.degradedCount,
    byte ((List.range 64).filter d.retired).length, byte d.therm.hottest, 0] ++ leBytes 2 (ofSigned 16 d.therm.hotT) ++ [0, 0] ++
    leBytes 4 (d.evacFree / 256) ++ leBytes 4 d.qm.cellTotal

def Dev.vcoreResult (d : Dev) : List Byte := leBytes 2 d.pin.vreq ++ leBytes 2 d.pin.vforce ++ List.replicate 4 0 ++ leBytes 8 d.pin.vreqDt

/-- SYS_VCORE with OP 1 (R35, R325). -/
def Dev.vcoreReport (d : Dev) (o i : Nat) : Dev :=
  let mv := leAt (d.par o i) 2 2
  if mv ≠ d.pin.vreq then d.fin o i 0x0101 []
  else
    let d1 := (d.modPin (fun p => { p with vforce := mv, vwork := mv })).orCsr 0 bGlobal 0x30 2
    d1.fin o i 0 d1.vcoreResult

/-- The block reset of every instance of a block (R325, R482); a block without one has none. That of a SLALOM engine
takes effect between steps, and every operation resumes with its state intact (R198). -/
def Dev.blockReset (d : Dev) (blk : Nat) : Option Dev :=
  match blk with
  | 0x08 => some ((List.range 18).foldl (fun (a : Dev) n => a.instReset 0 n) d).settle
  | 0x09 => some (allPorts.foldl (fun (a : Dev) n => a.resetPort n) d).settle
  | 0x18 => some d
  | 0x20 => some ((List.range 64).foldl (fun (a : Dev) c => a.instReset 1 c) d)
  | 0x30 => some ((List.range 32).foldl (fun (a : Dev) x => a.resetXc x) d)
  | _ => none

def Dev.sysBrst (d : Dev) (o i : Nat) : Dev :=
  match d.blockReset (leAt (d.par o i) 0 1) with
  | some d1 => d1.fin o i 0 []
  | none => d.fin o i 0x0F04 []

/-- SYS_CRST: the response is written, and CRST follows 100 µs after DONE_DT. -/
def Dev.sysCrst (d : Dev) (o i : Nat) : Dev := (d.fin o i 0 []).modClk (fun c => { c with crstAt := some (d.dt + 100000) })

/-! ### Partners and ports -/

def Dev.ptnMask (d : Dev) (s : PartnerSt) : Nat := maskOf ((List.range 64).filter (fun k => (d.ptn k).st == s))
def Dev.partnerList (d : Dev) : List Byte := leBytes 8 (d.ptnMask .attached) ++ leBytes 8 (d.ptnMask .leaving) ++ leBytes 8 (d.ptnMask .reclaim)

/-- A partner enters LEAVING (R110, R111): its parked dequeues are answered EMPTY, its transfer channels stop, and its
POSTED commands are answered DEPARTING. -/
def Dev.leave (d : Dev) (k : Nat) : Dev :=
  if (d.ptn k).st != .attached then d
  else
    let d1 := d.modPtn k (fun p => { p with
      st := .leaving, timer := some (d.dt + 1000000 * d.cfgFld 0 bPartner 0x100 0 16) })
    let d2 := (d1.qm.parks.filter (fun p => p.ptn == k)).foldl (fun (a : Dev) p => a.deqEmpty p.id) d1
    (d2.xStopAll 4 (fun x => (d2.xc x).owner == some k)).answerPosted k 7

/-- PARTNER_EVICT: answered once the partner has left RECLAIM. -/
def Dev.evict (d : Dev) (o i : Nat) : Dev :=
  let k := leAt (d.par o i) 0 1
  if (d.pair o i).wait then (if (d.ptn k).st == .reclaim then d else d.fin o i 0 [])
  else if (d.ptn k).st == .free then d.fin o i 0x0F04 []
  else
    let d1 := if (d.ptn k).st == .reclaim then d else (d.depart k true none).settle
    d1.modPair o i (fun p => { p with wait := true })

/-- Every eviction that waits is looked at again. -/
def Dev.evictAll (d : Dev) : Dev :=
  (List.range 8).foldl (fun (a : Dev) i => if a.runs 64 i 0x0403 && (a.pair 64 i).wait then a.evict 64 i else a) d

def Dev.partnerInfo (d : Dev) (k : Nat) : List Byte :=
  [byte (partnerStCode (d.ptn k).st), byte (d.ptnGen k), byte (d.portsOf k).length, byte (b2n (d.pin_ k != 0))] ++
    leBytes 2 (d.txn.tags.filter (fun t => t / 4096 == k)).length ++ leBytes 2 (d.qm.parks.filter (fun p => p.ptn == k)).length ++
    leBytes 8 (d.ptn k).chipid ++ d.portBitmap k

def Dev.portInfo (d : Dev) (n : Nat) : List Byte :=
  let p := d.port n
  [byte (portStCode p.st), byte p.gen, byte (d.portWidth n), byte (p.partner.getD 0xFF)] ++ leBytes 2 p.txMask ++ leBytes 2 p.rxMask ++
    [byte (p.stby.getD 0xFF), byte p.failCause]

/-- RETRAIN on every lane of a port (R89, R332). -/
def Dev.portRetrain (d : Dev) (n : Nat) : Dev :=
  let s := (d.port n).st
  if s == .up || s == .restripe then ((d.portLanes n).foldl (fun (a : Dev) l => (a.laneRetrain l).gapsNow l) (d.portBond n false)).settle
  else ((d.portLanes n).foldl (fun (a : Dev) l => a.laneDo l (fun x => x.laneRetrain l)) d).settle

/-! ### Lanes -/

def Dev.laneInfo (d : Dev) (l : Nat) : List Byte :=
  let x := d.lane l
  [byte (laneStCode x.st), byte (d.clauseOf (l / 8)), byte x.failCause, byte (b2n x.rxpolInv + 2 * b2n (d.fecShown l) + 4 * b2n (d.laneReversed l)),
    byte (ofSigned 8 x.taps.pre2), byte (ofSigned 8 x.taps.pre1), byte (ofSigned 8 x.taps.main), byte (ofSigned 8 x.taps.post1)] ++
    leBytes 8 (d.counter l bLane 0x40) ++ leBytes 8 (d.counter l bLane 0x48) ++ leBytes 8 (d.counter l bLane 0x50)

/-- Patterns of a lane's generator and checker in LANE_CTRL. -/
def Dev.prbsSelect (d : Dev) (l g c : Nat) : Dev :=
  (d.setCsr l bLane 0x20 (word (clearBits (d.laneCtrl l).toNat 0x7700 + 256 * g + 4096 * c))).prbsSync l

/-- LANE_PRBS begins (R65, R333). -/
def Dev.lanePrbs (d : Dev) (o i : Nat) : Dev :=
  let p := d.par o i
  let l := leAt p 0 1
  if (d.pair o i).wait then d
  else if !d.prbsMay l || (d.lane l).job.isSome then d.fin o i 0x0501 []
  else
    let d1 := (d.prbsSelect l (leAt p 1 1) (leAt p 2 1)).modLane l (fun x => { x with
      job := some { pair := 8 * o + i, by_ := d.dt + 1000000 * leAt p 4 2, err0 := d.counter l bLane 0x58 } })
    d1.modPair o i (fun p => { p with wait := true })

/-- LANE_PRBS_END: the duration has passed; the generator and the checker stop, and the command is answered. -/
def Dev.lanePrbsEnd (d : Dev) (l : Nat) : Dev :=
  match (d.lane l).job with
  | none => d
  | some j =>
    if !decide (j.by_ ≤ d.dt) then d
    else
      let o := j.pair / 8
      let i := j.pair % 8
      let d1 := d.modLane l (fun x => { x with job := none })
      if d.runs o i 0x0502 && leAt (d.par o i) 0 1 == l then
        (d1.prbsSelect l 0 0).fin o i 0 ([byte (b2n ((d.lane l).prbsLock && !j.lost))] ++ List.replicate 7 0 ++ leBytes 8 j.bits ++
          leBytes 8 (d.counter l bLane 0x58 - j.err0))
      else d1

/-! ### Meanings -/

def execSysInfo (o i : Nat) (s : State) : Host.Outcome State Fault Refusal :=
  guardNext (slotOk o i) (fun d => d.cmd o i 0x0101 (fun d => d.fin o i 0 (d.sysInfo o))) s
def execSysStatus (o i : Nat) (s : State) : Host.Outcome State Fault Refusal :=
  guardNext (slotOk o i) (fun d => d.cmd o i 0x0102 (fun d => d.fin o i 0 d.sysStatus)) s
/-- SYS_VCORE with OP 0. -/
def execSysVcoreRead (o i : Nat) (s : State) : Host.Outcome State Fault Refusal :=
  guardNext (slotOk o i) (fun d => d.cmd o i 0x0103 (fun d => if leAt (d.par o i) 0 1 = 0 then d.fin o i 0 d.vcoreResult else d)) s
def execSysVcoreReport (o i : Nat) (s : State) : Host.Outcome State Fault Refusal :=
  guardNext (slotOk o i) (fun d => d.cmd o i 0x0103 (fun d => if leAt (d.par o i) 0 1 = 1 then d.vcoreReport o i else d)) s
def execSysBrst (o i : Nat) (s : State) : Host.Outcome State Fault Refusal := guardNext (slotOk o i) (fun d => d.cmd o i 0x0105 (fun d => d.sysBrst o i)) s
def execSysCrst (o i : Nat) (s : State) : Host.Outcome State Fault Refusal := guardNext (slotOk o i) (fun d => d.cmd o i 0x0106 (fun d => d.sysCrst o i)) s
def execPartnerList (o i : Nat) (s : State) : Host.Outcome State Fault Refusal :=
  guardNext (slotOk o i) (fun d => d.cmd o i 0x0401 (fun d => d.fin o i 0 d.partnerList)) s
def execPartnerLeave (o i : Nat) (s : State) : Host.Outcome State Fault Refusal :=
  guardNext (slotOk o i) (fun d => d.cmd o i 0x0402 (fun d => (d.leave o).fin o i 0 [])) s
def execPartnerEvict (o i : Nat) (s : State) : Host.Outcome State Fault Refusal :=
  guardNext (slotOk o i) (fun d => d.cmd o i 0x0403 (fun d => d.evict o i)) s
/-- RECLAIM_COMPLETE (R113): a failing check takes a snapshot; evictions that waited are answered. -/
def execReclaimComplete (k : Nat) (s : State) : Host.Outcome State Fault Refusal :=
  guardNext (partnerOk k) (fun d => ((d.snapOnCensus (d.reclaimDone k)).settle).evictAll) s
def execPartnerInfo (o i : Nat) (s : State) : Host.Outcome State Fault Refusal :=
  guardNext (slotOk o i) (fun d => d.cmd o i 0x0404 (fun d => d.fin o i 0 (d.partnerInfo (leAt (d.par o i) 0 1)))) s
def execPortInfo (o i : Nat) (s : State) : Host.Outcome State Fault Refusal :=
  guardNext (slotOk o i) (fun d => d.cmd o i 0x0405 (fun d =>
    let n := leAt (d.par o i) 0 1
    if d.portWidth n = 0 then d.fin o i 0x0F04 [] else d.fin o i 0 (d.portInfo n))) s
def execPortRetrain (o i : Nat) (s : State) : Host.Outcome State Fault Refusal :=
  guardNext (slotOk o i) (fun d => d.cmd o i 0x0406 (fun d =>
    let n := leAt (d.par o i) 0 1
    if d.portWidth n = 0 then d.fin o i 0x0F04 [] else (d.portRetrain n).fin o i 0 [])) s
def execLaneInfo (o i : Nat) (s : State) : Host.Outcome State Fault Refusal :=
  guardNext (slotOk o i) (fun d => d.cmd o i 0x0501 (fun d => d.fin o i 0 (d.laneInfo (leAt (d.par o i) 0 1)))) s
def execLanePrbs (o i : Nat) (s : State) : Host.Outcome State Fault Refusal := guardNext (slotOk o i) (fun d => d.cmd o i 0x0502 (fun d => d.lanePrbs o i)) s
def execLanePrbsEnd (l : Nat) (s : State) : Host.Outcome State Fault Refusal := guardNext (laneOk l) (fun d => d.lanePrbsEnd l) s

end Sys2Proof.Machine
end

