-- ==== Sys2Proof/Machine/Cmds2.lean ====
section
/-!
DEFINITION. The firmware commands of the table, queue, regulation, telemetry and fault groups, of the CSR group, and the
queries of the repair group (R334 to R343, R348, R349).
-/
namespace Sys2Proof.Machine

/-! ### Tables (R334, R335) -/

/-- An engine takes a table command from firmware and stamps it there (R335): the operation waits for a context of its home channel as any
other, its accesses are firmware's own, and it answers to no port. -/
def Dev.tableTake (d : Dev) (o i : Nat) (opc : Opc) : Dev :=
  let p := d.par o i
  let t := d.td (leAt p 0 1)
  let n := 8 * o + i
  let id := d.txn.nextId
  let r : Req := { id := id, ord := d.txn.nextOrd, opc := opc, opcRaw := opc.code, ptn := 128, port := 256 + n, vc := 4, gen := 3, stamp := d.dt
                   addr := leAt p 0 1, data := (p.drop 4).take (tdKsize t + (if opc == .emInsert then tdRsize t else 0)), td := t
                   frags := [{}], node := tdBase t, fw := some n }
  (d.modTxn (fun x => { x with
    nextId := x.nextId + 1, nextOrd := x.nextOrd + 1, reqs := x.reqs ++ [{ r with home := d.homeOf r }] })).modPair o i (fun x => { x with
    wait := true, eng := none, work := [id] })

/-- TABLE_INSERT, TABLE_DELETE and TABLE_LOOKUP (R334, R335): refused at once, or taken by an engine; the command is answered once the engine's
completion has been delivered. -/
def Dev.tableCmd (d : Dev) (op o i : Nat) : Dev :=
  let t := d.td (leAt (d.par o i) 0 1)
  let x := d.pair o i
  let lpm := op == 0x0603 && tdKind t == 2
  if x.wait then (match x.eng with | some (st, res) => d.fin o i st res | none => d)
  else if tdKind t != 1 && !lpm then d.fin o i 0x0602 []
  else if op != 0x0603 && tdRo t then d.fin o i 0x0603 []
  else d.tableTake o i (if lpm then .lpmLookup else if op = 0x0601 then .emInsert else if op = 0x0602 then .emDelete else .emLookup)

/-- Figures of a scan in progress: the next bucket, and the VALID entries, full, empty and uncorrectable buckets met. -/
def Pair.scanAt (p : Pair) (n : Nat) : Nat := p.work.getD n 0

/-- The background slots that the DRAM units of a bucket need are free, and nothing of an earlier stamp is due to them. -/
def Dev.bucketReady (d : Dev) (us : List Nat) : Bool :=
  us.all (fun u => !d.earlier d.txn.nextOrd u && (inSram (64 * u) ||
    (let q := d.phys (64 * u); d.bgSlot (placeCh q) (bankOf (q % 2 ^ 30)))))

/-- Read one bucket of a scan, indivisibly (R335): its DRAM accesses are firmware's own, each with its completion of source 100 (R215). -/
def Dev.scanBucket (d : Dev) (o i : Nat) (t : List Byte) (b : Nat) : Dev :=
  let a := tdBase t + 4 * emEntry t * b
  let us := d.unitsOf a (4 * emEntry t)
  let r := us.foldl (fun (acc : List Byte × Bool × Dev) u =>
    let d0 := if inSram (64 * u) then acc.2.2
      else (acc.2.2.bgAccess (d.phys (64 * u)) 1 false).modTxn (fun x => { x with comps := x.comps ++ [{ src := 100, ref := .own (8 * o + i) }] })
    let (bs, bad, d1) := d0.readLogical (64 * u) 4 none
    (acc.1 ++ bs, acc.2.1 || bad, d1)) ([], false, d)
  let v := ((bucketEntries t a (slice r.1 (a % 64) (4 * emEntry t))).filter (fun x => bit (leAt x.2 0 1) 0)).length
  r.2.2.modPair o i (fun x => { x with wait := true, work :=
    if r.2.1 then [x.scanAt 0 + 1, x.scanAt 1, x.scanAt 2, x.scanAt 3, x.scanAt 4 + 1]
    else [x.scanAt 0 + 1, x.scanAt 1 + v, x.scanAt 2 + b2n (v == 4), x.scanAt 3 + b2n (v == 0), x.scanAt 4] })

/-- TABLE_SCAN (R334, R335): one bucket at a time, in ascending order, each once the accesses of the one before have been delivered. -/
def Dev.tableScan (d : Dev) (o i : Nat) : Dev :=
  let p := d.par o i
  let t := d.td (leAt p 0 1)
  let first := leAt p 4 4
  let x := d.pair o i
  if !x.wait && (tdKind t != 1 || decide (tdCount t < first + leAt p 8 4)) then d.fin o i 0x0602 []
  else if d.txn.comps.any (fun c => c.ref == .own (8 * o + i)) then d
  else if leAt p 8 4 ≤ x.scanAt 0 then
    d.fin o i 0 (leBytes 4 (x.scanAt 1) ++ leBytes 4 (x.scanAt 2) ++ leBytes 4 (x.scanAt 3) ++ leBytes 4 (x.scanAt 4))
  else
    let b := first + x.scanAt 0
    if d.bucketReady (d.unitsOf (tdBase t + 4 * emEntry t * b) (4 * emEntry t)) then d.scanBucket o i t b else d

def execTableInsert (o i : Nat) (s : State) : Host.Outcome State Fault Refusal :=
  guardNext (slotOk o i) (fun d => d.cmd o i 0x0601 (fun d => d.tableCmd 0x0601 o i)) s
def execTableDelete (o i : Nat) (s : State) : Host.Outcome State Fault Refusal :=
  guardNext (slotOk o i) (fun d => d.cmd o i 0x0602 (fun d => d.tableCmd 0x0602 o i)) s
def execTableLookup (o i : Nat) (s : State) : Host.Outcome State Fault Refusal :=
  guardNext (slotOk o i) (fun d => d.cmd o i 0x0603 (fun d => d.tableCmd 0x0603 o i)) s
def execTableScan (o i : Nat) (s : State) : Host.Outcome State Fault Refusal :=
  guardNext (slotOk o i) (fun d => d.cmd o i 0x0604 (fun d => d.tableScan o i)) s

/-! ### Queues (R336, R337) -/

/-- The queue order holds a queue command back: a request of the queue of an earlier place has yet to take effect, or an
earlier queue command; a flush waits for the links of earlier enqueues too (R184). -/
def Dev.queueHolds (d : Dev) (o i : Nat) (flush : Bool) : Bool :=
  let q := leAt (d.par o i) 0 4
  let n := (d.pair o i).ord
  d.queueBlocked { ord := n, addr := q } || (flush && d.qm.opens.any (fun e => e.q == q && decide (e.ord < n)))

def Dev.queueFlush (d0 : Dev) (o i : Nat) : Dev :=
  let q := leAt (d0.par o i) 0 4
  if d0.queueHolds o i true then d0
  else
    let d := d0.qCheck q
    if (d.queue q).frozen then d.fin o i 0x0702 []
    else
      let r := d.flushQueue q
      r.1.fin o i 0 (leBytes 4 r.2 ++ leBytes 4 (d.queue q).pkts)

/-- QUEUE_RECOVER (R188): a failed count takes a census snapshot. -/
def Dev.queueRecover (d : Dev) (o i : Nat) : Dev :=
  match d.recoverQueues with
  | (some (cells, units, qs), d1) => d1.fin o i 0 (leBytes 4 qs ++ leBytes 4 cells ++ leBytes 4 (4 * units))
  | (none, d1) => (d.snapOnCensus d1).fin o i 0x0701 []

def Dev.queueInfo (d0 : Dev) (o i : Nat) : Dev :=
  let q := leAt (d0.par o i) 0 4
  if d0.queueHolds o i false then d0 else let d := d0.qCheck q; d.fin o i 0 (d.qRecord q)

def Dev.queueClrOvr (d : Dev) (o i : Nat) : Dev :=
  let q := leAt (d.par o i) 0 4
  if d.queueHolds o i false then d
  else (d.modQueue q (fun y => { y with overrun := false })).fin o i 0 [byte (b2n (d.queue q).overrun)]

def execQueueFlush (o i : Nat) (s : State) : Host.Outcome State Fault Refusal := guardNext (slotOk o i) (fun d => d.cmd o i 0x0701 (fun d => d.queueFlush o i)) s
def execQueueRecover (o i : Nat) (s : State) : Host.Outcome State Fault Refusal := guardNext (slotOk o i) (fun d => d.cmd o i 0x0702 (fun d => d.queueRecover o i)) s
def execQueueInfo (o i : Nat) (s : State) : Host.Outcome State Fault Refusal := guardNext (slotOk o i) (fun d => d.cmd o i 0x0703 (fun d => d.queueInfo o i)) s
def execQueueClrOvr (o i : Nat) (s : State) : Host.Outcome State Fault Refusal := guardNext (slotOk o i) (fun d => d.cmd o i 0x0704 (fun d => d.queueClrOvr o i)) s

/-! ### Regulation (R330, R338) -/

/-- The admission test of R270 on an image, R271 with it: passed, and the result of R330. -/
def Dev.admission (d : Dev) (img : List Byte) : Bool × List Byte :=
  let share := imgShare img
  let (gmin, bind, n) := d.capacity share
  let es := imgRsvs img n
  let old := imgRsvs d.image n
  let sum := (es.map (·.b)).sum
  let eased := decide (share ≤ imgShare d.image) &&
    es.all (fun e => old.any (fun x => x.chipid == e.chipid && x.tc == e.tc && decide (e.rate ≤ x.rate)))
  let pass := decide (sum ≤ gmin) || eased
  (pass, leBytes 4 (if pass then 0 else sum - gmin) ++ leBytes 2 gmin ++ [byte bind, byte n, byte (d.capCauses share)] ++ List.replicate 3 0)

def Dev.regCapacity (d : Dev) : List Byte :=
  let r := d.reg
  leBytes 2 r.gmin ++ [byte r.n, byte r.bind, byte r.causes, 0, 0, 0] ++ leBytes 4 (r.rsv.map (·.b)).sum ++ leBytes 4 (r.rsv.map (·.bNow)).sum ++
    ((List.range 8).map (fun c => leBytes 4 (tabGet (fun _ => 65536) r.kScale c))).flatten

def Dev.regBudgets (d : Dev) (o i : Nat) : Dev :=
  let p := leAt (d.par o i) 0 8
  let c := if p = 0 then (d.ptn o).chipid else p
  if d.reg.rsv.any (fun e => e.chipid == c) then d.fin o i 0 (d.rescaleBody c) else d.fin o i 0x0F04 []

def Dev.regTry (d : Dev) (o i : Nat) : Dev :=
  if !d.cfg.checked then d.fin o i 0x030C []
  else let r := d.admission d.cfg.staged.bytes; d.fin o i (if r.1 then 0 else 0x0305) r.2

def execRegCapacity (o i : Nat) (s : State) : Host.Outcome State Fault Refusal :=
  guardNext (slotOk o i) (fun d => d.cmd o i 0x0801 (fun d => d.fin o i 0 d.regCapacity)) s
def execRegBudgets (o i : Nat) (s : State) : Host.Outcome State Fault Refusal := guardNext (slotOk o i) (fun d => d.cmd o i 0x0802 (fun d => d.regBudgets o i)) s
def execRegTry (o i : Nat) (s : State) : Host.Outcome State Fault Refusal := guardNext (slotOk o i) (fun d => d.cmd o i 0x0803 (fun d => d.regTry o i)) s

/-! ### Telemetry (R339, R484, R485) -/

/-- One byte of TELEM_TEMPS: the reading in whole °C, rounded down (DEDUCED), plus 40. -/
def Dev.tempByte (d : Dev) (n : Nat) : Byte :=
  let x := d.sensor n
  if x.broken then 0xFF
  else if (d.layer (sensorLayer n)).suspect then 0xFE
  else byte (min 0xFD (x.reading / 16 + 40).toNat)

/-- A record as TELEM_READ returns it: an uncorrectable one has KIND 0 and every other byte zero. -/
def TeleRec.out (r : TeleRec) (k : Nat) : List Byte :=
  if r.bad then List.replicate 32 0 else leBytes 4 r.index ++ [byte k, 0, 0, 0] ++ leBytes 8 r.dt ++ padTo 16 r.bytes

def Dev.telemRead (d : Dev) (o i : Nat) : Dev :=
  let p := d.par o i
  let k := leAt p 0 1
  let n := d.teleNext k
  let a := max (leAt p 4 4) (n - ringSize k)
  if n ≤ a then d.fin o i 0x0901 []
  else
    let rs := (List.range (min (leAt p 8 1) (n - a))).map (fun j => tabGet (fun _ => ({} : TeleRec)) d.telem.ring (65536 * k + (a + j) % ringSize k))
    let d1 := if rs.any (·.bad) then d.orCsr 0 bTelem 0x50 1 else d
    d1.fin o i 0 (rs.map (fun r => r.out k)).flatten

def execTelemSnap (o i : Nat) (s : State) : Host.Outcome State Fault Refusal :=
  guardNext (slotOk o i) (fun d => d.cmd o i 0x0901 (fun d => (d.snapshot o).fin o i 0 (leBytes 8 d.dt))) s
def execTelemTemps (o i : Nat) (s : State) : Host.Outcome State Fault Refusal :=
  guardNext (slotOk o i) (fun d => d.cmd o i 0x0902 (fun d => d.fin o i 0 (leBytes 8 d.dt ++ (List.range 160).map d.tempByte))) s
def execTelemRead (o i : Nat) (s : State) : Host.Outcome State Fault Refusal := guardNext (slotOk o i) (fun d => d.cmd o i 0x0903 (fun d => d.telemRead o i)) s

/-! ### Faults (R340, R341) -/

def Dev.faultInfo (d : Dev) (n : Nat) : List Byte :=
  let s := d.src n
  [byte (faultClass n), byte (d.reactOf n)] ++ leBytes 2 (d.escMs n) ++ leBytes 4 s.raises ++ leBytes 8 s.lastDt ++ [byte (b2n s.esc.isSome), 0] ++ s.detail.bytes

/-- FAULT_CLEAR: one stamped at or after the end of the escalation timer finds the escalation made. -/
def Dev.faultClearCmd (d : Dev) (o i : Nat) : Dev :=
  let n := leAt (d.par o i) 0 1
  let late := match (d.src n).esc with
    | some t => decide (t ≤ (d.pair o i).stamp)
    | none => false
  let r := (if late then d.escalate n else d).clearSource n
  r.1.fin o i 0 [byte (b2n (r.2 && !late))]

/-- A detail written out in 30 bytes. -/
def detailOf (b : List Byte) : Detail :=
  { kind := leAt b 0 1, step := leAt b 1 1 % 4, injected := bit (leAt b 1 1) 2, inst := leAt b 2 4, wide := leAt b 8 8
    a := leAt b 16 4, b := leAt b 20 4, c := leAt b 24 4, d := leAt b 28 2 }

def execFaultRead (o i : Nat) (s : State) : Host.Outcome State Fault Refusal :=
  guardNext (slotOk o i) (fun d => d.cmd o i 0x0A01 (fun d => d.fin o i 0 (d.faultInfo (leAt (d.par o i) 0 1)))) s
def execFaultClear (o i : Nat) (s : State) : Host.Outcome State Fault Refusal := guardNext (slotOk o i) (fun d => d.cmd o i 0x0A02 (fun d => d.faultClearCmd o i)) s
def execFaultReact (o i : Nat) (s : State) : Host.Outcome State Fault Refusal :=
  guardNext (slotOk o i) (fun d => d.cmd o i 0x0A03 (fun d =>
    let p := d.par o i
    let r := d.reactSet (leAt p 0 1) (leAt p 1 1) (leAt p 2 2)
    r.1.fin o i (if r.2 then 0 else 0x0A01) [])) s
def execFaultRaise (o i : Nat) (s : State) : Host.Outcome State Fault Refusal :=
  guardNext (slotOk o i) (fun d => d.cmd o i 0x0A04 (fun d =>
    let p := d.par o i
    (d.raise0 (leAt p 0 1) { detailOf (slice p 2 30) with step := 0, injected := true }).fin o i 0 [])) s
def execErrCtrl (o i : Nat) (s : State) : Host.Outcome State Fault Refusal :=
  guardNext (slotOk o i) (fun d => d.cmd o i 0x0A05 (fun d =>
    let d1 := d.errDrive (leAt (d.par o i) 0 1 == 1)
    d1.fin o i 0 [byte (b2n d1.fault.errLow)])) s

/-! ### Repair queries (R342, R343) -/

def Dev.graftInfo (d : Dev) (c : Nat) : List Byte :=
  let x := d.ch c
  let used := fun (l : List Nat) => (l.filter (fun n => (d.spare c n).v)).length
  [byte (chStCode x.st), byte (used [0, 1, 2, 3]), byte (used [4, 5]), byte ((List.range 6).filter (fun n => (d.spare c n).v && (d.spare c n).fused)).length,
    byte (x.markA.getD 0), byte (x.markB.getD 0), byte (b2n x.markA.isSome + 2 * b2n x.markB.isSome), 0] ++
    leBytes 4 (d.evacOf c).done ++ leBytes 4 (d.evacOf c).total

/-- CHANNEL_RETIRE: a channel that is DEGRADED already answers IN_PROGRESS (R350). -/
def Dev.channelRetire (d : Dev) (o i : Nat) : Dev :=
  let c := leAt (d.par o i) 0 1
  if 64 ≤ c then d.fin o i 0x0F04 []
  else if d.retired c then d.fin o i 0x0B03 []
  else if d.chQuar c then d.fin o i 0x0F05 []
  else if !d.reserveHolds c then d.fin o i 0x0B02 []
  else let d1 := (d.degrade c).modEvac c (fun e => { e with trig := none }); d1.fin o i 0 (leBytes 4 (d1.evacBlocks c).length)

def Dev.sdtInfo (d : Dev) : List Byte :=
  let g := d.graft
  [byte (b2n g.sdtValid), byte g.sdtOutcome, byte (b2n g.longRan), 0] ++ leBytes 4 g.sdtSeq

def execGraftInfo (o i : Nat) (s : State) : Host.Outcome State Fault Refusal :=
  guardNext (slotOk o i) (fun d => d.cmd o i 0x0B01 (fun d =>
    let c := leAt (d.par o i) 0 1
    if 64 ≤ c then d.fin o i 0x0F04 [] else d.fin o i 0 (d.graftInfo c))) s
def execChannelRetire (o i : Nat) (s : State) : Host.Outcome State Fault Refusal := guardNext (slotOk o i) (fun d => d.cmd o i 0x0B03 (fun d => d.channelRetire o i)) s
def execSdtInfo (o i : Nat) (s : State) : Host.Outcome State Fault Refusal :=
  guardNext (slotOk o i) (fun d => d.cmd o i 0x0B05 (fun d => d.fin o i 0 d.sdtInfo)) s

/-! ### CSR access (R348, R349) -/

/-- Status of a command whose access was answered with a status of R132. -/
def csrCmdStatus (st : Status) : Nat := if st == .ok then 0 else if st == .addr then 0x0E01 else 0x0E02

/-- Address within the CSR range; one outside it becomes an offset that no access takes. -/
def csrCmdAddr (a : Nat) : Nat := if csrBase ≤ a then a - csrBase else 0x1000000

/-- Reads of `n` registers from an address, up to the first that fails. -/
def Dev.csrReads : Nat → Dev → Nat → Nat → List Byte → Status × List Byte × Dev
  | 0, d, _, _, acc => (.ok, acc, d)
  | n + 1, d, o, a, acc =>
    let r := d.csrRead o (csrCmdAddr a)
    if r.status == .ok then Dev.csrReads n r.dev o (a + 4) (acc ++ leBytes 4 r.value) else (r.status, [], r.dev)

/-- Writes of words from an address, up to the first that fails. -/
def Dev.csrWrites : Nat → Dev → Nat → Nat → List Byte → Status × Dev
  | 0, d, _, _, _ => (.ok, d)
  | n + 1, d, o, a, ws =>
    let r := d.csrWrite o (csrCmdAddr a) (leAt ws 0 4)
    if r.1 == .ok then Dev.csrWrites n r.2 o (a + 4) (ws.drop 4) else r

def Dev.csrRmw (d : Dev) (o i : Nat) : Dev :=
  let p := d.par o i
  let a := csrCmdAddr (leAt p 0 5)
  let m := leAt p 8 4
  let r := d.csrRead o a
  if r.status != .ok then r.dev.fin o i (csrCmdStatus r.status) []
  else
    let w := r.dev.csrWrite o a (clearBits r.value m ||| (leAt p 12 4 &&& m))
    w.2.fin o i (csrCmdStatus w.1) (if w.1 == .ok then leBytes 4 r.value else [])

def execCmdCsrRead (o i : Nat) (s : State) : Host.Outcome State Fault Refusal :=
  guardNext (slotOk o i) (fun d => d.cmd o i 0x0E01 (fun d =>
    let r := Dev.csrReads (leAt (d.par o i) 8 1) d o (leAt (d.par o i) 0 5) []
    r.2.2.fin o i (csrCmdStatus r.1) r.2.1)) s
def execCmdCsrWrite (o i : Nat) (s : State) : Host.Outcome State Fault Refusal :=
  guardNext (slotOk o i) (fun d => d.cmd o i 0x0E02 (fun d =>
    let r := Dev.csrWrites (leAt (d.par o i) 8 1) d o (leAt (d.par o i) 0 5) ((d.par o i).drop 12)
    r.2.fin o i (csrCmdStatus r.1) [])) s
def execCsrRmw (o i : Nat) (s : State) : Host.Outcome State Fault Refusal := guardNext (slotOk o i) (fun d => d.cmd o i 0x0E03 (fun d => d.csrRmw o i)) s

end Sys2Proof.Machine
end

