-- ==== Sys2Proof/Machine/Fw.lean ====
section
/-!
DEFINITION. Firmware images and the firmware update group (R313 to R316, R346, R347).
-/
namespace Sys2Proof.Machine

/-- Flash offset of an image slot: 0 A, 1 B. -/
def slotAt (n : Nat) : Nat := if n = 0 then 0x100000 else 0x500000

/-- An image is valid (R313): the key slot used, or none. -/
def Dev.imgValid (d : Dev) (f : Fuses) (n : Nat) : Option Nat :=
  let h := d.flashAt (slotAt n) 256
  let len := leAt h 8 4
  if leAt h 0 4 != 0x48574431 || decide (458752 < len) then none
  else if Config.sha384 (d.flashAt (slotAt n + 4096) len) != slice h 16 48 then none
  else d.sigCheck f (leAt h 12 1) 0 (slice h 64 96) (slice h 160 96) (h.take 160)

/-- VERSION and HANDOFF in the header of a slot. -/
def Dev.imgVer (d : Dev) (n : Nat) : Nat := leAt (d.flashAt (slotAt n) 8) 4 2
def Dev.imgHandoff (d : Dev) (n : Nat) : Nat := leAt (d.flashAt (slotAt n) 8) 6 2

/-- FW_STATE to every owner (R312). -/
def Dev.fwEvent (d : Dev) (state old new : Nat) : Dev := d.postAll d.owners 0x70 ([byte state, 0] ++ leBytes 2 old ++ leBytes 2 new ++ [0, 0])

/-- Another owner's update session is open. -/
def Dev.updOther (d : Dev) (o : Nat) : Bool := match d.mbox.updOpen with | some x => x != o | none => false

/-- The slot that an update writes: the one that the record does not name ACTIVE. -/
def Dev.updSlot (d : Dev) : Nat := 1 - d.imgRec.active

def Dev.fwBegin (d : Dev) (o i : Nat) : Dev :=
  if d.mbox.trial || (d.updOther o && o != 64) then d.fin o i 0x0F05 []
  else
    let n := d.updSlot
    let d1 := (d.flashErase (slotAt n) 0x71000).modMbox (fun m => { m with
      updOpen := some o, updLen := leAt (d.par o i) 0 4, updBytes := [], updOk := false })
    d1.fin o i 0 [byte n]

/-- FW_WRITE: without a session it is answered NOT_STAGED (DEDUCED). A write after the check asks for a new check. -/
def Dev.fwWrite (d : Dev) (o i : Nat) : Dev :=
  let p := d.par o i
  let off := leAt p 0 4
  let bs := p.drop 8
  if d.updOther o then d.fin o i 0x0F05 []
  else if d.mbox.updOpen.isNone then d.fin o i 0x0D03 []
  else
    let d1 := (d.flashPut (slotAt d.updSlot + off) bs).modMbox (fun m => { m with
      updOk := false, updBytes := (List.range bs.length).foldl (fun t j => tabSet (fun _ => 0) t (off + j) 1) m.updBytes })
    d1.fin o i 0 []

def Dev.fwVerify (d : Dev) (f : Fuses) (o i : Nat) : Dev :=
  let n := d.updSlot
  if d.updOther o then d.fin o i 0x0F05 []
  else if d.mbox.updOpen.isNone || d.mbox.updBytes.length != d.mbox.updLen then d.fin o i 0x0D03 []
  else
    let d1 := d.keyReads f (leAt (d.flashAt (slotAt n) 16) 12 1) 0
    match d.imgValid f n with
    | some k => (d1.modMbox (fun m => { m with updOk := true })).fin o i 0 (leBytes 2 (d.imgVer n) ++ leBytes 2 (d.imgHandoff n) ++ [byte k])
    | none => (d1.raise0 163 { kind := 15, inst := n }).fin o i 0x0D01 []

/-- FW_ACTIVATE: step 1 of R315 begins; no further command starts. -/
def Dev.fwActivate (d : Dev) (o i : Nat) : Dev :=
  if d.mbox.act != .none then d
  else if d.mbox.updOpen.isNone || !d.mbox.updOk then d.fin o i 0x0D03 []
  else d.modMbox (fun m => { m with act := .waiting, actPair := 8 * o + i, actBy := some (d.dt + 100000000), fwState := 2, wdog := none })

/-- No command runs but, in an activation, the one that asked for it. -/
def Dev.actQuiet (d : Dev) : Bool :=
  d.running.all (fun x => d.mbox.act == .waiting && 8 * x.1 + x.2 == d.mbox.actPair)

/-- Firmware goes on: it starts commands again and services the watchdog. -/
def Dev.fwResume (d : Dev) : Dev :=
  d.modMbox (fun m => { m with
    act := .none, actBy := none, fwState := if m.fwState = 2 then 1 else m.fwState
    wdog := some (d.dt + 1000000 * d.cfgFld 0 bMbox 0x10 0 10) })

/-- An activation is refused (R315, R347). -/
def Dev.actRefuse (d : Dev) (reason : Nat) : Dev :=
  let o := d.mbox.actPair / 8
  let i := d.mbox.actPair % 8
  ((d.fwResume).fwEvent 4 d.mbox.ver (d.imgVer d.updSlot)).fin o i 0x0D02 [byte reason]

/-- ACTIVATION_SWITCH (R315, steps 2 and 3); `ok`: HANDOFF matches the state saved. -/
def Dev.actSwitch (d : Dev) (ok : Bool) : Dev :=
  if d.mbox.act != .waiting || !d.actQuiet then d
  else if !ok then d.actRefuse 2
  else
    let o := d.mbox.actPair / 8
    let i := d.mbox.actPair % 8
    let n := d.updSlot
    let old := d.mbox.ver
    let new := d.imgVer n
    let d1 := ((d.fwResume).imgRecPut { active := n, trial := true }).modMbox (fun m => { m with
      image := n == 1, ver := new, oldVer := old, trial := true, actOwner := o, updOpen := none, updOk := false
      confirmBy := some (d.dt + 1000000000 * d.cfgFld 0 bMbox 0x10 12 20) })
    (d1.fwEvent 1 old new).fin o i 0 (leBytes 2 old ++ leBytes 2 new)

/-- ACTIVATION_WAIT_TIMEOUT: 100 ms have passed and another command still runs. -/
def Dev.actTimeout (d : Dev) : Dev :=
  if !due d.mbox.actBy d.dt || d.actQuiet then d
  else match d.mbox.act with
    | .none => d
    | .waiting => d.actRefuse 1
    | .reverting => (d.fwResume).fwEvent 4 d.mbox.oldVer d.mbox.ver

/-- An exclusive command of an earlier stamp goes before firmware's own act of stamp `t` (R323). -/
def Dev.exclAhead (d : Dev) (t : Nat) : Bool :=
  d.exclRunning || allPairs.any (fun x => let p := d.pair x.1 x.2
    p.st == .posted && cmdExclusive (cmdOpcode p.cmd) && decide (p.stamp < t))

/-- EVACUATION_START (R296, R323): firmware starts an evacuation that hardware has triggered in its place among exclusive commands. -/
def Dev.evacBegin (d : Dev) (c : Nat) : Dev :=
  let held := match (d.evacOf c).trig with | some t => d.exclAhead t | none => false
  if d.evacCan && !held then d.evacStart c else d

/-- The old image takes over again (R316). -/
def Dev.revertSwitch (d : Dev) (ok : Bool) : Dev :=
  if !ok then (d.fwResume).fwEvent 4 d.mbox.oldVer d.mbox.ver
  else
    let n := 1 - d.imgRec.active
    let old := d.mbox.oldVer
    let new := d.mbox.ver
    let d1 := ((d.fwResume).imgRecPut { active := n }).modMbox (fun m => { m with
      image := n == 1, ver := old, trial := false, confirmBy := none })
    (d1.raise0 165 {}).fwEvent 3 old new

/-- FW_REVERT (R316, R323): at the deadline without a confirm of an earlier stamp; `ok`: the old image takes the state. -/
def Dev.fwRevert (d : Dev) (ok : Bool) : Dev :=
  if d.mbox.act == .reverting then (if d.actQuiet then d.revertSwitch ok else d)
  else match d.mbox.confirmBy with
    | none => d
    | some t =>
      if !d.mbox.trial || d.mbox.act != .none || d.mbox.fwState != 1 || d.dt < t || d.fwConfirmAhead || d.exclAhead t then d
      else if d.actQuiet then d.revertSwitch ok
      else d.modMbox (fun m => { m with act := .reverting, actBy := some (d.dt + 100000000), fwState := 2, wdog := none })

def Dev.fwConfirm (d : Dev) (o i : Nat) : Dev :=
  let late := match d.mbox.confirmBy with
    | some t => decide (t ≤ (d.pair o i).stamp)
    | none => false
  if !d.mbox.trial || leAt (d.par o i) 0 2 != d.mbox.ver || late then d.fin o i 0x0D04 []
  else
    let d1 := (d.imgRecPut { active := d.imgRec.active }).modMbox (fun m => { m with trial := false, confirmBy := none })
    (d1.fwEvent 2 d.mbox.oldVer d.mbox.ver).fin o i 0 []

def Dev.fwStatus (d : Dev) (f : Fuses) : List Byte :=
  let r := d.imgRec
  let v := fun n => if (d.imgValid f n).isSome then d.imgVer n else 0
  [byte r.active, byte (b2n r.trial), byte r.boots, byte (b2n d.mbox.image)] ++ leBytes 2 (v 0) ++ leBytes 2 (v 1) ++ leBytes 8 (d.mbox.confirmBy.getD 0)

/-! ### Meanings -/

def execEvacuationStart (c : Nat) (s : State) : Host.Outcome State Fault Refusal := guardNext (chanOk c) (fun d => d.evacBegin c) s
def execFwBegin (o i : Nat) (s : State) : Host.Outcome State Fault Refusal := guardNext (slotOk o i) (fun d => d.cmd o i 0x0D01 (fun d => d.fwBegin o i)) s
def execFwWrite (o i : Nat) (s : State) : Host.Outcome State Fault Refusal := guardNext (slotOk o i) (fun d => d.cmd o i 0x0D02 (fun d => d.fwWrite o i)) s
def execFwVerify (o i : Nat) (s : State) : Host.Outcome State Fault Refusal := guardFuse (slotOk o i) (fun f d => d.cmd o i 0x0D03 (fun d => d.fwVerify f o i)) s
def execFwActivate (o i : Nat) (s : State) : Host.Outcome State Fault Refusal := guardNext (slotOk o i) (fun d => d.cmd o i 0x0D04 (fun d => d.fwActivate o i)) s
def execActivationSwitch (ok : Bool) (s : State) : Host.Outcome State Fault Refusal := guardNext true (fun d => d.actSwitch ok) s
def execActivationWaitTimeout (s : State) : Host.Outcome State Fault Refusal := guardNext true (fun d => d.actTimeout) s
def execFwRevert (ok : Bool) (s : State) : Host.Outcome State Fault Refusal := guardNext true (fun d => d.fwRevert ok) s
def execFwConfirm (o i : Nat) (s : State) : Host.Outcome State Fault Refusal := guardNext (slotOk o i) (fun d => d.cmd o i 0x0D05 (fun d => d.fwConfirm o i)) s
def execFwStatus (o i : Nat) (s : State) : Host.Outcome State Fault Refusal :=
  guardFuse (slotOk o i) (fun f d => d.cmd o i 0x0D06 (fun d => d.fin o i 0 (d.fwStatus f))) s

end Sys2Proof.Machine
end

