-- ==== Sys2Proof/Machine/OtpCmds.lean ====
section
/-!
DEFINITION. The OTP and life-cycle commands (R344, R345, R461 to R467) and the burning of fuse grafts (R455, R464).
-/
namespace Sys2Proof.Machine

/-- A command that burns fuses: it runs as `Dev.cmd` does. -/
def Dev.cmdBurn (f : Fuses) (d : Dev) (o i op : Nat) (g : Dev → Fuses × Dev) : Fuses × Dev := if d.runs o i op then g d else (f, d)

/-! ### Reading -/

/-- A region that OTP_READ does not return: read-locked, holding device secrets, or not reported (R345, R453). -/
def Dev.otpHidden (d : Dev) (r : Nat) : Bool := bit d.otp.rlock r || r == 21 || r == 22 || r == 31

/-- Words of a demand read, up to the first that is marginal. -/
def Dev.otpReads (f : Fuses) : Nat → Dev → Nat → List Byte → Option (List Byte) × Dev
  | 0, d, _, acc => (some acc, d)
  | n + 1, d, k, acc =>
    match (if shadowUsed (k / 64) then d.shadow k else none) with
    | some v => Dev.otpReads f n d (k + 1) (acc ++ leBytes 4 v.toNat)
    | none =>
      match d.otpRead f k with
      | (some v, d1) => Dev.otpReads f n d1 (k + 1) (acc ++ leBytes 4 v.toNat)
      | (none, d1) => (none, d1)

def Dev.otpReadCmd (d : Dev) (f : Fuses) (o i : Nat) : Dev :=
  let p := d.par o i
  let r := leAt p 0 1
  if !bit d.otp.present r then d.fin o i 0x0C01 []
  else if d.otpHidden r then d.fin o i 0x0C03 []
  else match Dev.otpReads f (leAt p 2 1) d (64 * r + leAt p 1 1) [] with
    | (some bs, d1) => d1.fin o i 0 bs
    | (none, d1) => d1.fin o i 0x0C02 []

/-! ### Shadows and burning -/

/-- OTP_SHADOW: all words of one command at once; consumers of the region reload it (R461). -/
def Dev.otpShadowCmd (d : Dev) (f : Fuses) (o i : Nat) : Dev :=
  let p := d.par o i
  let r := leAt p 0 1
  if bit d.otp.wlock r then d.fin o i 0x0C04 []
  else
    let d1 := (List.range (leAt p 2 1)).foldl (fun (a : Dev) j => a.modOtp (fun u => { u with
      shadow := tabSet (fun _ => none) u.shadow (64 * r + leAt p 1 1 + j) (some (word (leAt p (4 + 4 * j) 4))) })) d
    (if r = 3 && bit d1.otp.present 3 then d1.coefLoad f else d1).fin o i 0 []

/-- One word of OTP_PROGRAM (R463): fuses, device, words burned, words that read good. -/
def Dev.otpBurnOne (miss : List BurnMiss) (s : Fuses × Dev × Nat × Nat) (k : Nat) : Fuses × Dev × Nat × Nat :=
  let (f, d, n, g) := s
  let fail := fun (d : Dev) => (d.raise0 193 { kind := 16, inst := k / 64, a := k % 64 }).orCsr 0 bOtp 0x40 8
  match d.shadow k with
  | none => (f, fail d, n, g)
  | some v =>
    if (f.wordA k ||| f.wordB k) &&& ~~~v != 0 then (f, fail d, n, g)
    else
      let r := d.burnWord f miss k v
      (r.2.1, r.2.2, n + 1, if r.1 then g + 1 else g)

def Dev.otpProgramCmd (d : Dev) (f : Fuses) (o i : Nat) (miss : List BurnMiss) : Fuses × Dev :=
  let p := d.par o i
  let r := leAt p 0 1
  let n := leAt p 2 1
  if !d.mayBurn then (f, d.fin o i 0x0C05 [0, 0])
  else if bit d.otp.wlock r then (f, d.fin o i 0x0C04 [])
  else
    let s := (List.range n).foldl (fun s j => Dev.otpBurnOne miss s (64 * r + leAt p 1 1 + j)) (f, d, 0, 0)
    (s.1, s.2.1.fin o i (if s.2.2.2 = n then 0 else 0x0C06) [byte s.2.2.1, byte s.2.2.2])

/-- OTP_LOCK (R345, R464). -/
def Dev.otpLockCmd (d : Dev) (f : Fuses) (o i : Nat) (miss : List BurnMiss) : Fuses × Dev :=
  let p := d.par o i
  let r := leAt p 0 1
  let which := leAt p 1 1
  let set := fun (f : Fuses) => (!bit which 0 || bit f.wlock r) && (!bit which 1 || bit f.rlock r)
  if set f then (f, d.fin o i 0 [])
  else if !d.otpSumOk f r then (f, d.fin o i 0x0C07 [])
  else if !d.mayBurn then (f, d.fin o i 0x0C05 [])
  else
    let f1 := f.lock miss r which
    let d1 := d.modOtp (fun u => { u with wlock := f1.wlock, rlock := f1.rlock })
    if set f1 then (f1, d1.fin o i 0 [])
    else (f1, ((d1.raise0 193 { kind := 16, inst := r }).orCsr 0 bOtp 0x40 8).fin o i 0x0C06 [])

/-! ### Life cycle (R466, R467) -/

/-- The transitions of R467. -/
def lcAllowed (a b : LcSt) : Bool :=
  match a, b with
  | .manufacture, .provision | .provision, .field | .provision, .return | .field, .return => true
  | .ended, _ => false
  | _, .ended => true
  | _, _ => false

/-- A region is sealed incomplete (R457, R467). -/
def Dev.sealNow (d : Dev) (r : Nat) : Dev :=
  ((d.modOtp (fun u => { u with present := clearBits u.present (2 ^ r), sealed := u.sealed ||| 2 ^ r })).raise0 192
    { kind := 16, inst := r, a := 63 }).orCsr 0 bOtp 0x40 4

/-- Before word 3 is burned, words 0 to 62 of the secret regions are burned to ones (R467). -/
def Fuses.burnSecrets (f : Fuses) (miss : List BurnMiss) : Fuses :=
  (List.range 126).foldl (fun (f : Fuses) j => f.program miss (64 * (21 + j / 63) + j % 63) 0xFFFFFFFF) f

def Dev.lcAdvanceCmd (d : Dev) (f : Fuses) (o i : Nat) (miss : List BurnMiss) : Fuses × Dev :=
  let p := d.par o i
  let now := d.otp.lc
  let tgt := lcOf (leAt p 0 1)
  let msg := leBytes 8 d.otp.chipid ++ [byte (lcCode now), byte (lcCode tgt)]
  let ok := match d.keySlot f (leAt p 1 1) 2 with
    | some j => Config.lcSigOk (d.keyDigest f j) (slice p 8 96) (Config.sha384 msg)
    | none => false
  if !lcAllowed now tgt || d.otp.lcAbsent then (f, d.fin o i 0x0C08 [])
  else
  let d := d.keyReads f (leAt p 1 1) 2
  if !ok then (f, d.fin o i 0x0C09 [])
  else if !d.mayBurn then (f, d.fin o i 0x0C05 [])
  else
    let w := lcCode tgt - 1
    let f1 := if tgt == .ended then f.burnSecrets miss else f
    let d1 := if tgt == .ended then (d.sealNow 21).sealNow 22 else d
    let r := d1.burnWord f1 miss (64 + w) (word (lcMark w))
    if r.1 then
      let torn := (List.range 4).any (fun j => let v := (r.2.2.otpVal r.2.1 (64 + j)).toNat; v != 0 && v != lcMark j)
      (r.2.1, (r.2.2.modOtp (fun u => { u with lc := tgt, lcTorn := torn })).fin o i 0 [byte (lcCode tgt)])
    else
      let v := (r.2.2.otpVal r.2.1 (64 + w)).toNat
      let d2 := if v != 0 && v != lcMark w then
          ((r.2.2.modOtp (fun u => { u with lcTorn := true })).raise0 194 { kind := 16, inst := 1, a := w }).orCsr 0 bOtp 0x40 16
        else r.2.2
      (r.2.1, d2.fin o i 0x0C06 [])

/-! ### Repair-map entries (R455, R464) -/

/-- The next empty word for a repair-map entry. -/
def Dev.emptyEntry (d : Dev) (f : Fuses) : Option Nat :=
  ((List.range 8).map (fun j => 5 + j)).findSome? (fun r =>
    if bit d.otp.present r && !bit d.otp.wlock r then
      ((List.range 63).map (fun w => 64 * r + w)).find? (fun k => f.wordA k == 0 && f.wordB k == 0)
    else none)

/-- Burn an entry; one that fails its read-back is voided and written again in the next empty word. -/
def Dev.burnEntry (miss : List BurnMiss) (v : Word) : Nat → Fuses → Dev → Bool × Fuses × Dev
  | 0, f, d => (false, f, d)
  | fuel + 1, f, d =>
    match d.emptyEntry f with
    | none => (false, f, d)
    | some k =>
      let r := d.burnWord f miss k v
      if r.1 then r else Dev.burnEntry miss v fuel (r.2.1.program miss k 0xFFFFFFFF) r.2.2

/-! ### Meanings -/

def execOtpRead (o i : Nat) (s : State) : Host.Outcome State Fault Refusal :=
  guardFuse (slotOk o i) (fun f d => d.cmd o i 0x0C01 (fun d => d.otpReadCmd f o i)) s
def execOtpShadow (o i : Nat) (s : State) : Host.Outcome State Fault Refusal :=
  guardFuse (slotOk o i) (fun f d => d.cmd o i 0x0C02 (fun d => d.otpShadowCmd f o i)) s
def execOtpProgram (o i : Nat) (miss : List BurnMiss) (s : State) : Host.Outcome State Fault Refusal :=
  guardBurn (slotOk o i) (fun f d => Dev.cmdBurn f d o i 0x0C03 (fun d => d.otpProgramCmd f o i miss)) s
def execOtpLock (o i : Nat) (miss : List BurnMiss) (s : State) : Host.Outcome State Fault Refusal :=
  guardBurn (slotOk o i) (fun f d => Dev.cmdBurn f d o i 0x0C04 (fun d => d.otpLockCmd f o i miss)) s
def execLcAdvance (o i : Nat) (miss : List BurnMiss) (s : State) : Host.Outcome State Fault Refusal :=
  guardBurn (slotOk o i) (fun f d => Dev.cmdBurn f d o i 0x0C05 (fun d => d.lcAdvanceCmd f o i miss)) s

end Sys2Proof.Machine
end

