-- ==== Sys2Proof/Machine/Repair.lean ====
section
/-!
DEFINITION. Grafts by command, the self-test engine, SHUTDOWN, and wear (R343, R372, R433 to R447).
-/
namespace Sys2Proof.Machine

/-! ### GRAFT_LINK (R343, R433, R435, R464) -/

/-- A repair-map entry of TYPE 1 (R455). -/
def linkEntry (c l n : Nat) : Word := word (2 ^ 28 + c * 2 ^ 22 + l * 2 ^ 16 + n * 2 ^ 13)

/-- Burn the graft of role `l` on spare `n`. -/
def Dev.fuseLink (d : Dev) (f : Fuses) (miss : List BurnMiss) (o i c l n : Nat) : Fuses × Dev :=
  let r := Dev.burnEntry miss (linkEntry c l n) 504 f d
  if r.1 then (r.2.1, ((r.2.2.setSpare c n { (r.2.2.spare c n) with fused := true }).repairDue).fin o i 0 [byte (52 + n)])
  else (r.2.1, r.2.2.fin o i 0x0C04 [])

/-- GRAFT_LINK. A failure that finds no free spare has the effect of R436 all the same (DEDUCED). -/
def Dev.graftLink (d : Dev) (f : Fuses) (o i : Nat) (miss : List BurnMiss) : Fuses × Dev :=
  let p := d.par o i
  let c := leAt p 0 1
  let l := leAt p 1 1
  let lc := d.otp.lc
  if 64 ≤ c || d.retired c || (d.ch c).failed then (f, d.fin o i 0x0F04 [])
  else if leAt p 2 1 = 0 then
    match d.freeSpare c l with
    | some n => (f, (d.linkFailed c l true).fin o i 0 [byte (52 + n)])
    | none => (f, (d.linkFailed c l true).fin o i 0x0B01 [])
  else if d.clk.mode != .maint then (f, d.fin o i 0x0F02 [])
  else if !(lc == .manufacture || lc == .provision || lc == .return) then (f, d.fin o i 0x0F03 [])
  else if !d.mayBurn then (f, d.fin o i 0x0C05 [])
  else match d.carrier c l with
    | some n => d.fuseLink f miss o i c l n
    | none =>
      match d.freeSpare c l with
      | some n => (d.graftTo c l n).fuseLink f miss o i c l n
      | none => (f, d.fin o i 0x0B01 [])

/-! ### Self-test (R442) -/

/-- No graft can mend a failing link: no spare is free for the role it carries. -/
def Dev.linkUnmended (d : Dev) (c l : Nat) : Bool :=
  if 52 ≤ l then (d.spare c (l - 52)).v && (d.spare c (l - 52)).link != 0x3F && (d.freeSpare c (d.spare c (l - 52)).link).isNone
  else (d.carrier c l).isNone && (d.freeSpare c l).isNone

/-- A failing link of bit 0, on a channel that is tested. -/
def testLink (skipDeg : Bool) (s : Nat × Dev) (x : Nat × Nat) : Nat × Dev :=
  let c := x.1 % 64
  let d := s.2
  if 58 ≤ x.2 || !d.serving c || (skipDeg && d.chQuar c) then s
  else (if d.linkUnmended c x.2 then s.1 ||| 1 else s.1, d.linkFailed c x.2 false)

/-- A failing trunk signal of bit 0, or from 2048 on a failing spare. -/
def testTrunk (s : Nat × Dev) (x : Nat × Nat) : Nat × Dev :=
  let t := x.1 % 4
  let g := x.2 % 2080
  let sp := s.2.trunk t (if g < 2048 then g / 64 else g - 2048)
  (if sp.v && sp.link != (if g < 2048 then g % 64 else trunkOut) then s.1 ||| 1 else s.1, s.2.trunkFailed t g)

/-- A failing row of bit 7. -/
def testRow (s : Nat × Dev) (x : Nat × Nat × Nat) : Nat × Dev :=
  let c := x.1 % 64
  let b := x.2.1 % 64
  let r := x.2.2 % 32768
  if !s.2.serving c then s
  else (if (s.2.freeRowSpare c b r).isNone then s.1 ||| 128 else s.1, s.2.rowGraft c b r id)

/-- Bit 6: every programmed word of the present regions is sensed again. -/
def Dev.testOtp (d : Dev) (f : Fuses) : Nat × Dev :=
  (List.range 32).foldl (fun (s : Nat × Dev) r =>
    ((d.otpHot f r).filter (fun k => f.wordA k != 0 || f.wordB k != 0)).foldl (fun (s : Nat × Dev) k =>
      if !bit s.2.otp.present r then s
      else match s.2.otpRead f k with
        | (some _, d1) => (s.1, d1)
        | (none, d1) => (s.1 ||| 64, d1)) s) (0, d)

/-- The march tests leave storage invalid (R154): bit 7 all DRAM, bit 8 the SRAM of the stack, with the telemetry store. -/
def Dev.testErase (d : Dev) (set : Nat) : Dev :=
  let d1 := if bit set 7 then d.modMem (fun m => { m with
      bytes := m.bytes.filter (fun e => inSram e.1), blkValid := [], fills := [], dErr := [], poison := [] }) else d
  if bit set 8 then (d1.modMem (fun m => { m with
      bytes := m.bytes.filter (fun e => !inSram e.1), wordValid := [], sErr := [] })).modTelem (fun t => { t with ring := [], next := [] })
  else d1

/-- A run of the tests in `set` but for what it does with columns: the tests failed, by bit, and the device. Links and rows
are grafted, and what no graft can mend is reported. -/
def Dev.selfTest (d : Dev) (f : Fuses) (set : Nat) (t : TestRes) (skipDeg : Bool) : Nat × Dev :=
  let s0 : Nat × Dev := (t.fail &&& set, d)
  let s1 := if bit set 0 then t.trunk.foldl testTrunk (t.links.foldl (testLink skipDeg) s0) else s0
  let s2 := if bit set 6 then (let r := s1.2.testOtp f; (s1.1 ||| r.1, r.2)) else s1
  let s3 := if bit set 7 then t.rows.foldl testRow s2 else s2
  (s3.1, s3.2.testErase set)

/-- The end of a run: what failed is recorded, and raises FS184. -/
def Dev.testEnd (d : Dev) (mask : Nat) : Dev :=
  let d1 := d.modGraft (fun g => { g with sdtFail := mask })
  if mask = 0 then d1 else d1.raise0 184 {}

/-- A repair-map entry of TYPE 3 from a column's place (R455). -/
def colEntry (v : Nat) : Nat := 3 * 2 ^ 28 + v % 2 ^ 28

/-- A failing column (R464): burned while the window permits it, otherwise reported only. -/
def testCol (miss : List BurnMiss) (s : Nat × Fuses × Dev) (v : Nat) : Nat × Fuses × Dev :=
  let (m, f, d) := s
  if !d.mayBurn then (m ||| 128, f, d)
  else
    let r := Dev.burnEntry miss (word (colEntry v)) 504 f d
    if r.1 then (m, r.2.1, r.2.2.modGraft (fun g => { g with cols := g.cols ++ [colEntry v] })) else (m ||| 128, r.2.1, r.2.2)

/-- SELFTEST_RUN (R343). -/
def Dev.selftestRun (d : Dev) (f : Fuses) (o i : Nat) (t : TestRes) (miss : List BurnMiss) : Fuses × Dev :=
  let set := leAt (d.par o i) 0 4
  let s := d.selfTest f set t false
  let r : Nat × Fuses × Dev := if bit set 7 then t.cols.foldl (testCol miss) (s.1, f, s.2) else (s.1, f, s.2)
  (r.2.1, (r.2.2.testEnd r.1).fin o i 0 (leBytes 4 r.1 ++ padTo 16 t.detail))

/-! ### SHUTDOWN and the drain (R327, R372, R443) -/

/-- A transition that waits for a shut-down test goes on to it once the drain is complete: the test, the records, RETAIN. -/
def Dev.shutGo (f : Fuses) (d : Dev) : Dev :=
  match d.clk.move with
  | none => d
  | some m =>
    if !m.shutdown || m.ph != .draining || d.clk.hold || !d.drained true then d
    else
      let s := d.selfTest f 0x7F m.test true
      let w := (s.2.testEnd s.1).sdtWrite f s.1 m.recOk
      let d1 := if m.recOk then w.2.2.wearWrite else w.2.2
      let d2 := (d1.enterRetain m.cause m.owner).modClk (fun c => { c with move := none })
      match m.pair with
      | none => d2
      | some p =>
        if w.1 then d2.fin (p / 8) (p % 8) 0 ([byte (b2n (s.1 != 0)), 1, 0, 0] ++ leBytes 4 w.2.1 ++ leBytes 4 s.1)
        else d2.fin (p / 8) (p % 8) 0x0203 []

/-- SHUTDOWN. A confirm window that runs does not refuse it (R364). -/
def Dev.shutdown (d : Dev) (f : Fuses) (o i : Nat) (t : TestRes) (ok : Bool) : Dev :=
  if d.clk.move.isSome then Dev.shutGo f d
  else
    let d1 := d.modClk (fun c => { c with move := some {
      from_ := c.mode, tgt := .retain, shutdown := true, owner := o, cause := 0, pair := some (8 * o + i), test := t, recOk := ok } })
    Dev.shutGo f d1.moveTry

/-! ### Wear (R446, R447) -/

/-- The compute layer of a tier (R20). -/
def computeLayer (t : Nat) : Nat := 5 + 5 * t

/-- AF at the higher temperature of a link's layers. -/
def Dev.afLink (d : Dev) (c : Nat) : Nat := Config.wearAf (max (d.layer (dramLayer (c / 4))).temp (d.layer (computeLayer (c / 16))).temp)

/-- Links of a channel whose stress accrues: those that carry their own role, and the spares that carry one. -/
def Dev.wornLinks (d : Dev) (c : Nat) : List Nat :=
  ((List.range 52).filter (fun l => (d.carrier c l).isNone)) ++
    (((List.range 6).filter (fun n => (d.spare c n).v && (d.spare c n).link != 0x3F)).map (· + 52))

/-- S, in units of 2^-32 s, at which FS185 is raised. -/
def Dev.wearLimit (d : Dev) : Nat := d.cfgFld 0 bGraft 0x300 8 8 * 6311520 * 2 ^ 32

/-- FS185 and its event. -/
def Dev.wearRaise (d : Dev) (x : Detail) : Dev := (d.raise0 185 x).orCsr 0 bGraft 0x320 16

/-- One link: its stress grows by AF × u², where the link carried `b` of 800,000,000 burst slots. -/
def Dev.wearLink (d : Dev) (c l b : Nat) : Dev :=
  let k := 64 * c + l
  let s := tabGet (fun _ => 0) d.graft.stress k + d.afLink c * b ^ 2 / 800000000 ^ 2
  let d1 := d.modGraft (fun g => { g with stress := tabSet (fun _ => 0) g.stress k s })
  if s < d.wearLimit || d.graft.atLimit.contains k then d1
  else
    let role := if 52 ≤ l then (d1.spare c (l - 52)).link else l
    let d2 := (d1.modGraft (fun g => { g with atLimit := g.atLimit ++ [k] })).wearRaise { kind := 5, inst := c, a := l }
    match d2.freeSpare c role with
    | some n => d2.graftTo c role n
    | none => d2

/-- Key of the stress of a trunk signal, or from 2048 on of a group's spare. -/
def trunkKey (t sig : Nat) : Nat := if sig < 2048 then 2048 * t + sig else 8192 + 32 * t + (sig - 2048)
/-- A trunk signal or a spare carries something: no spare has replaced the signal, the spare has replaced one. -/
def Dev.trunkWorn (d : Dev) (t sig : Nat) : Bool :=
  if sig < 2048 then !((d.trunk t (sig / 64)).v && (d.trunk t (sig / 64)).link == sig % 64)
  else (d.trunk t (sig - 2048)).v && (d.trunk t (sig - 2048)).link != trunkOut

/-- One trunk signal or spare. The manual does not say how the burst slots of a channel load the signals of its tier: u is a free value
between 0 and 1, in units of 2^-16. -/
def Dev.wearTrunk (d : Dev) (t sig : Nat) : Dev :=
  if !d.trunkWorn t sig then d else
  let k := trunkKey t sig
  let u := Config.freeNat (d.freeIx + k) % 65537
  let s := tabGet (fun _ => 0) d.graft.trunkStress k + Config.wearAf (d.layer (computeLayer t)).temp * u ^ 2 / 2 ^ 32
  let d1 := d.modGraft (fun g => { g with trunkStress := tabSet (fun _ => 0) g.trunkStress k s })
  if s < d.wearLimit || d.graft.trunkLimit.contains k then d1
  else
    let d2 := (d1.modGraft (fun g => { g with trunkLimit := g.trunkLimit ++ [k] })).wearRaise { kind := 6, inst := t, a := sig }
    if 2048 ≤ sig || (d2.trunk t (sig / 64)).v then d2 else d2.trunkFailed t sig

/-- One subarray, with its activations of the second; reported only. -/
def Dev.wearSub (d : Dev) (k n : Nat) : Dev :=
  let c := k / 256
  let s := tabGet (fun _ => 0) d.graft.subStress k + Config.wearAf (d.layer (dramLayer (c / 4))).temp * n ^ 2 / 30303030 ^ 2
  let d1 := d.modGraft (fun g => { g with subStress := tabSet (fun _ => 0) g.subStress k s })
  if s < d.wearLimit || d.graft.subLimit.contains k then d1
  else (d1.modGraft (fun g => { g with subLimit := g.subLimit ++ [k] })).wearRaise { kind := 5, inst := c, a := k % 256 }

/-- WEAR_UPDATE: once per second. -/
def Dev.wearUpdate (d : Dev) : Dev :=
  if d.dt < d.graft.wearAt + 1000000000 then d
  else
    let g := d.graft
    let d1 := (List.range 64).foldl (fun (a : Dev) c =>
      let b := tabGet (fun _ => 0) g.bursts c
      if b = 0 then a else (a.wornLinks c).foldl (fun (a : Dev) l => a.wearLink c l b) a) d
    let d2 := (List.range 8320).foldl (fun (a : Dev) k => a.wearTrunk (k / 2080) (k % 2080)) d1
    let d3 := g.acts.foldl (fun (a : Dev) e => a.wearSub e.1 e.2) { d2 with freeIx := d2.freeIx + 8320 }
    d3.modGraft (fun u => { u with bursts := [], acts := [], wearAt := d.dt })

/-- WEAR_RECORD_WRITE: once an hour; `ok`: the flash takes it. -/
def Dev.wearHourly (d : Dev) (ok : Bool) : Dev := if d.graft.wearHour + 3600000000000 ≤ d.dt && ok then d.wearWrite else d

/-! ### Meanings -/

def execGraftLink (o i : Nat) (miss : List BurnMiss) (s : State) : Host.Outcome State Fault Refusal :=
  guardBurn (slotOk o i) (fun f d => Dev.cmdBurn f d o i 0x0B02 (fun d => d.graftLink f o i miss)) s
def execSelftestRun (o i : Nat) (t : TestRes) (miss : List BurnMiss) (s : State) : Host.Outcome State Fault Refusal :=
  guardBurn (slotOk o i) (fun f d => Dev.cmdBurn f d o i 0x0B04 (fun d => d.selftestRun f o i t miss)) s
def execShutdown (o i : Nat) (t : TestRes) (ok : Bool) (s : State) : Host.Outcome State Fault Refusal :=
  guardFuse (slotOk o i) (fun f d => d.cmd o i 0x0202 (fun d => d.shutdown f o i t ok)) s
def execRepairRecordWrite (ok : Bool) (s : State) : Host.Outcome State Fault Refusal := guardNext true (fun d => d.repairWrite ok) s
def execWearUpdate (s : State) : Host.Outcome State Fault Refusal := guardNext true (fun d => d.wearUpdate) s
def execWearRecordWrite (ok : Bool) (s : State) : Host.Outcome State Fault Refusal := guardNext true (fun d => d.wearHourly ok) s

end Sys2Proof.Machine
end

