-- ==== Sys2Proof/Machine/CfgCheck.lean ====
section
/-!
DEFINITION. Checks of a configuration image (R148, R191, R200, R260, R329, R355) and what one image changes against another
(R157, R329, R368).
-/
namespace Sys2Proof.Machine

/-! ### The layout record (R147, R148) -/

def Region.overlaps (a b : Region) : Bool :=
  a.type != 0 && b.type != 0 && a.sram == b.sram && decide (a.base < b.base + b.size) && decide (b.base < a.base + a.size)

/-- The form that R148 asks of a region's TYPE. -/
def Region.formOk (r : Region) : Bool :=
  match r.type with
  | 1 => !r.sram || (r.gran == 0 && !r.hash)
  | 2 => r.gran == 0 && (r.hash == !r.sram)
  | 3 => !r.sram && r.gran == 1 && !r.hash
  | 4 => !r.sram && r.gran == 0 && !r.hash
  | 5 | 6 => !r.sram && r.gran == 2 && !r.hash
  | _ => false

/-- Reserved bits of a region entry are zero (R147). -/
def regionZeros (e : List Byte) : Bool := decide (leAt e 1 1 < 64) && zeroAt e 2 2 && zeroAt e 8 8

/-- Region `n` breaks a rule of R148; of two regions that collide, the later one does. -/
def regionBad (img : List Byte) (n : Nat) : Bool :=
  let r := imgRegion img n
  let earlier := (List.range n).map (imgRegion img)
  let whole := (List.range 32).map (imgRegion img)
  let cell := whole.find? (fun x => x.type == 3)
  let desc := whole.find? (fun x => x.type == 4)
  r.type != 0 && (
    !r.formOk || r.gran == 3 || r.size == 0 || decide ((if r.sram then 256 else 1024) < r.base + r.size) ||
    (r.wp && !(r.type == 1 || r.type == 2)) || !regionZeros (slice img (0x40 + 16 * n) 16) ||
    (decide (3 ≤ r.type ∧ r.type ≤ 5) && earlier.any (fun x => x.type == r.type)) ||
    earlier.any (fun x => r.overlaps x) ||
    (r.type == 3 && desc.isNone) ||
    (r.type == 4 && (match cell with | some c => decide (16 * r.size < c.size) | none => true)))

/-! ### The table record (R199, R200) -/

/-- `n` bytes from `a` lie within one TABLE region; with `sram`, one in stack SRAM. -/
def inTable (img : List Byte) (sram : Bool) (a n : Nat) : Bool :=
  (imgRegions img).any (fun p => p.2.type == 2 && (!sram || p.2.sram) && decide (p.2.start ≤ a) && decide (a + n ≤ p.2.start + p.2.bytes))

def emOk (img t : List Byte) : Bool :=
  let k := tdKsize t
  let r := tdRsize t
  let c := tdCount t
  decide (4 ≤ k ∧ k ≤ 40) && k % 4 == 0 && (r == 0 || r == 4 || r == 8 || r == 16) && tdLevels t == 0 &&
    decide (16 ≤ c ∧ c ≤ 2 ^ 28) && (c &&& (c - 1)) == 0 && tdSeed1 t != tdSeed2 t && zeroAt t 24 40 &&
    inTable img false (tdBase t) (c * (4 * emEntry t))

/-- Level `k` of an LPM descriptor, 2 to 6. -/
def lpmLevelOk (img t : List Byte) (k : Nat) : Bool :=
  if k ≤ tdLevels t then
    decide (1 ≤ tdStride t k ∧ tdStride t k ≤ 16) && tdLbase t k % 64 == 0 && decide (1 ≤ tdNodes t k ∧ tdNodes t k ≤ 2 ^ 22) &&
      inTable img false (tdLbase t k) (lpmExtent t k)
  else tdStride t k == 0 && tdLbase t k == 0 && tdNodes t k == 0

def lpmOk (img t : List Byte) : Bool :=
  let k := tdKsize t
  let v := tdLevels t
  (k == 4 || k == 8 || k == 16) && tdRsize t == 4 && decide (1 ≤ v ∧ v ≤ 6) && tdCount t == 0 && zeroAt t 22 2 &&
    decide (1 ≤ tdStride t 1 ∧ tdStride t 1 ≤ 20) && decide (((List.range v).map (fun j => tdStride t (j + 1))).sum ≤ 8 * k) &&
    inTable img true (tdBase t) (lpmExtent t 1) && [2, 3, 4, 5, 6].all (lpmLevelOk img t)

def countOk (img t : List Byte) : Bool :=
  tdKsize t == 0 && tdRsize t == 0 && tdLevels t == 0 && decide (1 ≤ tdCount t) && zeroAt t 16 48 &&
    inTable img false (tdBase t) (tdCount t * (if tdKind t = 3 then 16 else 64))

/-- A descriptor meets R200. -/
def tdValid (img t : List Byte) : Bool :=
  tdKind t == 0 ||
    (decide (leAt t 0 1 < 16) && zeroAt t 9 3 && tdBase t % 64 == 0 &&
      (match tdKind t with
       | 1 => emOk img t
       | 2 => lpmOk img t
       | 3 | 4 => countOk img t
       | _ => false))

/-! ### The queue and regulation records (R170, R191, R260, R356, R358) -/

/-- An assignment entry: FIRST, COUNT and PROFILE. -/
def imgAssign (img : List Byte) (i : Nat) : Nat × Nat × Nat :=
  let e := slice img (0x3E90 + 8 * i) 8
  (leAt e 0 4, leAt e 4 3, leAt e 7 1)

/-- The first fault of the queue record: entry and queue. -/
def queueBad (img : List Byte) : Option (Nat × Nat) :=
  if img.length ≠ 16208 + 8 * imgAssigns img then some (0xFFFF, 0)
  else
    match (List.range 256).find? (fun n => let p := (imgProfile img n).parkUs; decide (p < 1 ∨ 524 < p)) with
    | some n => some (n, 0)
    | none =>
      match (List.range (imgAssigns img)).find? (fun i => let a := imgAssign img i; a.2.1 == 0 || decide (131072 < a.1 + a.2.1)) with
      | some i => let a := imgAssign img i; some (i, if a.2.1 = 0 then a.1 else max a.1 131072)
      | none => none

/-- Reservation `n` breaks R260 or R358. -/
def rsvBad (img : List Byte) (n : Nat) : Bool :=
  let e := slice img (0xE10 + 16 * n) 16
  let w := leAt e 8 4
  let r := imgRsv img n
  if r.valid then
    bits w 22 2 != 0 || bits w 27 4 != 0 || !zeroAt e 12 4 || decide (r.rate < 1 ∨ 3355443 < r.rate) || r.chipid == 0 || r.chipid == 2 ^ 64 - 1 ||
      (List.range n).any (fun m => let x := imgRsv img m; x.valid && x.chipid == r.chipid && x.tc == r.tc)
  else !allZero e

/-- The first fault of the regulation record. -/
def regBad (img : List Byte) : Option Nat :=
  if imgShare img < 10 ∨ 200 < imgShare img ∨ !zeroAt img 0xE02 14 then some 0xFFFF
  else (List.range 256).find? (rsvBad img)

/-- The record refusal of R329: status and result. -/
def recordsBad (img : List Byte) : Option (Nat × List Byte) :=
  let res := fun (t e q : Nat) => leBytes 2 t ++ leBytes 2 e ++ leBytes 4 q
  match (List.range 32).find? (regionBad img) with
  | some n => some (0x0301, res 1 n 0)
  | none =>
    match (List.range 64).find? (fun n => !tdValid img (imgTd img n)) with
    | some n => some (0x0302, res 2 n 0)
    | none =>
      match queueBad img with
      | some (e, q) => some (0x0303, res 3 e q)
      | none => (regBad img).map (fun e => (0x0304, res 4 e 0))

/-- The signature of an image of announced length `len` is valid (R355). -/
def Dev.imageSigned (d : Dev) (f : Fuses) (img : List Byte) (len : Nat) : Bool :=
  leAt img 0 4 == 0x43464731 && leAt img 4 2 == 1 && leAt img 12 4 == len && decide (192 ≤ len) &&
    (d.sigCheck f (leAt img 6 1) 1 (slice img (len - 192) 96) (slice img (len - 96) 96) (img.take (len - 96))).isSome

/-! ### What changes between two images -/

/-- Regions equal but for WP (R157). -/
def Region.sameLayout (a b : Region) : Bool := { a with wp := false } == { b with wp := false }
/-- Regions equal but for SIZE and WP. -/
def Region.sameButSize (a b : Region) : Bool := { a with wp := false, size := 0 } == { b with wp := false, size := 0 }

/-- The change from one layout to another may be made in SERVICE (R157). -/
def hitless (old new : List Byte) : Bool :=
  (List.range 32).all (fun n =>
    let a := imgRegion old n
    let b := imgRegion new n
    (a.type == 0 && b.type == 0) || (a.type != 0 && a.sameLayout b) ||
      (a.type == 0 && (b.type == 1 || b.type == 2) && (List.range 32).all (fun m => !(imgRegion old m).overlaps b)))
/-- A rollback may be made in SERVICE (R329). -/
def hitlessBack (old new : List Byte) : Bool := hitless old new || hitless new old

/-- Record types that differ (R368, CHANGED). -/
def changedMask (old new : List Byte) : Nat :=
  let ne := fun (k : Nat) (f : Nat → Bool) => (List.range k).any f
  b2n (ne 32 (fun n => imgRegion old n != imgRegion new n)) +
    2 * b2n (ne 64 (fun n => imgTd old n != imgTd new n)) +
    4 * b2n (ne 256 (fun n => imgProfile old n != imgProfile new n) || ne 16 (fun n => imgNotify old n != imgNotify new n) ||
      imgAssigns old != imgAssigns new || ne (imgAssigns new) (fun i => imgAssign old i != imgAssign new i)) +
    8 * b2n (imgShare old != imgShare new || ne 256 (fun n => imgRsv old n != imgRsv new n)) +
    16 * b2n (ne 64 (fun n => (if old.isEmpty then 0 else leAt old (0x240 + 8 * n) 8) != (if new.isEmpty then 0 else leAt new (0x240 + 8 * n) 8))) +
    32 * b2n (ne 18 (fun n => imgOct old n != imgOct new n)) +
    64 * b2n (ne 144 (fun n => imgPort old n != imgPort new n))

/-- Pins that R357 ignores. -/
def pinsIgnored (img : List Byte) : Nat :=
  if img.isEmpty then 0
  else ((List.range 64).filter (fun n => leAt img (0x240 + 8 * n) 8 != 0 && imgPin img n == 0)).length

end Sys2Proof.Machine
end

