-- ==== Sys2Proof/Machine/Cfg.lean ====
section
/-!
DEFINITION. Configuration generations (R157, R158, R328, R329, R357 to R368): how an image takes effect, the slots, staging,
commit, confirmation and rollback.
-/
namespace Sys2Proof.Machine

/-! ### Layout and queues (R14, R157, R158, R171) -/

/-- Regions whose storage a layout change clears: new or changed ones, but for CELL and DESC that change only SIZE. -/
def clearedRegions (old new : List Byte) : List Region :=
  (List.range 32).filterMap (fun n =>
    let b := imgRegion new n
    let kept := if b.type = 3 ∨ b.type = 4 then b.sameButSize (imgRegionOfType old b.type) else b.sameLayout (imgRegion old n)
    if b.type != 0 && !kept then some b else none)

/-- DRAM block `b` lies in a band of one of the regions. -/
def blockIn (rs : List Region) (b : Nat) : Bool :=
  rs.any (fun r => !r.sram && decide (r.base * 256 ≤ b % 262144 ∧ b % 262144 < (r.base + r.size) * 256))
/-- SRAM word `w` lies in one of the regions. -/
def wordIn (rs : List Region) (w : Nat) : Bool := rs.any (fun r => r.sram && decide (r.start ≤ 8 * w ∧ 8 * w < r.start + r.bytes))

/-- Storage of a block that a region no longer uses. -/
def Dev.blockDrop (d : Dev) (t : Nat) : Dev := d.modMem (fun m => { m with
  blkValid := tabSet (fun _ => false) m.blkValid t false
  fills := m.fills.filter (fun x => x.blk != t)
  poison := m.poison.filter (fun u => u / 64 != t)
  dErr := m.dErr.filter (fun e => e.1 / 64 != t) })

/-- An evacuated block of an unchanged region whose EVAC block the new layout takes away: it moves to a free EVAC block, or is LOST where none
is left (DESIGN CHOICE, log 130). -/
def Dev.evacRehome (d : Dev) (e : Nat × Nat) : Dev :=
  let t := e.2 - 1
  match d.evacTarget d.xfer.evacPtr with
  | some (n, p) =>
    let d1 := if d.blkValid t then (List.range 64).foldl (fun (a : Dev) i => (a.copyUnit (4096 * t + 64 * i) (4096 * n + 64 * i)).1) d else d
    let d2 := (d1.blockDrop t).modMem (fun m => { m with evac := tabSet (fun _ => 0) m.evac e.1 (n + 1) })
    { d2 with xfer := { d2.xfer with evacPtr := p } }
  | none =>
    (((d.blockDrop t).modMem (fun m => { m with evac := tabSet (fun _ => 0) m.evac e.1 0, lost := m.lost ++ [e.1] })).raise0 182
      { kind := 5, inst := e.1 / 262144, a := e.1 % 262144 * 4096, b := e.1 % 262144 * 4096 + 4095 }).orCsr 0 bGraft 0x320 4

/-- The image in force has changed its layout from `old` (R158, R159): storage is invalid where a region is new or changed, blocks of it are
no longer redirected, evacuated blocks of unchanged regions stay so, and the regions on retired channels are mapped anew. -/
def Dev.layoutApply (d : Dev) (old : List Byte) : Dev :=
  let rs := clearedRegions old d.image
  let data := rs.filter (fun r => r.type != 5)
  let ev := imgRegionOfType d.image 5
  let stays := fun (e : Nat × Nat) => !blockIn data e.1 && d.rawBlock (e.1 / 262144) e.1
  let held := (d.mem.evac.filter stays).map (fun e => e.2 - 1)
  let gone := (d.mem.evac.filter (fun e => !stays e)).map (fun e => e.2 - 1)
  let keep := fun (b : Nat) => held.contains b || (!blockIn rs b && !gone.contains b)
  let d0 := d.modMem (fun m => { m with
    evac := m.evac.filter stays
    blkValid := m.blkValid.filter (fun e => keep e.1)
    fills := m.fills.filter (fun x => keep x.blk)
    poison := m.poison.filter (fun u => keep (u / 64))
    dErr := m.dErr.filter (fun e => keep (e.1 / 64))
    wordValid := m.wordValid.filter (fun e => !wordIn rs e.1) })
  let d1 := (d0.mem.evac.filter (fun e => !blockIn [ev] (e.2 - 1))).foldl (fun (a : Dev) e => a.evacRehome e) d0
  let d2 := (List.range 64).foldl (fun (a : Dev) c => if a.retired c then a.mapRetired c else a) d1
  Dev.reserveReport { d with cfg := { d.cfg with active := { d.cfg.active with bytes := old } } } d2

/-- Channels in service. -/
def Dev.liveChans (d : Dev) : Nat := ((List.range 64).filter (fun c => !d.retired c)).length

/-- The totals after a commit or rollback (R14), with a TOTALS event of cause 1; in MAINT the census is off, and the entry
to SERVICE sets them (R13). -/
def Dev.totalsApply (d : Dev) : Dev :=
  let cells := d.cellNominal / 64 * d.liveChans
  let slots := d.unitNominal / 64 * d.liveChans * 4
  if d.clk.censusOff || (cells == d.qm.cellTotal && slots == d.qm.descTotal) then d
  else
    let dc : Int := (cells : Int) - d.qm.cellTotal
    let ds : Int := (slots : Int) - d.qm.descTotal
    (d.modQm (fun q => { q with
      cellTotal := cells, cellFree := q.cellFree + cells - q.cellTotal
      descTotal := slots, descFree := q.descFree + slots - q.descTotal })).totalsEvent 1 dc ds

/-- Queues whose profile changed, by number or in contents, take WM_ARMED from their OCC (R171). -/
def Dev.profilesApply (d : Dev) (old : List Byte) : Dev :=
  let new := d.image
  let profs := fun (img : List Byte) => (List.range 256).map (imgProfile img)
  let runs := fun (img : List Byte) => (List.range (imgAssigns img)).map (imgAssign img)
  let pick := fun (rs : List (Nat × Nat × Nat)) (q : Nat) => rs.foldl (fun acc a => if a.1 ≤ q ∧ q < a.1 + a.2.1 then a.2.2 else acc) 0
  let po := profs old
  let pn := profs new
  let ro := runs old
  let rn := runs new
  d.modQm (fun m => { m with queue := (List.range 131072).filterMap (fun q =>
    let y := tabGet (fun _ => {}) m.queue q
    let n := pick rn q
    let y' := if pick ro q = n ∧ po.getD n {} = pn.getD n {} then y else { y with wmArmed := decide (y.occ < (pn.getD n {}).qwm) }
    if y' = {} then none else some (q, y')) })

/-! ### Lanes and ports (R357, R363) -/

/-- The configured port holds a lane of one of the octets. -/
def Dev.portOn (d : Dev) (os : List Nat) (n : Nat) : Bool :=
  d.portWidth n != 0 && os.any (fun o => decide (8 * o < n + d.portWidth n) && decide (n < 8 * o + 8))

/-- An octet entry is written; answers one where it is ignored. -/
def Dev.octApply (s : Nat × Dev) (o v : Nat) : Nat × Dev :=
  let d := s.2
  if 4 < v % 8 || !(List.range 8).all (fun i => (d.lane (8 * o + i)).st == .off) then (s.1 + 1, d.octCfg (8 * o) v)
  else (s.1, d.octCfg (8 * o) v)

/-- A port entry is written, in a port in state OFF; answers one where it is ignored. -/
def Dev.portApply (s : Nat × Dev) (n : Nat) (e : List Byte) : Nat × Dev :=
  let d := s.2
  let v := leAt e 0 4
  let a := leAt e 4 4
  let b := leAt e 8 4
  let put := fun (d : Dev) (v : Nat) =>
    ((d.setCsr n bPort 0x10 (word (clearBits v 1))).setCsr n bPort 0x20 (word a)).setCsr n bPort 0x24 (word b)
  if bits v 1 5 = 0 then (s.1, put d 0)
  else if !portCfgRange v then (s.1 + 1, d)
  else if d.portClash n v || !poolsOk (bits v 1 5) a b then (s.1 + 1, d.orCsr n bPort 0x1C 128)
  else (s.1, if v % 2 = 1 then (put d v).portEnable n else put d v)

/-- The lane and port records take effect against those of `old`: entries ignored, and the device. Ports that end without
lanes are written first. -/
def Dev.linksApply (d : Dev) (old : List Byte) : Nat × Dev :=
  let new := d.image
  let os := (List.range 18).filter (fun o => imgOct old o != imgOct new o)
  let off := allPorts.filter (fun n => d.portOn os n && (d.port n).st != .off)
  let d1 := off.foldl (fun (a : Dev) n => a.portDisable n) d
  let s1 := os.foldl (fun s o => Dev.octApply s o (imgOct new o)) ((0 : Nat), d1)
  let ps := allPorts.filter (fun n => imgPort old n != imgPort new n || off.contains n)
  let d2 := ps.foldl (fun (a : Dev) n => if (a.port n).st == .off then a else a.portDisable n) s1.2
  let none_ := ps.filter (fun n => bits (leAt (imgPort new n) 0 4) 1 5 == 0)
  let some_ := ps.filter (fun n => bits (leAt (imgPort new n) 0 4) 1 5 != 0)
  let s2 := (none_ ++ some_).foldl (fun s n => Dev.portApply s n (imgPort new n)) (s1.1, d2)
  (s2.1, s2.2.settle)

/-- An image takes effect in place of the one in force (R361, step 3; R363): record types changed, entries ignored. -/
def Dev.imageApply (d : Dev) (s : Slot) : Nat × Nat × Dev :=
  let old := d.image
  let m := changedMask old s.bytes
  let d1 := d.modCfg (fun c => { c with active := s })
  let d2 := if bit m 0 then (d1.layoutApply old).totalsApply else d1
  let d3 := if bit m 2 then d2.profilesApply old else d2
  let r := d3.linksApply old
  (m, r.1 + (if bit m 4 then pinsIgnored s.bytes else 0), r.2)

/-! ### Slots and their record (R359, R360) -/

def Slot.entry (s : Slot) : SlotEntry := { present := s.present, area := s.area, gen := s.gen, length := s.length, crc := s.crc }

/-- Write the slot record. -/
def Dev.cfgRecPut (d : Dev) (pending : Bool) : Dev :=
  d.slotRecPut { a := d.cfg.active.entry, p := d.cfg.previous.entry, pending := pending, owner := d.cfg.owner }

/-- The flash area that neither ACTIVE nor PREVIOUS holds. -/
def Dev.freeArea (d : Dev) : Nat :=
  let used := fun (s : Slot) (n : Nat) => s.present && s.length != 0 && s.area == n
  ((List.range 3).find? (fun n => !used d.cfg.active n && !used d.cfg.previous n)).getD 0

/-- The CONFIG event (R368), with CFG_EVENT.IGNORED. -/
def Dev.cfgEvent (d : Dev) (reason owner changed ignored : Nat) : Dev :=
  let c := d.cfg
  let d1 := if ignored = 0 then d else d.orCsr 0 bConfig 0x40 32
  d1.postAll d.owners 0x60 ([byte reason, byte owner, byte changed, byte (min 255 ignored)] ++ leBytes 4 c.active.gen ++
    leBytes 4 (if c.previous.present then c.previous.gen else 0) ++ List.replicate 4 0 ++
    leBytes 8 (if c.st == .pending then c.deadline else 0))

/-! ### Staging (R329) -/

/-- A commit or rollback is in progress. -/
def Dev.cfgBusy (d : Dev) : Bool := d.cfg.st == .committing || d.cfg.st == .rollingBack
/-- The session of the other owner is open. -/
def Dev.sesOther (d : Dev) (o : Nat) : Bool := match d.cfg.session with | some x => x != o | none => false

/-- CFG_BEGIN: STAGED is emptied and a session opens. What its bytes hold before they are written is not given. -/
def Dev.cfgBegin (d : Dev) (o i : Nat) : Dev :=
  if d.cfgBusy || (d.sesOther o && o != 64) then d.fin o i 0x0F05 []
  else
    let p := d.par o i
    let (v, d1) := d.draw
    (d1.modCfg (fun c => { c with
      staged := { gen := leAt p 0 4, length := leAt p 4 4, bytes := leBytes (leAt p 4 4) v }, checked := false
      session := some o, sesGen := leAt p 0 4, sesLen := leAt p 4 4, sesBytes := [] })).fin o i 0 []

def Dev.cfgWrite (d : Dev) (o i : Nat) : Dev :=
  let p := d.par o i
  let off := leAt p 0 4
  let bs := p.drop 8
  if d.cfgBusy || d.sesOther o then d.fin o i 0x0F05 []
  else if d.cfg.session.isNone then d.fin o i 0x030C []
  else
    (d.modCfg (fun c => { c with
      staged := { c.staged with present := true, bytes := c.staged.bytes.take off ++ bs ++ c.staged.bytes.drop (off + bs.length) }
      sesBytes := (List.range bs.length).foldl (fun t j => tabSet (fun _ => 0) t (off + j) 1) c.sesBytes })).fin o i 0 []

/-- CFG_END: the checks of R329 in their order. -/
def Dev.cfgEnd (d : Dev) (f : Fuses) (o i : Nat) : Dev :=
  let img := d.cfg.staged.bytes
  let crc := leAt (d.par o i) 0 4
  if d.cfgBusy || d.sesOther o then d.fin o i 0x0F05 []
  else if d.cfg.session.isNone || d.cfg.sesBytes.length != d.cfg.sesLen then d.fin o i 0x030C []
  else if crc32 img ≠ crc then d.fin o i 0x0307 []
  else
  let signed := d.imageSigned f img d.cfg.sesLen
  let d := d.keyReads f (leAt img 6 1) 1
  if !signed then d.fin o i 0x0308 []
  else if leAt img 8 4 ≠ d.cfg.sesGen ∨ leAt img 8 4 ≤ d.cfg.active.gen then d.fin o i 0x0309 []
  else match recordsBad img with
    | some (st, res) => d.fin o i st res
    | none =>
      (d.modCfg (fun c => { c with checked := true, session := none, staged := { c.staged with crc := crc } })).fin o i 0
        (leBytes 2 (popCount (changedMask d.image img) 7) ++ [byte (b2n (!hitless d.image img)), 0])

/-- CFG_READ: bytes of a slot up to its end. -/
def Dev.cfgRead (d : Dev) (o i : Nat) : List Byte :=
  let p := d.par o i
  let c := d.cfg
  let s := match leAt p 0 1 with
    | 0 => if c.staged.present then c.staged.bytes else []
    | 1 => c.active.bytes
    | _ => c.previous.bytes
  (s.drop (leAt p 4 4)).take (leAt p 8 2)

def Dev.cfgStatus (d : Dev) : List Byte :=
  let c := d.cfg
  let e := fun (s : Slot) (ok : Bool) =>
    if s.present then leBytes 4 s.gen ++ leBytes 4 s.length ++ leBytes 4 s.crc ++ [1, byte (b2n ok), 0, 0] else List.replicate 16 0
  e c.staged c.checked ++ e c.active true ++ e c.previous true ++ leBytes 8 (if c.st == .pending then c.deadline else 0) ++
    [byte c.owner] ++ List.replicate 7 0

/-! ### Commit (R329, R361) -/

/-- The limits of R158 on CELL and DESC that a change of layout breaks: CELL_SHRINK or QUEUES_NOT_EMPTY. Cells and slots queued, in flight or
in use all count. -/
def Dev.layoutLimit (d : Dev) (old new : List Byte) : Option Nat :=
  let one := fun (t per used : Nat) =>
    let a := imgRegionOfType old t
    let b := imgRegionOfType new t
    if a.sameLayout b then none
    else if a.type != 0 && a.sameButSize b then (if b.size * per * d.liveChans < used then some 0x030D else none)
    else if d.qm.cellFree == d.qm.cellTotal && d.qm.descFree == d.qm.descTotal then none
    else some 0x030E
  match one 3 4096 (d.qm.cellTotal - d.qm.cellFree) with
  | some st => some st
  | none => one 4 65536 (d.qm.descTotal - d.qm.descFree)

/-- The totals to which CELL and DESC shrink, in cells and units, where one of them does. -/
def shrinkOf (old new : List Byte) : Option (Nat × Nat) :=
  let a := (imgRegionOfType old 3).size
  let b := (imgRegionOfType new 3).size
  let x := (imgRegionOfType old 4).size
  let y := (imgRegionOfType new 4).size
  if b < a ∨ y < x then some (min a b * 262144, min x y * 1048576) else none

/-- In DRAIN the moves that a shrink requires begin (R185). -/
def Dev.shrinkBegin (d : Dev) (old new : List Byte) : Dev :=
  if d.clk.mode == .drain then
    (match shrinkOf old new with
     | some s => (d.modQm (fun q => { q with shrink := some s, moving := true })).movesEnd
     | none => d)
  else d
/-- A change of layout that needs DRAIN waits there for the moves of a shrink, and until every request stamped before it, and its queued
writes, have completed under the old layout (R361; the wait for the drain is a DESIGN CHOICE, log 129). -/
def Dev.layoutWaits (d : Dev) (new : List Byte) : Bool :=
  d.qm.moving || (d.clk.mode == .drain && !hitlessBack d.image new && !d.drained true)
def Dev.shrinkEnd (d : Dev) : Dev := d.movesEnd.modQm (fun q => { q with shrink := none })

/-- Checks 1 to 5 of CFG_COMMIT. -/
def Dev.commitRefusal (d : Dev) (o i : Nat) : Option Nat :=
  let new := d.cfg.staged.bytes
  if !d.cfg.checked then some 0x030C
  else if leAt (d.par o i) 0 4 ≠ d.cfg.staged.gen then some 0x0309
  else if d.cfg.st != .confirmed then some 0x0F05
  else if d.clk.mode == .service && !hitless d.image new then some 0x0306
  else d.layoutLimit d.image new

/-- A commit is refused after it has begun: nothing changes. -/
def Dev.commitStop (d : Dev) : Dev :=
  (d.modCfg (fun c => { c with st := .confirmed, pair := none })).modQm (fun q => { q with shrink := none, moving := false })

/-- Steps 3 to 6 of R361: the records take effect, the slot roles move, the confirm window opens. -/
def Dev.commitMake (d : Dev) (o i : Nat) : Dev :=
  let c := d.cfg
  let area := d.freeArea
  let d0 := ((d.shrinkEnd).flashErase (areaAt area) 0x40000).flashPut (areaAt area) c.staged.bytes
  let r := d0.imageApply { c.staged with area := area }
  let w := if c.window = 0 then 30 else c.window
  let d1 := r.2.2.modCfg (fun x => { x with
    st := .pending, pair := none, owner := o, commitDt := d.dt, deadline := d.dt + 1000000000 * w
    previous := if c.active.present then c.active else { present := true }, staged := {}, checked := false })
  let d2 := ((d1.cfgRecPut true).bump 0 bConfig 0x80 1).orCsr 0 bConfig 0x40 1
  let d3 := d2.cfgEvent 1 o r.1 r.2.1
  d3.fin o i 0 (leBytes 4 d3.cfg.active.gen ++ List.replicate 4 0 ++ leBytes 8 d3.cfg.deadline)

/-- Checks 6 and 7 of R329: status and result of the first that fails. -/
def Dev.commitTest (d : Dev) : Option (Nat × List Byte) :=
  match recordsBad d.cfg.staged.bytes with
  | some r => some r
  | none => let a := d.admission d.cfg.staged.bytes; if a.1 then none else some (0x0305, a.2)

/-- A failed admission test shows in REG_EVENT (R275). -/
def Dev.commitFail (d : Dev) (o i st : Nat) (res : List Byte) : Dev := (if st = 0x0305 then d.orCsr 0 bReg 0x50 4 else d).fin o i st res

/-- A commit that has begun goes on once its moves have ended; `ok`: the flash takes the image. Checks 6 and 7 are made
again at the commit DT. -/
def Dev.commitGo (d : Dev) (o i : Nat) (ok : Bool) : Dev :=
  if d.layoutWaits d.cfg.staged.bytes then d
  else if !ok then ((d.commitStop).raise0 172 {}).fin o i 0x0F06 []
  else match d.commitTest with
    | some (st, res) => (d.commitStop).commitFail o i st res
    | none => d.commitMake o i

def Dev.cfgCommit (d : Dev) (o i : Nat) (ok : Bool) : Dev :=
  if d.cfg.st == .committing then (if d.cfg.pair == some (8 * o + i) then d.commitGo o i ok else d)
  else match d.commitRefusal o i with
    | some st => d.fin o i st []
    | none =>
      match d.commitTest with
      | some (st, res) => d.commitFail o i st res
      | none =>
        let d1 := d.modCfg (fun c => { c with st := .committing, pair := some (8 * o + i), window := leAt (d.par o i) 4 2 })
        (d1.shrinkBegin d.image d.cfg.staged.bytes).commitGo o i ok

/-- CFG_CONFIRM (R364). -/
def Dev.cfgConfirm (d : Dev) (o i : Nat) : Dev :=
  if d.cfg.st != .pending || leAt (d.par o i) 0 4 != d.cfg.active.gen || decide (d.cfg.deadline ≤ (d.pair o i).stamp) then d.fin o i 0x030B []
  else
    let d1 := ((d.modCfg (fun c => { c with st := .confirmed })).cfgRecPut false).orCsr 0 bConfig 0x40 2
    (d1.cfgEvent 2 o 0 0).fin o i 0 []

/-! ### Rollback (R364, R365) -/

/-- The slot that a rollback puts in force: generation 0 leaves ACTIVE empty. -/
def Dev.rollSlot (d : Dev) : Slot := if d.cfg.previous.length = 0 then {} else d.cfg.previous

/-- What a rollback does to queued data that its layout has no place for: they are lost. -/
def Dev.rollLoses (d : Dev) : Bool := (d.layoutLimit d.image d.rollSlot.bytes).isSome

/-- A rollback begins. -/
def Dev.rollBegin (d : Dev) : Dev :=
  let d1 := d.modCfg (fun c => { c with st := .rollingBack })
  if d1.rollLoses then d1 else d1.shrinkBegin d1.image d1.rollSlot.bytes

/-- A rollback takes effect. -/
def Dev.rollMake (d : Dev) : Dev :=
  let c := d.cfg
  let d0 := if d.rollLoses then (d.shrinkEnd).emptyQueues else d.shrinkEnd
  let r := d0.imageApply d.rollSlot
  let d1 := r.2.2.modCfg (fun x => { x with
    st := .confirmed, pair := none, commitDt := d.dt, previous := {}, auto := false, back := false })
  let d2 := ((d1.cfgRecPut false).bump 0 bConfig 0x88 1).orCsr 0 bConfig 0x40 4
  let d3 := if c.auto then d2.bump 0 bConfig 0x90 1 else d2
  let d4 := if c.auto then d3.cfgEvent 4 100 r.1 r.2.1 else d3.cfgEvent 3 (match c.pair with | some p => p / 8 | none => 100) r.1 r.2.1
  let d5 := if c.back then d4.enterService 2 100 else d4
  match c.pair with
  | some p => d5.fin (p / 8) (p % 8) 0 (leBytes 4 d5.cfg.active.gen)
  | none => d5

/-- A rollback that has begun goes on once its moves, and the drain it needs, have ended. -/
def Dev.rollGo (d : Dev) : Dev :=
  if d.cfg.st != .rollingBack || d.layoutWaits d.rollSlot.bytes then d else d.rollMake

/-- CFG_ROLLBACK (R329). -/
def Dev.cfgRollback (d : Dev) (o i : Nat) : Dev :=
  if d.cfg.st == .rollingBack then d.rollGo
  else if d.cfg.st == .committing then d.fin o i 0x0F05 []
  else if !d.cfg.previous.present then d.fin o i 0x030A []
  else if d.clk.mode == .service && !hitlessBack d.image d.rollSlot.bytes then d.fin o i 0x0306 []
  else ((d.modCfg (fun c => { c with pair := some (8 * o + i), auto := false, back := false })).rollBegin).rollGo

/-- The automatic rollback may be made (R364, R323). -/
def Dev.autoDue (d : Dev) : Bool :=
  d.cfg.st == .pending && decide (d.cfg.deadline ≤ d.dt) && d.fwUp && d.clk.move.isNone &&
    (d.clk.mode == .maint || d.clk.mode == .service || d.clk.mode == .drain) && !d.confirmAhead && !d.exclAhead d.cfg.deadline

/-- AUTO_ROLLBACK: FS170; where the layout needs it, the device passes through DRAIN. -/
def Dev.autoRoll (d : Dev) : Dev :=
  if d.cfg.st == .rollingBack then (if d.fwUp then d.rollGo else d)
  else if !d.autoDue then d
  else
    let back := d.clk.mode == .service && !hitlessBack d.image d.rollSlot.bytes
    let d1 := ((d.raise0 170 {}).orCsr 0 bConfig 0x40 8).modCfg (fun c => { c with auto := true, back := back, pair := none })
    let d2 := if back then (d1.leaveService).setMode .drain 2 100 else d1
    (d2.rollBegin).rollGo

/-! ### The slots at boot (R366) -/

/-- A slot from its record: its image as the flash holds it, and whether it passes the checks of R366. -/
def Dev.slotLoad (d : Dev) (f : Fuses) (e : SlotEntry) : Bool × Slot :=
  if !e.present then (false, {})
  else if e.length = 0 then (true, { present := true })
  else
    let img := d.flashAt (areaAt e.area) e.length
    (crc32 img == e.crc && d.imageSigned f img e.length && (recordsBad img).isNone,
      { present := true, gen := e.gen, length := e.length, crc := e.crc, area := e.area, bytes := img })

/-- FS171, which names the slot: 0 the slot record, 1 ACTIVE, 2 PREVIOUS. -/
def Dev.bootCheck (d : Dev) (slot : Nat) : Dev := (d.raise0 171 { kind := 15, inst := slot }).orCsr 0 bConfig 0x40 16

/-- ACTIVE and PREVIOUS are established: the reason of the CONFIG event (0 none), the image to put in force. -/
def Dev.bootSlots (d : Dev) (f : Fuses) : Nat × Slot × Dev :=
  match d.slotRec? with
  | none => (7, {}, ((d.modCfg (fun c => { c with previous := {} })).bootCheck 0).cfgRecPut false)
  | some r =>
    let a0 := d.slotLoad f r.a
    let p0 := d.slotLoad f r.p
    let roll := r.pending
    let d1 := if roll then
        (((d.raise0 170 {}).orCsr 0 bConfig 0x40 12).bump 0 bConfig 0x88 1).bump 0 bConfig 0x90 1
      else d
    let a := if roll then (if r.p.present then p0 else (true, {})) else if r.a.present then a0 else (true, {})
    let p := if roll then (false, {}) else p0
    let take := fun (s : Slot) => if s.length = 0 then {} else s
    let (reason, act, prev, d2) : Nat × Slot × (Bool × Slot) × Dev :=
      if a.1 then (if roll then 5 else 0, take a.2, p, d1)
      else if p.1 then (6, take p.2, (false, {}), d1.bootCheck 1)
      else (7, {}, (false, {}), d1.bootCheck 1)
    let d3 := if prev.2.present && !prev.1 then d2.bootCheck 2 else d2
    let pv := if prev.1 then prev.2 else {}
    let d4 := d3.modCfg (fun c => { c with previous := pv, st := .confirmed, owner := r.owner, active := act })
    let d5 := if r.pending || act.entry != r.a || pv.entry != r.p then d4.cfgRecPut false else d4
    (reason, act, d5.modCfg (fun c => { c with active := {} }))

/-! ### Meanings -/

def execCfgBegin (o i : Nat) (s : State) : Host.Outcome State Fault Refusal := guardNext (slotOk o i) (fun d => d.cmd o i 0x0301 (fun d => d.cfgBegin o i)) s
def execCfgWrite (o i : Nat) (s : State) : Host.Outcome State Fault Refusal := guardNext (slotOk o i) (fun d => d.cmd o i 0x0302 (fun d => d.cfgWrite o i)) s
def execCfgEnd (o i : Nat) (s : State) : Host.Outcome State Fault Refusal := guardFuse (slotOk o i) (fun f d => d.cmd o i 0x0303 (fun d => d.cfgEnd f o i)) s
def execCfgRead (o i : Nat) (s : State) : Host.Outcome State Fault Refusal :=
  guardNext (slotOk o i) (fun d => d.cmd o i 0x0304 (fun d => d.fin o i 0 (d.cfgRead o i))) s
def execCfgStatus (o i : Nat) (s : State) : Host.Outcome State Fault Refusal :=
  guardNext (slotOk o i) (fun d => d.cmd o i 0x0305 (fun d => d.fin o i 0 d.cfgStatus)) s
def execCfgCommit (o i : Nat) (ok : Bool) (s : State) : Host.Outcome State Fault Refusal :=
  guardNext (slotOk o i) (fun d => d.cmd o i 0x0306 (fun d => d.cfgCommit o i ok)) s
def execCfgConfirm (o i : Nat) (s : State) : Host.Outcome State Fault Refusal := guardNext (slotOk o i) (fun d => d.cmd o i 0x0307 (fun d => d.cfgConfirm o i)) s
def execCfgRollback (o i : Nat) (s : State) : Host.Outcome State Fault Refusal := guardNext (slotOk o i) (fun d => d.cmd o i 0x0308 (fun d => d.cfgRollback o i)) s
def execAutoRollback (s : State) : Host.Outcome State Fault Refusal := guardNext true (fun d => d.autoRoll) s
/-- MODE_DRAIN_COMPLETE (R372): what waits for the drain goes on: a transition, a SHUTDOWN, an automatic rollback. -/
def execModeDrainComplete (s : State) : Host.Outcome State Fault Refusal :=
  guardFuse true (fun f d => let d1 := Dev.shutGo f d.moveTry; if d1.cfg.back && d1.fwUp then d1.rollGo else d1) s

end Sys2Proof.Machine
end

