-- ==== Sys2Proof/Machine/Groom.lean ====
section
/-!
DEFINITION. SRAM grooming (R245, R246, R248): the pass over the stack SRAM, the queue manager's state store and the internal
SRAM.
-/
namespace Sys2Proof.Machine

/-- The key of a stored SRAM error, from SPACE and place as R253 codes them. -/
def upsetKey (u : SramUpset) : Nat := if u.space = 1 then u.place else if u.space = 2 then internalBase + u.place else stateBase + u.place

/-- The bytes that one grooming read covers: 64 KiB of the stack SRAM (0 to 511) or of the state store (512 to 575), then the
internal SRAM, whose size is not given, then the response staging. Space, first key, length. -/
def groomSpan (n : Nat) : Nat × Nat × Nat :=
  if n < 512 then (1, 0x1000000000 + 0x10000 * n, 0x10000)
  else if n < 576 then (3, stateBase + 0x10000 * (n - 512), 0x10000)
  else if n = 576 then (2, internalBase, 0x1000000000)
  else (3, stateBase + stagingAt, 0x1000000000)

/-- Invert codeword bits of the staged byte that stands at place `n` of the fragments' bytes, in their order (DESIGN CHOICE, log 128: the
manual gives staging no places). -/
def upsetStaged : List Frag → Nat → Nat → List Frag
  | [], _, _ => []
  | f :: t, n, m =>
    if n < f.data.length then { f with errs := tabMod (fun _ => 0) f.errs n (fun e => e ^^^ m) } :: t
    else f :: upsetStaged t (n - f.data.length) m

/-- Bits that an upset has inverted in the bytes read; a user word whose valid bit is clear is not read. -/
def Dev.sramUpset (d : Dev) (span : Nat × Nat × Nat) (us : List SramUpset) : Dev :=
  us.foldl (fun (a : Dev) u =>
    let k := upsetKey u
    if u.space = span.1 && decide (span.2.1 ≤ k ∧ k < span.2.1 + span.2.2) && (k < 0x1001000000 → a.wordValid (k / 8)) then
      if u.space = 3 && decide (stagingAt ≤ u.place) then
        a.modTxn (fun t => { t with frags := upsetStaged t.frags (u.place - stagingAt) (u.mask % 2 ^ 13) })
      else a.modMem (fun m => { m with sErr := tabMod (fun _ => 0) m.sErr k (fun e => e ^^^ (u.mask % 2 ^ 13)) })
    else a) d

/-- An uncorrectable byte of the internal SRAM (R246). Which of its arrays holds the byte is not given: a free value decides
between the maps and the poison list (FS136), a telemetry record (discarded, FS133) and the rest, which firmware reloads. -/
def Dev.internalBad (d : Dev) : Dev :=
  let (v, d1) := d.draw
  if v % 3 = 0 then d1.raise0 136 {}
  else if v % 3 = 1 then
    ((d1.raise0 133 {}).orCsr 0 bEcc 0x40 4).modTelem (fun t => { t with
      ring := t.ring.map (fun e => if e.1 = (t.ring.map (·.1)).getD (v / 3 % t.ring.length) 0 then (e.1, { e.2 with bad := true }) else e) })
  else d1

/-- The staged bytes that wait to be sent, read as any demand read does. -/
def Dev.groomStaged (d : Dev) : Dev :=
  d.txn.frags.foldl (fun (a : Dev) f =>
    if f.begun || f.errs.isEmpty then a
    else
      let (a1, g) := a.stagedRead f 2
      a1.modTxn (fun t => { t with frags := t.frags.map (fun x => if x.id = f.id && x.fidx == f.fidx then g else x) })) d

/-- SRAM_GROOM_READ: the next bytes, in the pass's order. A pass that has ended waits for its period (R248). -/
def Dev.sramGroom (d : Dev) (us : List SramUpset) : Dev :=
  if d.ecc.sramDone || !d.groomsSram then d else
  let n := d.ecc.sramPtr
  let span := groomSpan n
  let d1 := d.sramUpset span us
  let keys := (d1.mem.sErr.map (·.1)).filter (fun k => decide (span.2.1 ≤ k ∧ k < span.2.1 + span.2.2))
  let d2 :=
    if n < 256 then keys.foldl (fun (a : Dev) k => (a.readSByte k 2 none).2.2) d1
    else if n < 512 then ((keys.map (fun k => (k - 0x1001000000) / 128)).eraseDups).foldl (fun (a : Dev) q =>
      let r := a.sramScan (0x1001000000 + 128 * q) 128 1 2
      if r.2 then r.1.freeze q 1 else r.1) d1
    else if n < 576 then ((keys.map (fun k => (k - stateBase) / 32)).eraseDups).foldl (fun (a : Dev) q =>
      let r := a.sramScan (stateBase + 32 * q) 32 3 2
      if r.2 then r.1.freeze q 2 else r.1) d1
    else if n = 576 then
      let r := d1.sramScan internalBase 0x1000000000 2 2
      if r.2 then r.1.internalBad else r.1
    else d1.groomStaged
  d2.modEcc (fun e =>
    if 577 ≤ n then { e with sramDone := true, sramBehind := false } else { e with sramPtr := n + 1 })

/-! ### Meanings -/

def execSramGroomRead (us : List SramUpset) (s : State) : Host.Outcome State Fault Refusal := guardNext true (fun d => d.sramGroom us) s

end Sys2Proof.Machine
end

