-- ==== Sys2Proof/Machine/Mgmt.lean ====
section
/-!
DEFINITION. The management port's frames and common command codes, and JTAG (R31, R474, R479, R480).
-/
namespace Sys2Proof.Machine

/-- Offset in the CSR range of a 40-bit address; past the range's end where the address lies outside it. -/
def csrOff (a : Nat) : Nat := if 0x1800000000 ≤ a then a - 0x1800000000 else 2 ^ 40

/-- The management port answers: the device is out of reset and its clock runs (R384). -/
def Dev.mgAlive (d : Dev) : Bool := d.pin.pwrgd && !d.pin.cold && d.clk.refOk

/-- Bus activity wakes the management island (R380); what the device returned. -/
def Dev.mgTouch (d : Dev) (nak : Bool) (out : List Byte) : Dev :=
  (d.modClk (fun c => { c with mgIdleAt := d.dt, mgStopped := false })).modMgmt (fun m => { m with nak := nak, out := out })

/-- A bit of MGMT_STATUS: 16 PEC_ERR, 17 FRAME_ERR, 18 ADDR_ERR. -/
def Dev.mgErr (d : Dev) (b : Nat) : Dev := d.orCsr 0 bGlobal 0x50 (2 ^ b)

/-- Writes of consecutive words; an access outside the CSR range ends the frame. -/
def Dev.mgWrites (d : Dev) (a : Nat) : List (List Byte) → Dev
  | [] => d
  | w :: ws =>
    let r := d.csrWrite 64 (csrOff a) (leAt w 0 4)
    if r.1 = .addr then d.mgErr 18 else (r.2.accRecord r.1 0).mgWrites (a + 4) ws

/-- The words of a byte string; trailing bytes short of 4 are left out. -/
def wordsOf (bs : List Byte) : List (List Byte) := (List.range (bs.length / 4)).map (fun i => slice bs (4 * i) 4)

/-- A write frame: CMD, ADDR, data and, with CMD[7], the PEC over ADDR and data (R479). -/
def Dev.mgWrite (d : Dev) (bytes : List Byte) : Dev :=
  if !d.mgAlive then d.modMgmt (fun m => { m with nak := true, out := [] })
  else
    let d1 := d.mgTouch false []
    let cmd := leAt bytes 0 1
    let pecOn := bit cmd 7
    let body := if pecOn then bytes.dropLast else bytes
    if body.length < 6 || !bit cmd 0 then d1.mgErr 17
    else if pecOn && pec (body.drop 1) != leAt bytes (bytes.length - 1) 1 then d1.mgErr 16
    else
      let data := body.drop 6
      let d2 := d1.mgWrites (leAt bytes 1 5) (wordsOf data)
      if data.length % 4 = 0 then d2 else d2.mgErr 17

/-- Reads of consecutive words: what is returned, `p` bytes of ADDR standing before each value in its PEC. -/
def Dev.mgReads (d : Dev) (p : Option (List Byte)) (a : Nat) : Nat → List Byte → Dev
  | 0, out => d.modMgmt (fun m => { m with out := out })
  | n + 1, out =>
    let tail := fun (v : List Byte) => match p with | some h => v ++ [byte (pec (h ++ v))] | none => v
    let r := d.csrRead 64 (csrOff a)
    if r.status = .addr then
      (d.mgErr 18).modMgmt (fun m => { m with out := out ++ (List.replicate (n + 1) (tail (List.replicate 4 0xFF))).flatten })
    else (r.dev.accRecord r.status r.value).mgReads p (a + 4) n (out ++ tail (leBytes 4 r.value))

/-- A read frame of `n` values: CMD and ADDR, then the values, each with its PEC when CMD[7] is 1. -/
def Dev.mgRead (d : Dev) (bytes : List Byte) (n : Nat) : Dev :=
  if !d.mgAlive then d.modMgmt (fun m => { m with nak := true, out := [] })
  else
    let d1 := d.mgTouch false []
    if bytes.length ≠ 6 || bit (leAt bytes 0 1) 0 then (d1.mgErr 17).modMgmt (fun m => { m with nak := true })
    else d1.mgReads (if bit (leAt bytes 0 1) 7 then some (slice bytes 1 5) else none) (leAt bytes 1 5) n []

/-! ### Common command codes -/

/-- A CCC: not answered while the port is stopped. -/
def Dev.ccc (d : Dev) (ok : Bool) (out : List Byte) (f : MgmtU → MgmtU) : Dev :=
  if d.mgAlive then (if ok then (d.mgTouch false out).modMgmt f else d.mgTouch true [])
  else d.modMgmt (fun m => { m with nak := true, out := [] })

/-- The provisional ID, most significant byte first. -/
def Dev.provId (d : Dev) : List Byte :=
  let p := bit d.otp.present 0
  let hi := (if p then bits d.otp.word2 16 15 * 2 else 0) + 1
  let lo := if p then d.otp.chipid % 2 ^ 32 else 0
  (leBytes 6 (hi * 2 ^ 32 + lo)).reverse

/-- GETSTATUS returns two bytes, which the manual does not give: free values. -/
def Dev.getStatus (d : Dev) : Dev :=
  if d.mgAlive && d.mgmt.dyn.isSome then (let (v, d1) := d.draw; d1.ccc true (leBytes 2 v) id) else d.ccc false [] id

/-! ### JTAG -/

/-- CSR_ACC (R480): the access that Update-DR starts; Capture-DR then shows its outcome. -/
def Dev.jtagAcc (d : Dev) (a : Nat) (v : Word) (wr : Bool) : Dev :=
  if !d.pin.pwrgd || d.pin.cold then d
  else
    let d0 := d.modPin (fun p => { p with trstN := true })
    if wr then
      let r := d0.csrWrite 65 (csrOff (a % 2 ^ 40)) v.toNat
      (r.2.accRecord r.1 0).modMgmt (fun m => { m with jStatus := r.1.code })
    else
      let r := d0.csrRead 65 (csrOff (a % 2 ^ 40))
      (r.dev.accRecord r.status r.value).modMgmt (fun m => { m with jStatus := r.status.code, jData := word r.value })

/-! ### Meanings -/

def execMgmtWriteFrame (bytes : List Byte) (s : State) : Host.Outcome State Fault Refusal := guardNext true (fun d => d.mgWrite bytes) s
def execMgmtReadFrame (bytes : List Byte) (n : Nat) (s : State) : Host.Outcome State Fault Refusal := guardNext true (fun d => d.mgRead bytes n) s
/-- ENTDAA: a device without CHIPID takes no part. -/
def execEntdaa (da : Nat) (s : State) : Host.Outcome State Fault Refusal :=
  guardNext true (fun d => d.ccc (d.mgmt.dyn.isNone && bit d.otp.present 0) (d.provId ++ [0, 0]) (fun m => { m with dyn := some (da % 128) })) s
def execSetdasa (da : Nat) (s : State) : Host.Outcome State Fault Refusal :=
  guardNext true (fun d => d.ccc d.mgmt.dyn.isNone [] (fun m => { m with dyn := some (da % 128) })) s
def execSetnewda (da : Nat) (s : State) : Host.Outcome State Fault Refusal :=
  guardNext true (fun d => d.ccc d.mgmt.dyn.isSome [] (fun m => { m with dyn := some (da % 128) })) s
def execRstdaa (s : State) : Host.Outcome State Fault Refusal := guardNext true (fun d => d.ccc true [] (fun m => { m with dyn := none })) s
def execGetpid (s : State) : Host.Outcome State Fault Refusal := guardNext true (fun d => d.ccc d.mgmt.dyn.isSome d.provId id) s
def execGetbcr (s : State) : Host.Outcome State Fault Refusal := guardNext true (fun d => d.ccc d.mgmt.dyn.isSome [0] id) s
def execGetdcr (s : State) : Host.Outcome State Fault Refusal := guardNext true (fun d => d.ccc d.mgmt.dyn.isSome [0] id) s
def execGetstatus (s : State) : Host.Outcome State Fault Refusal := guardNext true (fun d => d.getStatus) s
/-- ENEC and DISEC are accepted and have no effect. -/
def execEnec (s : State) : Host.Outcome State Fault Refusal := guardNext true (fun d => d.ccc true [] id) s
def execDisec (s : State) : Host.Outcome State Fault Refusal := guardNext true (fun d => d.ccc true [] id) s
def execCsrAcc (a : Nat) (v : Word) (wr : Bool) (s : State) : Host.Outcome State Fault Refusal := guardNext true (fun d => d.jtagAcc a v wr) s
/-- TRST_N low (R474): JTAG's select copies return to reset. -/
def execTrstNLow (s : State) : Host.Outcome State Fault Refusal :=
  guardNext true (fun d => ((d.clearSel 65).modPin (fun p => { p with trstN := false }))) s

end Sys2Proof.Machine
end

