-- ==== Sys2Proof/Machine/Boot.lean ====
section
/-!
DEFINITION. Power, reset and start-up (R30 to R40, R314, R366, R420, R435, R440, R444, R481, R488 to R493): the pins, the chip
reset, the ROM loader, the start of firmware and the boot command list.
-/
namespace Sys2Proof.Machine

/-! ### The chip reset (R39, R154, R420, R426, R481) -/

/-- Every register at its Reset column, every buffer empty, no storage valid. What is kept: the flash, the levels on the pins, the
keep-alive ring, damaged links and, across CRST, the fault log with LOG_CTRL and ERR_CTRL. -/
def Dev.chipReset (d : Dev) (cause source : Nat) (keepLog : Bool) : Dev :=
  let p := d.pin
  let c := d.clk
  let u := d.fault
  { pin := { pwrgd := p.pwrgd, resetN := p.resetN, trstN := p.trstN, cold := p.cold, straps := p.straps
             vprogBad := p.vprogBad, vprogOk := p.vprogOk, vprogUp := p.vprogUp, resetCause := cause, resetSource := source }
    clk := { ringOn := c.ringOn, ringSettled := c.ringSettled, ringFailed := c.ringFailed, ringCause := c.ringCause, ringPeriod := c.ringPeriod }
    fault := if keepLog then { log := u.log, logNext := u.logNext, logOvf := u.logOvf, errLow := u.errLow && !u.errRel, errCause := u.errCause } else {}
    mem := { badLink := d.mem.badLink }
    boot := { flash := d.boot.flash, wear := d.boot.wear }
    freeIx := d.freeIx }

/-! ### The ROM loader (R491, steps 1 to 6) -/

def Dev.hold (d : Dev) (code : Nat) : Dev := d.modPin (fun p => { p with bootHold := code })

/-- The frequency within ±10 % of which a measurement in kHz lies, as CLK_STATUS.REFCLK codes it (R30); 0: neither. -/
def refclkOf (khz : Nat) : Nat :=
  if 140625 ≤ khz ∧ khz ≤ 171875 then 1 else if 281250 ≤ khz ∧ khz ≤ 343750 then 2 else 0

/-- The boot header (R490): where it is wrong, single mode, 3-byte addressing and DIV 8. -/
def Dev.romHeader (d : Dev) : Dev :=
  let h := d.flashAt 0 12
  let div := leAt h 5 1
  if leAt h 0 4 == 0x48424631 && leAt h 8 4 == crc32 (h.take 8) && decide (2 ≤ div ∧ div ≤ 16) then
    d.modBoot (fun b => { b with quad := bit (leAt h 4 1) 0, addr4 := bit (leAt h 4 1) 1, div := div })
  else d.modBoot (fun b => { b with quad := false, addr4 := false, div := 8 })

/-- SEQ of the repair record; 0 before the first. -/
def Dev.repairSeqNow (d : Dev) : Nat := match d.repairRec with | some (_, b) => leAt b 4 4 | none => 0

/-- A shut-down test record is valid: its MAC verifies and it carries the device's CHIPID (R444). -/
def Dev.sdtGood (d : Dev) (f : Fuses) (r : List Byte) : Bool :=
  (match d.sdtKey f with
   | some key => slice r 64 32 == padTo 32 (Config.hmac256 key (r.take 64))
   | none => false) && leAt r 8 8 == d.otp.chipid

/-- The record lets the long test be skipped (R444). -/
def Dev.sdtSkips (d : Dev) (r : List Byte) : Bool :=
  leAt r 96 1 == 0xFF && leAt r 24 1 == 0 && leAt r 32 4 == d.repairSeqNow && (d.otp.lc == .provision || d.otp.lc == .field)

/-- The image is chosen (R314); no valid image holds the device. -/
def Dev.romChoose (d : Dev) (f : Fuses) : Dev :=
  let r := d.imgRec
  let r1 : ImgRec :=
    if !r.trial then r
    else if 2 ≤ r.boots + 1 then { active := 1 - r.active }
    else { r with boots := r.boots + 1 }
  let d1 := if d.imgRec?.isNone || r.trial then d.imgRecPut r1 else d
  if (d1.imgValid f r1.active).isSome then d1.modBoot (fun b => { b with chosen := some r1.active })
  else if (d1.imgValid f (1 - r1.active)).isSome then d1.modBoot (fun b => { b with chosen := some (1 - r1.active) })
  else d1.hold 4

/-- LONG_TEST_DECISION (R444): the record is judged and consumed. In END the test engine is refused (R467, DEDUCED). -/
def Dev.romJudge (d : Dev) (f : Fuses) (t : TestRes) : Dev :=
  let rec_ := d.sdtRec
  let b := match rec_ with | some (_, b) => b | none => []
  let good := rec_.isSome && d.sdtGood f b
  let skip := good && d.sdtSkips b
  let d1 := match rec_ with
    | some (n, _) => d.flashPut ((if n = 0 then 0x9000 else 0xA000) + 96) [0]
    | none => d
  let long := !skip && d.otp.lc != .ended
  let d2 := d1.modGraft (fun g => { g with
    sdtValid := good, longRan := long, sdtSeq := if good then leAt b 4 4 else 0
    sdtOutcome := if good then leAt b 24 1 else 0})
  let d3 := d2.modBoot (fun x => { x with test := t, testSet := if d.otp.lc == .ended then 0 else if long then 0x3FF else 0x14 })
  let d4 := if good || skip then d3 else d3.raise0 184 {}
  d4.romChoose f

/-- SHUT_C less 10 °C, in 1/16 °C: at or above it the ROM loader waits (R403). -/
def Dev.heatLimit (d : Dev) : Int := 16 * (d.cfgFld 0 bThermal 0x10 24 8 : Int) - 160

/-- The heat check, and what follows it. -/
def Dev.romHeat (d : Dev) (f : Fuses) (b : BootEnv) : Dev := if d.heatLimit ≤ b.temp then d.hold 5 else (d.hold 0).romJudge f b.test

/-- The header and the fuses are read (R459, R490). -/
def Dev.romRead (d : Dev) (f : Fuses) (b : BootEnv) : Dev := ((((d.hold 0).romHeader).otpBoot f b.otpUnst).romHeat f b)

def Dev.romFlash (d : Dev) (f : Fuses) (b : BootEnv) : Dev := if b.flashOk then d.romRead f b else d.hold 3

/-- REFCLK is measured against the settled ring (R30). -/
def Dev.romMeasure (d : Dev) (f : Fuses) (khz : Nat) (b : BootEnv) : Dev :=
  if refclkOf khz = 0 then d.hold 1 else ((d.hold 0).modClk (fun c => { c with refclk := refclkOf khz })).romFlash f b

/-- The ROM loader begins: it waits for the ring (R38). -/
def Dev.romStart (d : Dev) (f : Fuses) (b : BootEnv) : Dev :=
  let d1 := (d.hold 0).modBoot (fun x => { x with chosen := none, env := none })
  if d1.clk.ringSettled then d1.romMeasure f b.khz b else d1.modBoot (fun x => { x with env := some b })

/-- A chip reset ends in BOOT; with `strap` RESET_N rises and the straps are sampled (R31). A programming window that it closes leaves VPROG
outside a programming step (R37, R462). -/
def Dev.resetTo (d : Dev) (f : Fuses) (cause source : Nat) (keepLog strap : Bool) (b : BootEnv) : Dev :=
  let d1 := (d.chipReset cause source keepLog).modPin (fun p =>
    if strap then { p with straps := b.straps % 8, resetN := true, cold := false } else p)
  let d2 := if d.pin.vprogUp && !d.pin.vprogBad then (d1.modPin (fun p => { p with vprogBad := true })).raise0 11 {} else d1
  d2.romStart f b

/-- The first entry to BOOT after power-up (R38): a ring that has failed holds the device. -/
def Dev.bootUp (d : Dev) (f : Fuses) (b : BootEnv) : Dev :=
  if !d.pin.pwrgd || !d.pin.cold then d
  else
    let d1 := (d.chipReset 0 0 false).modPin (fun p => { p with resetN := true, cold := false, straps := b.straps % 8 })
    if d.pin.bootHold = 2 then d1.hold 2 else d1.romStart f b

/-! ### The pins -/

/-- PWRGD_RISE (R38): power is up and the ring starts. -/
def Dev.pwrUp (d : Dev) : Dev :=
  if d.pin.pwrgd then d
  else ((d.chipReset 0 0 false).modPin (fun p => { p with pwrgd := true, cold := true, resetN := false })).ringStart 0

/-- PWRGD_FALL (R40): lanes stop, ERR_N and THERM_N are released, every layer is sent SRE; nothing else is kept. -/
def Dev.pwrDown (d : Dev) : Dev :=
  if !d.pin.pwrgd then d
  else (({ (d.chipReset 0 0 false) with clk := {} }).modPin (fun p => { p with pwrgd := false, cold := true, resetN := false })).sreTrip

/-- RESET_N_LOW (R39): a low level of `ns` and the rise that ends it, also where RESET_N has been high since power-up and the ring holds the
device (R492). Between 100 ns and 1 µs a free value decides. -/
def Dev.resetLow (d : Dev) (f : Fuses) (ns : Nat) (b : BootEnv) : Dev :=
  if !d.pin.pwrgd || ns < 100 then d
  else if ns < 1000 then (let (v, d1) := d.draw; if v % 2 = 0 then d1 else d1.resetTo f 1 0 false true b)
  else d.resetTo f 1 0 false true b

/-- RAIL_OUT_OF_TOLERANCE (R37): FS010 names rails 0 to 5; VPROG, rail 6, has a range of its own. -/
def Dev.railOut (d : Dev) (rail dir : Nat) : Dev :=
  if !d.pin.pwrgd then d
  else if rail = 6 then d.modPin (fun p => { p with vprogOk := false })
  else d.raise0 10 { kind := 12, inst := rail, a := dir }

/-- VPROG_HIGH (R37, R462): within the window VPROG is raised to program; outside it FS011. -/
def Dev.vprogHigh (d : Dev) : Dev :=
  if !d.pin.pwrgd then d
  else if d.otp.win.isSome then d.modPin (fun p => { p with vprogOk := true, vprogUp := true })
  else (d.modPin (fun p => { p with vprogBad := true, vprogOk := true, vprogUp := true })).raise0 11 {}

/-- VCORE_REQUEST_PUBLISH (R35, R325). -/
def Dev.vcorePublish (d : Dev) (mv : Nat) : Dev :=
  if 650 ≤ mv ∧ mv ≤ 850 ∧ mv % 5 = 0 ∧ mv ≠ d.pin.vreq then d.vcoreTo mv else d

/-- A reset that was asked for comes due (R325, R414); thermal shutdown wins over it (R403, R429). -/
def Dev.crstNow (d : Dev) (f : Fuses) (b : BootEnv) : Dev :=
  if due d.clk.crstAt d.dt && !d.therm.shut then d.resetTo f 2 0 true false b else d
def Dev.crstFault (d : Dev) (f : Fuses) (b : BootEnv) : Dev :=
  match d.fault.crst with
  | some (t, n) => if decide (t ≤ d.dt) && !d.therm.shut then d.resetTo f 3 n true false b else d
  | none => d

/-! ### Boot holds (R492) -/

def Dev.recheckRef (d : Dev) (f : Fuses) (khz : Nat) (b : BootEnv) : Dev := if d.pin.bootHold = 1 then d.romMeasure f khz b else d
def Dev.retryFlash (d : Dev) (f : Fuses) (ok : Bool) (b : BootEnv) : Dev := if d.pin.bootHold = 3 && ok then d.romRead f b else d
def Dev.recheckHeat (d : Dev) (f : Fuses) (b : BootEnv) : Dev := if d.pin.bootHold = 5 then d.romHeat f b else d
/-- The ring settles while the ROM loader waits for it (R38). -/
def Dev.ringSettled (d : Dev) (f : Fuses) (period : Nat) : Dev :=
  let d1 := d.ringSettle period
  match d1.boot.env with
  | some b => if d1.clk.ringSettled && d1.pin.bootHold = 0 then (d1.modBoot (fun x => { x with env := none })).romMeasure f b.khz b else d1
  | none => d1
/-- REFCLK_RETURN (R386): in BOOT the ROM loader starts again from its beginning. -/
def Dev.refReturn (d : Dev) (f : Fuses) (b : BootEnv) : Dev :=
  if d.clk.refOk then d
  else
    let d1 := d.refBack
    if d1.clk.mode == .boot && !d1.therm.shut && d1.pin.pwrgd && !d1.pin.cold then d1.romStart f b else d1

/-! ### Grafts at boot (R435, R440, R441, R455) -/

/-- Apply one repair-map entry. A later entry for the same link, signal or column overrides an earlier one. -/
def Dev.bootEntry (d : Dev) (v : Nat) : Dev :=
  let ty := bits v 28 4
  if ty = 1 then
    let c := bits v 22 6
    let l := bits v 16 6
    let n := bits v 13 3
    if 6 ≤ n ∨ 48 ≤ l then d
    else
      let d1 := match d.carrier c l with | some m => d.setSpare c m {} | none => d
      d1.setSpare c n { link := l, v := true, fused := true }
  else if ty = 2 then d.setTrunk (bits v 26 2) (bits v 21 5) { link := bits v 15 6, v := true, fused := true }
  else if ty = 3 then d.modGraft (fun g => { g with cols := g.cols.filter (fun w => bits w 4 24 != bits v 4 24) ++ [v] })
  else d

/-- Words of the repair-map regions that are present. -/
def Dev.bootEntries (d : Dev) (f : Fuses) : List Nat :=
  ((List.range 8).map (fun i => if bit d.otp.present (5 + i) then
    ((d.otpHot f (5 + i)).filter (fun k => k % 64 < 63)).map (fun k => (d.otpVal f k).toNat) else [])).flatten

/-- The entry of one channel in the repair record, at offset 16 + 8c. -/
def Dev.bootChan (b : List Byte) (d : Dev) (c : Nat) : Dev :=
  let o := 16 + 8 * c
  let d1 := (List.range 6).foldl (fun (a : Dev) n =>
    let w := leAt b (o + 1 + n) 1
    if bit w 6 then a.setSpare c n { link := w % 64, v := true, fused := bit w 7 || (a.spare c n).fused } else a) d
  let d2 := if bit (leAt b o 1) 1 then
      (d1.modCh c (fun x => { x with st := .degraded, failed := true })).modEvac c (fun e => { e with want := true })
    else d1
  if bit (leAt b o 1) 0 then (d2.modCh c (fun x => { x with st := .retired })).modEvac c (fun e => { e with want := false }) else d2

def Dev.bootTrunk (b : List Byte) (d : Dev) (k : Nat) : Dev :=
  let w := leAt b (528 + 2 * k) 2
  if bit w 15 then d.setTrunk (k / 32) (k % 32) { link := w % 64, v := true, fused := (d.trunk (k / 32) (k % 32)).fused } else d

def repairRow (b : List Byte) (r : Nat) : RowGraft :=
  let o := 784 + 8 * r
  { ch := leAt b o 1 % 64, bank := leAt b (o + 1) 1 % 64, row := leAt b (o + 2) 2 % 32768, spare := leAt b (o + 4) 1 % 32 }

/-- The repair record is taken. -/
def Dev.bootRepair (d : Dev) : Dev :=
  match d.repairRec with
  | none => d
  | some (n, b) =>
    let d1 := (List.range 64).foldl (Dev.bootChan b) d
    let d2 := (List.range 128).foldl (Dev.bootTrunk b) d1
    d2.modGraft (fun g => { g with rows := (List.range (leAt b 8 2)).map (repairRow b), repairSeq := leAt b 4 4, repairCopy := n })

/-- Grafts at boot, in the order of R435. -/
def Dev.bootGrafts (d : Dev) (f : Fuses) : Dev := ((d.bootEntries f).foldl Dev.bootEntry d).bootRepair

/-- The boot test: its failures are grafted, and what no graft mends is recorded (R442). -/
def Dev.bootTest (d : Dev) (f : Fuses) : Dev :=
  if d.boot.testSet = 0 then d
  else
    let s := d.selfTest f d.boot.testSet d.boot.test false
    s.2.testEnd (if bit d.boot.testSet 7 && !d.boot.test.cols.isEmpty then s.1 ||| 128 else s.1)

/-- The newest wear record (R447). -/
def Dev.bootWear (d : Dev) : Dev :=
  let newest := d.boot.wear.foldl (fun (m : Option (Nat × WearRec)) e =>
    match e.2, m with
    | some r, none => some (e.1, r)
    | some r, some x => if x.2.seq < r.seq then some (e.1, r) else m
    | none, _ => m) none
  d.modGraft (fun g => match newest with
    | some (n, r) => { g with
        stress := r.stress, trunkStress := r.trunkStress, subStress := r.subStress
        wearSector := (n + 1) % 16, wearSeq := r.seq, wearAt := d.dt, wearHour := d.dt }
    | none => { g with wearAt := d.dt, wearHour := d.dt })

/-! ### The boot command list (R490) -/

/-- Entries of the list: `n` of them have to fill the bytes exactly. -/
def listEntries : Nat → List Byte → Option (List (List Byte))
  | 0, bs => if bs.isEmpty then some [] else none
  | n + 1, bs =>
    let len := 16 + leAt bs 6 2
    let pad := (len + 3) / 4 * 4
    if bs.length < pad then none else (listEntries n (bs.drop pad)).map (fun t => bs.take len :: t)

/-- The list, empty where it is not valid. -/
def Dev.bootList (d : Dev) : List (List Byte) :=
  let h := d.flashAt 0x1000 16
  let len := leAt h 8 4
  if leAt h 0 4 != 0x48424C31 || decide (64 < leAt h 4 1) || decide (32752 < len) then []
  else
    let es := d.flashAt 0x1010 len
    if leAt h 12 4 != crc32 es then [] else (listEntries (leAt h 4 1) es).getD []

/-- Opcodes that the list may hold. -/
def listAllows (op : Nat) : Bool := [0x0101, 0x0102, 0x0201, 0x0307, 0x0901].contains op

/-- BOOT_LIST_ENTRY: the next entry goes to slot 0 of mailbox 65 once the one before it has been answered OK. -/
def Dev.listPost (d : Dev) : Dev :=
  let b := d.boot
  if !b.ready || !d.fwUp || (b.listWait && b.listStat.isNone) then d
  else if b.listWait && b.listStat != some 0 then d.modBoot (fun x => { x with list := [], listWait := false, listStat := none })
  else match b.list with
    | [] => d.modBoot (fun x => { x with listWait := false, listStat := none })
    | img :: rest =>
      let st := (d.pair 65 0).st
      if st != .free && !(st == .done && b.listWait) then d
      else
        let d1 := (d.modPair 65 0 (fun _ => {})).modBoot (fun x => { x with list := rest, listWait := true, listStat := none })
        let d2 := d1.postCmd 65 0 img none
        if (d2.pair 65 0).st == .posted && !listAllows (cmdOpcode img) then d2.respond 65 0 8 [] else d2

/-! ### Firmware starts (R314, R366, R491 steps 6 to 9) -/

/-- The generation slots are established and take effect (R366, R368). -/
def Dev.bootConfig (d : Dev) (f : Fuses) : Dev :=
  let s := d.bootSlots f
  let r := s.2.2.imageApply s.2.1
  let d1 := if s.1 = 0 then r.2.2 else r.2.2.cfgEvent s.1 100 r.1 r.2.1
  Dev.reserveReport d1 ((List.range 64).foldl (fun (a : Dev) c => if a.retired c then a.mapRetired c else a) d1)

/-- The image that was chosen runs, and the device enters MAINT. -/
def Dev.fwEnter (d : Dev) (n : Nat) : Dev :=
  let r := d.imgRec
  (d.modMbox (fun m => { m with
    fwState := 1, image := n == 1, ver := d.imgVer n, trial := r.trial && r.active == n, oldVer := d.imgVer (1 - n)
    confirmBy := none, actOwner := 64, wdog := some (d.dt + 1000000 * d.cfgFld 0 bMbox 0x10 0 10) })).setMode .maint 2 100

/-- The DRAM channels start: links trained, every refresh interval, grooming pass and gap period begins (R491, step 8). -/
def Dev.dramUp (d : Dev) : Dev := (List.range 64).foldl (fun (a : Dev) c => a.modCh c (fun x => { x with
  refAt := a.dt * 524288 + x.interval, groomStart := a.dt, groomMin := a.cfgFld 0 bEcc 0x10 0 16, trainAt := a.dt, lastGap := a.dt, idleAt := some a.dt })) d

/-- FIRMWARE_START. Outside BOOT it is the restart after a reset of Heartwood (R300). -/
def Dev.fwStart (d : Dev) (f : Fuses) : Dev :=
  if d.clk.mode != .boot then (if d.mbox.fwState = 3 then d.fwService else d)
  else if d.pin.bootHold != 0 || d.therm.shut || !d.clk.dtRun || !d.clk.refOk then d
  else match d.boot.chosen with
    | none => d
    | some n =>
      let d1 := (((((d.fwEnter n).bootGrafts f).bootTest f).dramUp).bootConfig f)
      (d1.bootWear).modBoot (fun b => { b with ready := true, list := d1.bootList, chosen := none })

/-! ### Meanings -/

def execPwrgdRise (s : State) : Host.Outcome State Fault Refusal := guardNext true (fun d => d.pwrUp) s
def execPwrgdFall (s : State) : Host.Outcome State Fault Refusal := guardNext true (fun d => d.pwrDown) s
def execResetNRise (b : BootEnv) (s : State) : Host.Outcome State Fault Refusal := guardFuse true (fun f d => d.bootUp f b) s
def execResetNLow (ns : Nat) (b : BootEnv) (s : State) : Host.Outcome State Fault Refusal := guardFuse true (fun f d => d.resetLow f ns b) s
/-- POWERUP_T2_REACHED (R38): RESET_N was high as PWRGD rose; t2 waits for the ring. -/
def execPowerupT2Reached (b : BootEnv) (s : State) : Host.Outcome State Fault Refusal :=
  guardFuse true (fun f d => if d.clk.ringSettled then d.bootUp f b else d) s
def execRailOutOfTolerance (rail dir : Nat) (s : State) : Host.Outcome State Fault Refusal := guardNext (railOk rail) (fun d => d.railOut rail dir) s
def execVprogHigh (s : State) : Host.Outcome State Fault Refusal := guardNext true (fun d => d.vprogHigh) s
/-- VPROG_SETTLED (R37): back within 0 to 0.3 V for 1 ms. -/
def execVprogSettled (s : State) : Host.Outcome State Fault Refusal :=
  guardNext true (fun d => d.modPin (fun p => { p with vprogBad := false, vprogOk := false, vprogUp := false })) s
def execVcoreRequestPublish (mv : Nat) (s : State) : Host.Outcome State Fault Refusal := guardNext true (fun d => d.vcorePublish mv) s
def execCrstApply (b : BootEnv) (s : State) : Host.Outcome State Fault Refusal := guardFuse true (fun f d => d.crstNow f b) s
def execFaultCrstDelay (b : BootEnv) (s : State) : Host.Outcome State Fault Refusal := guardFuse true (fun f d => d.crstFault f b) s
def execFirmwareStart (s : State) : Host.Outcome State Fault Refusal := guardFuse true (fun f d => d.fwStart f) s
def execBootListEntry (s : State) : Host.Outcome State Fault Refusal := guardNext true (fun d => d.listPost) s
def execRefclkRecheck (khz : Nat) (b : BootEnv) (s : State) : Host.Outcome State Fault Refusal := guardFuse true (fun f d => d.recheckRef f khz b) s
def execFlashRetry (ok : Bool) (b : BootEnv) (s : State) : Host.Outcome State Fault Refusal := guardFuse true (fun f d => d.retryFlash f ok b) s
def execHeatRecheck (b : BootEnv) (s : State) : Host.Outcome State Fault Refusal := guardFuse true (fun f d => d.recheckHeat f b) s
def execRefclkReturn (b : BootEnv) (s : State) : Host.Outcome State Fault Refusal := guardFuse true (fun f d => d.refReturn f b) s
def execRingSettle (period : Nat) (s : State) : Host.Outcome State Fault Refusal := guardFuse true (fun f d => d.ringSettled f period) s

end Sys2Proof.Machine
end

