-- ==== Sys2Proof/Machine/DramCmds.lean ====
section
/-!
DEFINITION. Meanings of the commands of the DRAM channels, data integrity's windows and the regulation unit.
-/
namespace Sys2Proof.Machine

/-- EPOCH_START (R263, R272, R273): once per epoch. -/
def execEpochStart (s : State) : Host.Outcome State Fault Refusal :=
  guardNext true (fun d => if d.reg.epoch < d.dt / 1024 then d.epochCompute else d) s

/-- RESCALE_GAP_END (R273): the changes held back are reported with the latest figures; to a partner, those of its own CHIPID. -/
def execRescaleGapEnd (o : Nat) (s : State) : Host.Outcome State Fault Refusal :=
  guardNext (ownerOk o) (fun d =>
    let l := tabGet (fun _ => ([] : List Nat)) d.reg.heldChg o
    if tabGet (fun _ => 0) d.reg.gapEnd o ≤ d.dt && !l.isEmpty then
      (d.modReg (fun r => { r with heldChg := tabSet (fun _ => []) r.heldChg o [] })).rescalePost o
        (l.filter (fun c => 64 ≤ o || d.partnerOf c == some o))
    else d) s

/-- ACCESS_HANDOVER (R264 to R267). A cell write that leaves its buffer makes room for the flits that wait for one (R84). -/
def execAccessHandover (c : Nat) (s : State) : Host.Outcome State Fault Refusal :=
  guardNext (chanOk c) (fun d => (d.handover c).enqDrainAll) s

/-- CONTROLLER_COMMAND_SLOT (R224). -/
def execControllerCommandSlot (c upset : Nat) (s : State) : Host.Outcome State Fault Refusal :=
  guardNext (chanOk c) (fun d => (d.commandSlot c upset).sreDrained c) s

/-- WRITE_AGE_EXPIRY (R226). -/
def execWriteAgeExpiry (c : Nat) (s : State) : Host.Outcome State Fault Refusal :=
  guardNext (chanOk c) (fun d => d.drainSync c) s

/-- REFRESH_DUE (R228): the debt never exceeds 8. -/
def execRefreshDue (c : Nat) (s : State) : Host.Outcome State Fault Refusal :=
  guardNext (chanOk c) (fun d =>
    let x := d.ch c
    if d.clk.mode != .boot && (x.st == .active || x.st == .degraded) && decide (x.refAt ≤ d.dt * 524288) && decide (x.debt < 8) then
      d.modCh c (fun x => { x with debt := x.debt + 1, refAt := x.refAt + x.interval })
    else d) s

/-- CATCHUP_END (R229). -/
def execCatchupEnd (c : Nat) (s : State) : Host.Outcome State Fault Refusal :=
  guardNext (chanOk c) (fun d =>
    if due (d.ch c).catchup d.dt then
      let nb := (d.ch c).nextBand
      let d1 := d.modCh c (fun x => { x with catchup := none, nextBand := none, band := x.nextBand.getD x.band })
      if nb.isSome then d1.orCsr c bDram 0x14 2 else d1
    else d) s

/-- Channels of a layer: those of DRAM layer k lie at 4k to 4k + 3; Dk is layer 1 + k + k div 4 (R20). -/
def layerChans (layer : Nat) : List Nat := (List.range 64).filter (fun c => 1 + c / 4 + c / 16 == layer)

/-- BAND_DOWN (R229): the lowest band the temperature has stayed below for HOLD_MS. -/
def execBandDown (layer : Nat) (s : State) : Host.Outcome State Fault Refusal :=
  guardNext (layerOk layer) (fun d =>
    (layerChans layer).foldl (fun (a : Dev) c =>
      let x := a.ch c
      let hold := a.cfgFld c bDram 0x38 8 8 * 1000000
      let old := fun (t : Option Nat) => match t with | some e => decide (e + hold ≤ a.dt) | none => false
      let b := if old x.b0Since then 0 else if old x.b1Since then 1 else 2
      if b < x.nextBand.getD x.band then a.bandDown c b else a) d) s

/-- SR_ACK_TIMEOUT (R234). -/
def execSrAckTimeout (c : Nat) (s : State) : Host.Outcome State Fault Refusal :=
  guardNext (chanOk c) (fun d => d.srAckTimeout c) s

/-- Drift bound of the keep-alive ring, in percent: CLOCK.RING_TOL_PCT, read-only (R383, R388). -/
def ringTolPct : Nat := 3

/-- PULSE (R232): paced at the band's interval, shortened by the ring's tolerance, only while the ring is the time reference and the layer is
in self-refresh. The layer's own timer waits for 1 µs after it. -/
def execPulse (c : Nat) (s : State) : Host.Outcome State Fault Refusal :=
  guardNext (chanOk c) (fun d =>
    if (d.ch c).st == .selfref && d.clk.dtSrc == .ring && decide ((d.ch c).pulseAt ≤ d.dt * 524288) then
      (d.advanceRef c).modCh c (fun x => { x with
        paced := true, lastPulse := some d.dt, layerAt := max x.layerAt ((d.dt + 1000) * 524288)
        pulseAt := max x.pulseAt (d.dt * 524288) + x.interval * (100 - ringTolPct) / 100 })
    else d) s

/-- LAYER_OWN_TIMER_REFRESH (R232): every 15.259 ns, with no pulse within the last 1 µs. -/
def execLayerOwnTimerRefresh (c : Nat) (s : State) : Host.Outcome State Fault Refusal :=
  guardNext (chanOk c) (fun d =>
    if (d.ch c).st == .selfref && !d.pacedNow c && decide ((d.ch c).layerAt ≤ d.dt * 524288) then
      (d.advanceRef c).modCh c (fun x => { x with paced := false, layerAt := x.layerAt + ownInterval })
    else d) s

/-- IDLE_GAP (R235). -/
def execIdleGap (c : Nat) (s : State) : Host.Outcome State Fault Refusal :=
  guardNext (chanOk c) (fun d =>
    let x := d.ch c
    if (x.st == .active || x.st == .degraded) && x.rdq.isEmpty && x.wrq.isEmpty && !d.inGap c &&
        x.idleAt.isSome && decide (x.idleAt.getD 0 + d.cfgFld c bDram 0x40 0 10 ≤ d.dt) then
      d.modCh c (fun x => { x with gap := some .idle, lastGap := d.dt })
    else d) s

/-- FORCED_GAP (R235): calibration is pending and no idle gap has come for PERIOD_US. -/
def execForcedGap (c : Nat) (s : State) : Host.Outcome State Fault Refusal :=
  guardNext (chanOk c) (fun d =>
    let x := d.ch c
    if (x.st == .active || x.st == .degraded) && (d.dom (162 + c)).pending && !d.inGap c &&
        decide (x.lastGap + 1000 * d.cfgFld c bDram 0x44 0 16 ≤ d.dt) then
      ((d.modCh c (fun x => { x with gap := some .forced, gapEnd := d.dt + d.cfgFld c bDram 0x40 16 10, lastGap := d.dt })).orCsr
        c bDram 0x14 0x40).bump c bDram 0x238 1
    else d) s

/-- FORCED_GAP_END (R235). -/
def execForcedGapEnd (c : Nat) (s : State) : Host.Outcome State Fault Refusal :=
  guardNext (chanOk c) (fun d =>
    let x := d.ch c
    if x.gap == some .forced && decide (x.gapEnd ≤ d.dt) then d.modCh c (fun x => { x with gap := none }) else d) s

/-- LINK_TRAINING (R236): in a gap, at a trigger or when PERIOD_MS has passed. -/
def execLinkTraining (c : Nat) (res : List LinkRes) (s : State) : Host.Outcome State Fault Refusal :=
  guardNext (chanOk c) (fun d =>
    let m := d.dom (162 + c)
    if d.inGap c && (m.pending || m.inRun || decide ((d.ch c).trainAt + 1000000 * d.cfgFld c bDram 0x48 0 16 ≤ d.dt)) then
      d.trainLinks c res
    else d) s

/-- MARK_WINDOW_END (R243). -/
def execMarkWindowEnd (c : Nat) (s : State) : Host.Outcome State Fault Refusal :=
  guardNext (chanOk c) (fun d => d.markRoll c) s

/-- ROW_WINDOW_END (R434). -/
def execRowWindowEnd (c : Nat) (s : State) : Host.Outcome State Fault Refusal :=
  guardNext (chanOk c) (fun d => d.rowRoll c) s

/-- CE_WINDOW_END (R252): of a channel, or of the SRAM (64). -/
def execCeWindowEnd (c : Nat) (s : State) : Host.Outcome State Fault Refusal :=
  guardNext (chanOrSramOk c) (fun d => d.ceRoll c) s

/-- Time a pass of grooming has run on a channel: the time paused in self-refresh does not count (R248). -/
def Dev.groomTime (d : Dev) (c : Nat) : Nat :=
  let x := d.ch c
  (if x.st == .selfref then x.srIn else d.dt) - x.groomStart

/-- GROOM_PERIOD_END (R249): a pass that has ended begins anew, with the period then in force (R257); one that has not is behind and goes
on. A pass that pauses in self-refresh, or a channel that does not groom, has no period to end (R248). -/
def execGroomPeriodEnd (c : Nat) (s : State) : Host.Outcome State Fault Refusal :=
  guardNext (chanOrSramOk c) (fun d =>
    if c = 64 then
      (if d.groomsSram && d.ecc.sramStart + 1000000000 * d.ecc.sramSec ≤ d.dt then
        (if d.ecc.sramDone then
          d.modEcc (fun e => { e with sramPtr := 0, sramStart := d.dt, sramDone := false, sramBehind := false
                                      sramSec := d.cfgFld 0 bEcc 0x10 16 16 })
        else if d.ecc.sramBehind then d
        else ((d.modEcc (fun e => { e with sramBehind := true })).raise0 137 {}).orCsr 0 bEcc 0x40 0x10)
      else d)
    else
      let x := d.ch c
      if d.groomsDram && (x.st == .active || x.st == .degraded) && !x.failed && decide (60000000000 * x.groomMin ≤ d.groomTime c) then
        (if (d.groomNext c).isSome then
          (if d.ecc.dramBehind.contains c then d
           else ((d.modEcc (fun e => { e with dramBehind := e.dramBehind ++ [c] })).raise0 137 { kind := 5, inst := c }).orCsr 0 bEcc 0x40 0x10)
        else (d.modCh c (fun x => { x with groomOff := 0, groomStart := d.dt, groomMin := d.cfgFld 0 bEcc 0x10 0 16 })).modEcc (fun e =>
          { e with dramBehind := e.dramBehind.filter (· != c) }))
      else d) s

end Sys2Proof.Machine
end

