-- ==== Sys2Proof/Machine/Dispatch.lean ====
section
/-!
DEFINITION. The dispatch of a command to its meaning: one arm per constructor of `Instr`.
-/
namespace Sys2Proof.Machine

/-- The command's effect on everything but the queue. -/
def exec (i : Instr) (s : State) : Host.Outcome State Fault Refusal :=
  match i with
  | .pwrgdRise => Sys2Proof.Machine.execPwrgdRise s
  | .pwrgdFall => Sys2Proof.Machine.execPwrgdFall s
  | .resetNRise b => Sys2Proof.Machine.execResetNRise b s
  | .resetNLow ns b => Sys2Proof.Machine.execResetNLow ns b s
  | .railOutOfTolerance rail dir => Sys2Proof.Machine.execRailOutOfTolerance rail dir s
  | .vprogHigh => Sys2Proof.Machine.execVprogHigh s
  | .vprogSettled => Sys2Proof.Machine.execVprogSettled s
  | .vcoreRequestPublish mv => Sys2Proof.Machine.execVcoreRequestPublish mv s
  | .octCfgWrite p v => Sys2Proof.Machine.execOctCfgWrite p v s
  | .octetPllLock o => Sys2Proof.Machine.execOctetPllLock o s
  | .octetPllLoss o => Sys2Proof.Machine.execOctetPllLoss o s
  | .laneEnable l => Sys2Proof.Machine.execLaneEnable l s
  | .laneDisable l => Sys2Proof.Machine.execLaneDisable l s
  | .laneReqQuiet l => Sys2Proof.Machine.execLaneReqQuiet l s
  | .laneReqDeep l => Sys2Proof.Machine.execLaneReqDeep l s
  | .laneReqActive l => Sys2Proof.Machine.execLaneReqActive l s
  | .laneRetrain l => Sys2Proof.Machine.execLaneRetrain l s
  | .txFirWrite p v => Sys2Proof.Machine.execTxFirWrite p v s
  | .detectPulse l sensed => Sys2Proof.Machine.execDetectPulse l sensed s
  | .trainingFrameReceived l ctl inv inverted adapted => Sys2Proof.Machine.execTrainingFrameReceived l ctl inv inverted adapted s
  | .trainTimerExpiry l => Sys2Proof.Machine.execTrainTimerExpiry l s
  | .laneFrameReceived l symErrs ctl payload => Sys2Proof.Machine.execLaneFrameReceived l symErrs ctl payload s
  | .lockTimerExpiry l => Sys2Proof.Machine.execLockTimerExpiry l s
  | .capxTimerExpiry l => Sys2Proof.Machine.execCapxTimerExpiry l s
  | .lossOfSignal l => Sys2Proof.Machine.execLossOfSignal l s
  | .failRetryTimer l => Sys2Proof.Machine.execFailRetryTimer l s
  | .errWindowEnd l => Sys2Proof.Machine.execErrWindowEnd l s
  | .laneGapAnnounce l => Sys2Proof.Machine.execLaneGapAnnounce l s
  | .deepExitTimeout l => Sys2Proof.Machine.execDeepExitTimeout l s
  | .portEnable n => Sys2Proof.Machine.execPortEnable n s
  | .portDisable n => Sys2Proof.Machine.execPortDisable n s
  | .portCfgWrite p v => Sys2Proof.Machine.execPortCfgWrite p v s
  | .bondTimerExpiry n => Sys2Proof.Machine.execBondTimerExpiry n s
  | .helloReceived n k => Sys2Proof.Machine.execHelloReceived n k s
  | .negTimerExpiry n => Sys2Proof.Machine.execNegTimerExpiry n s
  | .dataFlitReceived n j => Sys2Proof.Machine.execDataFlitReceived n j s
  | .statusFlitReceived n j => Sys2Proof.Machine.execStatusFlitReceived n j s
  | .initFlitReceived n j => Sys2Proof.Machine.execInitFlitReceived n j s
  | .lanemapFlitReceived n j => Sys2Proof.Machine.execLanemapFlitReceived n j s
  | .transmitFlitSlot n => Sys2Proof.Machine.execTransmitFlitSlot n s
  | .statusDue n => Sys2Proof.Machine.execStatusDue n s
  | .nakRepeatTimer n => Sys2Proof.Machine.execNakRepeatTimer n s
  | .replayTimeout n => Sys2Proof.Machine.execReplayTimeout n s
  | .restripeEffFcnt n => Sys2Proof.Machine.execRestripeEffFcnt n s
  | .restripeTimeout n => Sys2Proof.Machine.execRestripeTimeout n s
  | .holdTimerExpiry n => Sys2Proof.Machine.execHoldTimerExpiry n s
  | .portRotation n => Sys2Proof.Machine.execPortRotation n s
  | .portFailRetry n => Sys2Proof.Machine.execPortFailRetry n s
  | .leaveTimerExpiry k => Sys2Proof.Machine.execLeaveTimerExpiry k s
  | .leavingQuiesced k => Sys2Proof.Machine.execLeavingQuiesced k s
  | .reclaimComplete k => Sys2Proof.Machine.execReclaimComplete k s
  | .reclaimTimerExpiry k => Sys2Proof.Machine.execReclaimTimerExpiry k s
  | .read h => Sys2Proof.Machine.execRead h s
  | .write h => Sys2Proof.Machine.execWrite h s
  | .writeMask h => Sys2Proof.Machine.execWriteMask h s
  | .readLong h => Sys2Proof.Machine.execReadLong h s
  | .atomAdd h => Sys2Proof.Machine.execAtomAdd h s
  | .atomSwap h => Sys2Proof.Machine.execAtomSwap h s
  | .atomCas h => Sys2Proof.Machine.execAtomCas h s
  | .atomAnd h => Sys2Proof.Machine.execAtomAnd h s
  | .atomOr h => Sys2Proof.Machine.execAtomOr h s
  | .atomXor h => Sys2Proof.Machine.execAtomXor h s
  | .emLookup h => Sys2Proof.Machine.execEmLookup h s
  | .lpmLookup h => Sys2Proof.Machine.execLpmLookup h s
  | .emInsert h => Sys2Proof.Machine.execEmInsert h s
  | .emDelete h => Sys2Proof.Machine.execEmDelete h s
  | .count h => Sys2Proof.Machine.execCount h s
  | .police h => Sys2Proof.Machine.execPolice h s
  | .csrRead h => Sys2Proof.Machine.execCsrRead h s
  | .csrWrite h => Sys2Proof.Machine.execCsrWrite h s
  | .enqueue h => Sys2Proof.Machine.execEnqueue h s
  | .dequeue h => Sys2Proof.Machine.execDequeue h s
  | .qstatus h => Sys2Proof.Machine.execQstatus h s
  | .xferClaim h => Sys2Proof.Machine.execXferClaim h s
  | .xferStart h => Sys2Proof.Machine.execXferStart h s
  | .xferAppend h => Sys2Proof.Machine.execXferAppend h s
  | .xferStop h => Sys2Proof.Machine.execXferStop h s
  | .xferRelease h => Sys2Proof.Machine.execXferRelease h s
  | .mboxCmd n plen img => Sys2Proof.Machine.execMboxCmd n plen img s
  | .unknownOpcodeRequest opc h => Sys2Proof.Machine.execUnknownOpcodeRequest opc h s
  | .fragmentIssue id => Sys2Proof.Machine.execFragmentIssue id s
  | .fragmentBegin n vc => Sys2Proof.Machine.execFragmentBegin n vc s
  | .enqueueLink q => Sys2Proof.Machine.execEnqueueLink q s
  | .parkEnd id => Sys2Proof.Machine.execParkEnd id s
  | .cellMove q => Sys2Proof.Machine.execCellMove q s
  | .tableOperationStart id => Sys2Proof.Machine.execTableOperationStart id s
  | .slalomGate e len => Sys2Proof.Machine.execSlalomGate e len s
  | .stepDataReturn id => Sys2Proof.Machine.execStepDataReturn id s
  | .resultComplete src => Sys2Proof.Machine.execResultComplete src s
  | .collectorPass => Sys2Proof.Machine.execCollectorPass s
  | .epochStart => Sys2Proof.Machine.execEpochStart s
  | .rescaleGapEnd o => Sys2Proof.Machine.execRescaleGapEnd o s
  | .accessHandover c => Sys2Proof.Machine.execAccessHandover c s
  | .controllerCommandSlot c upset => Sys2Proof.Machine.execControllerCommandSlot c upset s
  | .writeAgeExpiry c => Sys2Proof.Machine.execWriteAgeExpiry c s
  | .refreshDue c => Sys2Proof.Machine.execRefreshDue c s
  | .catchupEnd c => Sys2Proof.Machine.execCatchupEnd c s
  | .bandDown layer => Sys2Proof.Machine.execBandDown layer s
  | .srAck c => Sys2Proof.Machine.execSrAck c s
  | .srAckTimeout c => Sys2Proof.Machine.execSrAckTimeout c s
  | .pulse c => Sys2Proof.Machine.execPulse c s
  | .idleGap c => Sys2Proof.Machine.execIdleGap c s
  | .forcedGap c => Sys2Proof.Machine.execForcedGap c s
  | .linkTraining c res => Sys2Proof.Machine.execLinkTraining c res s
  | .markWindowEnd c => Sys2Proof.Machine.execMarkWindowEnd c s
  | .groomPeriodEnd c => Sys2Proof.Machine.execGroomPeriodEnd c s
  | .ceWindowEnd c => Sys2Proof.Machine.execCeWindowEnd c s
  | .injArm p v => Sys2Proof.Machine.execInjArm p v s
  | .injDisarm p v => Sys2Proof.Machine.execInjDisarm p v s
  | .elogEntryRead p n => Sys2Proof.Machine.execElogEntryRead p n s
  | .descFetch x => Sys2Proof.Machine.execDescFetch x s
  | .linkReadReturn x => Sys2Proof.Machine.execLinkReadReturn x s
  | .chainWaitReread x => Sys2Proof.Machine.execChainWaitReread x s
  | .descComplete x => Sys2Proof.Machine.execDescComplete x s
  | .xferDrainComplete x => Sys2Proof.Machine.execXferDrainComplete x s
  | .evacuationStart c => Sys2Proof.Machine.execEvacuationStart c s
  | .blockSwitch => Sys2Proof.Machine.execBlockSwitch s
  | .channelRetirement c => Sys2Proof.Machine.execChannelRetirement c s
  | .rowWindowEnd c => Sys2Proof.Machine.execRowWindowEnd c s
  | .repairRecordWrite ok => Sys2Proof.Machine.execRepairRecordWrite ok s
  | .wearUpdate => Sys2Proof.Machine.execWearUpdate s
  | .wearRecordWrite ok => Sys2Proof.Machine.execWearRecordWrite ok s
  | .cmdDbRing p v => Sys2Proof.Machine.execCmdDbRing p v s
  | .rspAckWrite p v => Sys2Proof.Machine.execRspAckWrite p v s
  | .evqPop p v => Sys2Proof.Machine.execEvqPop p v s
  | .commandStart o j => Sys2Proof.Machine.execCommandStart o j s
  | .commandExpire o j => Sys2Proof.Machine.execCommandExpire o j s
  | .commandLimitExceeded o j => Sys2Proof.Machine.execCommandLimitExceeded o j s
  | .watchdogExpiry => Sys2Proof.Machine.execWatchdogExpiry s
  | .lockstepMismatch => Sys2Proof.Machine.execLockstepMismatch s
  | .activationSwitch ok => Sys2Proof.Machine.execActivationSwitch ok s
  | .activationWaitTimeout => Sys2Proof.Machine.execActivationWaitTimeout s
  | .fwRevert ok => Sys2Proof.Machine.execFwRevert ok s
  | .sysInfo o j => Sys2Proof.Machine.execSysInfo o j s
  | .sysStatus o j => Sys2Proof.Machine.execSysStatus o j s
  | .sysVcoreRead o j => Sys2Proof.Machine.execSysVcoreRead o j s
  | .sysVcoreReport o j => Sys2Proof.Machine.execSysVcoreReport o j s
  | .sysBrst o j => Sys2Proof.Machine.execSysBrst o j s
  | .sysCrst o j => Sys2Proof.Machine.execSysCrst o j s
  | .crstApply b => Sys2Proof.Machine.execCrstApply b s
  | .modeSet o j => Sys2Proof.Machine.execModeSet o j s
  | .modeDrainComplete => Sys2Proof.Machine.execModeDrainComplete s
  | .modeTimeout => Sys2Proof.Machine.execModeTimeout s
  | .shutdown o j t ok => Sys2Proof.Machine.execShutdown o j t ok s
  | .cfgBegin o j => Sys2Proof.Machine.execCfgBegin o j s
  | .cfgWrite o j => Sys2Proof.Machine.execCfgWrite o j s
  | .cfgEnd o j => Sys2Proof.Machine.execCfgEnd o j s
  | .cfgRead o j => Sys2Proof.Machine.execCfgRead o j s
  | .cfgStatus o j => Sys2Proof.Machine.execCfgStatus o j s
  | .cfgCommit o j ok => Sys2Proof.Machine.execCfgCommit o j ok s
  | .cfgConfirm o j => Sys2Proof.Machine.execCfgConfirm o j s
  | .cfgRollback o j => Sys2Proof.Machine.execCfgRollback o j s
  | .autoRollback => Sys2Proof.Machine.execAutoRollback s
  | .partnerList o j => Sys2Proof.Machine.execPartnerList o j s
  | .partnerLeave o j => Sys2Proof.Machine.execPartnerLeave o j s
  | .partnerEvict o j => Sys2Proof.Machine.execPartnerEvict o j s
  | .partnerInfo o j => Sys2Proof.Machine.execPartnerInfo o j s
  | .portInfo o j => Sys2Proof.Machine.execPortInfo o j s
  | .portRetrain o j => Sys2Proof.Machine.execPortRetrain o j s
  | .laneInfo o j => Sys2Proof.Machine.execLaneInfo o j s
  | .lanePrbs o j => Sys2Proof.Machine.execLanePrbs o j s
  | .lanePrbsEnd l => Sys2Proof.Machine.execLanePrbsEnd l s
  | .tableInsert o j => Sys2Proof.Machine.execTableInsert o j s
  | .tableDelete o j => Sys2Proof.Machine.execTableDelete o j s
  | .tableLookup o j => Sys2Proof.Machine.execTableLookup o j s
  | .tableScan o j => Sys2Proof.Machine.execTableScan o j s
  | .queueFlush o j => Sys2Proof.Machine.execQueueFlush o j s
  | .queueRecover o j => Sys2Proof.Machine.execQueueRecover o j s
  | .queueInfo o j => Sys2Proof.Machine.execQueueInfo o j s
  | .queueClrOvr o j => Sys2Proof.Machine.execQueueClrOvr o j s
  | .regCapacity o j => Sys2Proof.Machine.execRegCapacity o j s
  | .regBudgets o j => Sys2Proof.Machine.execRegBudgets o j s
  | .regTry o j => Sys2Proof.Machine.execRegTry o j s
  | .telemSnap o j => Sys2Proof.Machine.execTelemSnap o j s
  | .telemTemps o j => Sys2Proof.Machine.execTelemTemps o j s
  | .telemRead o j => Sys2Proof.Machine.execTelemRead o j s
  | .faultRead o j => Sys2Proof.Machine.execFaultRead o j s
  | .faultClear o j => Sys2Proof.Machine.execFaultClear o j s
  | .faultReact o j => Sys2Proof.Machine.execFaultReact o j s
  | .faultRaise o j => Sys2Proof.Machine.execFaultRaise o j s
  | .errCtrl o j => Sys2Proof.Machine.execErrCtrl o j s
  | .graftInfo o j => Sys2Proof.Machine.execGraftInfo o j s
  | .graftLink o j miss => Sys2Proof.Machine.execGraftLink o j miss s
  | .channelRetire o j => Sys2Proof.Machine.execChannelRetire o j s
  | .selftestRun o j t miss => Sys2Proof.Machine.execSelftestRun o j t miss s
  | .sdtInfo o j => Sys2Proof.Machine.execSdtInfo o j s
  | .otpRead o j => Sys2Proof.Machine.execOtpRead o j s
  | .otpShadow o j => Sys2Proof.Machine.execOtpShadow o j s
  | .otpProgram o j miss => Sys2Proof.Machine.execOtpProgram o j miss s
  | .otpLock o j miss => Sys2Proof.Machine.execOtpLock o j miss s
  | .lcAdvance o j miss => Sys2Proof.Machine.execLcAdvance o j miss s
  | .fwBegin o j => Sys2Proof.Machine.execFwBegin o j s
  | .fwWrite o j => Sys2Proof.Machine.execFwWrite o j s
  | .fwVerify o j => Sys2Proof.Machine.execFwVerify o j s
  | .fwActivate o j => Sys2Proof.Machine.execFwActivate o j s
  | .fwConfirm o j => Sys2Proof.Machine.execFwConfirm o j s
  | .fwStatus o j => Sys2Proof.Machine.execFwStatus o j s
  | .cmdCsrRead o j => Sys2Proof.Machine.execCmdCsrRead o j s
  | .cmdCsrWrite o j => Sys2Proof.Machine.execCmdCsrWrite o j s
  | .csrRmw o j => Sys2Proof.Machine.execCsrRmw o j s
  | .firmwareStart => Sys2Proof.Machine.execFirmwareStart s
  | .bootListEntry => Sys2Proof.Machine.execBootListEntry s
  | .refclkRecheck khz b => Sys2Proof.Machine.execRefclkRecheck khz b s
  | .flashRetry ok b => Sys2Proof.Machine.execFlashRetry ok b s
  | .heatRecheck b => Sys2Proof.Machine.execHeatRecheck b s
  | .clockMonitorTrip => Sys2Proof.Machine.execClockMonitorTrip s
  | .refclkReturn b => Sys2Proof.Machine.execRefclkReturn b s
  | .clockHoldEnd => Sys2Proof.Machine.execClockHoldEnd s
  | .ringSettle period => Sys2Proof.Machine.execRingSettle period s
  | .ringSettleTimeout => Sys2Proof.Machine.execRingSettleTimeout s
  | .ringRemeasure period => Sys2Proof.Machine.execRingRemeasure period s
  | .pllUnlock k => Sys2Proof.Machine.execPllUnlock k s
  | .switchForcedRelease k => Sys2Proof.Machine.execSwitchForcedRelease k s
  | .heartwoodWake => Sys2Proof.Machine.execHeartwoodWake s
  | .mgmtIslandIdle => Sys2Proof.Machine.execMgmtIslandIdle s
  | .gateCfgWrite p v => Sys2Proof.Machine.execGateCfgWrite p v s
  | .sensorConversion j t => Sys2Proof.Machine.execSensorConversion j t s
  | .sensorTimeout j => Sys2Proof.Machine.execSensorTimeout j s
  | .thermalEvaluation pow => Sys2Proof.Machine.execThermalEvaluation pow s
  | .riseHoldExpiry => Sys2Proof.Machine.execRiseHoldExpiry s
  | .calStepStart dom => Sys2Proof.Machine.execCalStepStart dom s
  | .calStepFinish dom ok => Sys2Proof.Machine.execCalStepFinish dom ok s
  | .calStepTimeout dom => Sys2Proof.Machine.execCalStepTimeout dom s
  | .escalationExpiry n => Sys2Proof.Machine.execEscalationExpiry n s
  | .heldClearWrite p n v => Sys2Proof.Machine.execHeldClearWrite p n v s
  | .reactWrite p n v => Sys2Proof.Machine.execReactWrite p n v s
  | .errDriveWrite p v => Sys2Proof.Machine.execErrDriveWrite p v s
  | .errPulseEnd => Sys2Proof.Machine.execErrPulseEnd s
  | .chkInjArm p v => Sys2Proof.Machine.execChkInjArm p v s
  | .faultLogRead p n => Sys2Proof.Machine.execFaultLogRead p n s
  | .censusCheck law k vc => Sys2Proof.Machine.execCensusCheck law k vc s
  | .otpSweepStart => Sys2Proof.Machine.execOtpSweepStart s
  | .otpWordRead w r => Sys2Proof.Machine.execOtpWordRead w r s
  | .otpSweepEnd => Sys2Proof.Machine.execOtpSweepEnd s
  | .progWindowOpen p v => Sys2Proof.Machine.execProgWindowOpen p v s
  | .progWindowClose p v => Sys2Proof.Machine.execProgWindowClose p v s
  | .progWindowExpiry => Sys2Proof.Machine.execProgWindowExpiry s
  | .mgmtWriteFrame bytes => Sys2Proof.Machine.execMgmtWriteFrame bytes s
  | .mgmtReadFrame bytes count => Sys2Proof.Machine.execMgmtReadFrame bytes count s
  | .entdaa da => Sys2Proof.Machine.execEntdaa da s
  | .setdasa da => Sys2Proof.Machine.execSetdasa da s
  | .setnewda da => Sys2Proof.Machine.execSetnewda da s
  | .rstdaa => Sys2Proof.Machine.execRstdaa s
  | .getpid => Sys2Proof.Machine.execGetpid s
  | .getbcr => Sys2Proof.Machine.execGetbcr s
  | .getdcr => Sys2Proof.Machine.execGetdcr s
  | .getstatus => Sys2Proof.Machine.execGetstatus s
  | .enec => Sys2Proof.Machine.execEnec s
  | .disec => Sys2Proof.Machine.execDisec s
  | .csrAcc a v wr => Sys2Proof.Machine.execCsrAcc a v wr s
  | .trstNLow => Sys2Proof.Machine.execTrstNLow s
  | .setAliasWrite p a v => Sys2Proof.Machine.execSetAliasWrite p a v s
  | .clearAliasWrite p a v => Sys2Proof.Machine.execClearAliasWrite p a v s
  | .toggleAliasWrite p a v => Sys2Proof.Machine.execToggleAliasWrite p a v s
  | .selectWrite p blk v => Sys2Proof.Machine.execSelectWrite p blk v s
  | .loReadLatch p a => Sys2Proof.Machine.execLoReadLatch p a s
  | .rcFieldRead p a => Sys2Proof.Machine.execRcFieldRead p a s
  | .snapGo p v => Sys2Proof.Machine.execSnapGo p v s
  | .registerWrite p a v => Sys2Proof.Machine.execRegisterWrite p a v s
  | .farEndSignalDetected l => Sys2Proof.Machine.execFarEndSignalDetected l s
  | .prbsBitsReceived l errs => Sys2Proof.Machine.execPrbsBitsReceived l errs s
  | .layerOwnTimerRefresh c => Sys2Proof.Machine.execLayerOwnTimerRefresh c s
  | .forcedGapEnd c => Sys2Proof.Machine.execForcedGapEnd c s
  | .faultCrstDelay b => Sys2Proof.Machine.execFaultCrstDelay b s
  | .islandPllLock k => Sys2Proof.Machine.execIslandPllLock k s
  | .powerupT2Reached b => Sys2Proof.Machine.execPowerupT2Reached b s
  | .sramGroomRead upset => Sys2Proof.Machine.execSramGroomRead upset s

end Sys2Proof.Machine
end

