-- ==== Sys2Proof/Machine/Tick.lean ====
section
/-!
DEFINITION. What the block does when no command waits: device time counts.
-/
namespace Sys2Proof.Machine

/-- DT counts while its source runs: it has started and is not frozen (R381). -/
def Dev.dtCounts (d : Dev) : Bool := d.clk.dtRun && d.clk.dtSrc != .frozen

/-- One idle step (DESIGN CHOICE): one nanosecond of device time, modulo 2^64, where DT runs. -/
def tick (s : State) : State :=
  if s.dev.dtCounts then { s with dev := s.dev.modClk (fun c => { c with dt := (c.dt + 1) % 2 ^ 64 }) } else s

end Sys2Proof.Machine
end

