-- ==== Sys2Proof/Safety.lean ====
section
/-!
DEFINITION. What claims speak of: the parts of the device and what a command leaves of them, the canonical form of storage
and of the fuses, and the order of fuse states in which a burned bit stays burned (R452).
-/
namespace Sys2Proof.Machine

/-- A part of the device: one unit, one of the tables of the link unit, or one of the register tables. With the stored registers go
the notes of the events that reached registers at their last DT (R9), and with the partner table the numbers last held (R103). -/
inductive Part where
  | pin | clk | cfg | lane | lin | lout | oct | port | rx | tx | ptx | ptn | fault | mbox | telem | txn | mem | qm | sla | dram | ecc
  | reg | xfer | therm | graft | otp | mgmt | boot | csr | ctr | sel | latch | free
  deriving DecidableEq, Repr

/-- Part `p` of two devices is the same. -/
def Part.same (p : Part) (a b : Dev) : Prop :=
  match p with
  | .pin => b.pin = a.pin
  | .clk => b.clk = a.clk
  | .cfg => b.cfg = a.cfg
  | .lane => b.link.lane = a.link.lane
  | .lin => b.link.lin = a.link.lin
  | .lout => b.link.lout = a.link.lout
  | .oct => b.link.oct = a.link.oct
  | .port => b.link.port = a.link.port
  | .rx => b.link.rx = a.link.rx
  | .tx => b.link.tx = a.link.tx
  | .ptx => b.link.ptx = a.link.ptx
  | .ptn => b.link.ptn = a.link.ptn ∧ b.link.lastNo = a.link.lastNo
  | .fault => b.fault = a.fault
  | .mbox => b.mbox = a.mbox
  | .telem => b.telem = a.telem
  | .txn => b.txn = a.txn
  | .mem => b.mem = a.mem
  | .qm => b.qm = a.qm
  | .sla => b.sla = a.sla
  | .dram => b.dram = a.dram
  | .ecc => b.ecc = a.ecc
  | .reg => b.reg = a.reg
  | .xfer => b.xfer = a.xfer
  | .therm => b.therm = a.therm
  | .graft => b.graft = a.graft
  | .otp => b.otp = a.otp
  | .mgmt => b.mgmt = a.mgmt
  | .boot => b.boot = a.boot
  | .csr => b.csr = a.csr ∧ b.evt = a.evt ∧ b.rcv = a.rcv
  | .ctr => b.ctr = a.ctr
  | .sel => b.sel = a.sel
  | .latch => b.latch = a.latch
  | .free => b.freeIx = a.freeIx

/-- Every part of `b` but those listed is as in `a`. -/
def Dev.Keeps (ps : List Part) (a b : Dev) : Prop := ∀ p, p ∉ ps → p.same a b

/-- The frame of a command: the fuses, the queue of waiting commands and every part of the device but those listed are
unchanged. -/
def Keeps (ps : List Part) (s t : State) : Prop := t.fuse = s.fuse ∧ t.pending = s.pending ∧ Dev.Keeps ps s.dev t.dev

/-- Stored registers other than those whose keys are listed are unchanged. -/
def Dev.RegsBut (ks : List Nat) (a b : Dev) : Prop := ∀ k, k ∉ ks → tabGet regReset b.csr k = tabGet regReset a.csr k
/-- Counters other than those whose keys are listed are unchanged. -/
def Dev.CtrsBut (ks : List Nat) (a b : Dev) : Prop :=
  ∀ k, k ∉ ks → tabGet (fun _ => 0) b.ctr k = tabGet (fun _ => 0) a.ctr k
/-- Slot pairs of the mailboxes other than pair `i` of owner `o` are unchanged. -/
def Dev.PairsBut (o i : Nat) (a b : Dev) : Prop := ∀ p j, j < 8 → (p, j) ≠ (o, i) → b.pair p j = a.pair p j
/-- Lanes other than `l` are unchanged. -/
def Dev.LanesBut (l : Nat) (a b : Dev) : Prop := ∀ m, m ≠ l → b.lane m = a.lane m
/-- Ports other than `n` are unchanged. -/
def Dev.PortsBut (n : Nat) (a b : Dev) : Prop := ∀ m, m ≠ n → b.port m = a.port m
/-- Partner numbers other than `k` are unchanged. -/
def Dev.PtnsBut (k : Nat) (a b : Dev) : Prop := ∀ m, m ≠ k → b.ptn m = a.ptn m

/-- DRAM channels other than `c` are unchanged. -/
def Dev.ChansBut (c : Nat) (a b : Dev) : Prop := ∀ k, k ≠ c → b.ch k = a.ch k

/-- What a fault raise or an event may change: the collector, the event queues with their registers and counters, and the
telemetry ring that records the order of two raises. -/
def faultParts : List Part := [.fault, .csr, .ctr, .mbox, .telem]

/-- Parts that the ROM loader writes on the way to BOOT, beside those that a chip reset leaves as they were. -/
def romParts : List Part := [.pin, .clk, .mem, .therm, .boot, .otp, .graft, .fault, .csr, .ctr, .mbox, .telem, .free]

/-- Stored registers in which raises and events leave a mark: the collector's interrupt bits, and EVT_LOST of a mailbox. -/
def eventReg (k : Nat) : Bool :=
  (k / 0x10000 % 256 == bFault && k % 0x10000 == 0x44) || (k / 0x10000 % 256 == bMbox && k % 0x10000 == 0x114)
/-- Counters of raises, escalations, suppressed raises and of events. -/
def eventCtr (k : Nat) : Bool :=
  (k / 0x10000 % 256 == bFault && (k % 0x10000 == 0x80 || k % 0x10000 == 0x88 || k % 0x10000 == 0x90)) ||
  (k / 0x10000 % 256 == bMbox && (k % 0x10000 == 0x508 || k % 0x10000 == 0x510 || k % 0x10000 == 0x518))

/-- The inner frame of a command that raises sources or posts events: stored registers other than those listed and the
marks of events, counters likewise, the fault sources other than those listed (FS002 and FS162 may follow from any raise), and
the slot pairs of every mailbox are unchanged. -/
def Dev.Noted (regs ctrs srcs : List Nat) (a b : Dev) : Prop :=
  (∀ k, eventReg k = false → k ∉ regs → tabGet regReset b.csr k = tabGet regReset a.csr k) ∧
  (∀ k, eventCtr k = false → k ∉ ctrs → tabGet (fun _ => 0) b.ctr k = tabGet (fun _ => 0) a.ctr k) ∧
  (∀ n, n ∉ srcs → n ≠ 2 → n ≠ 162 → b.src n = a.src n) ∧
  (∀ o i, b.pair o i = a.pair o i)

/-- Source `n` has been raised with detail `x` at the device time of `a` (R413). -/
def Dev.Raised (n : Nat) (x : Detail) (a b : Dev) : Prop :=
  (b.src n).raises = min ((a.src n).raises + 1) 0xFFFFFFFF ∧ (b.src n).lastDt = a.dt ∧ (b.src n).detail = x

/-- The bits of `m` have been set in a stored register: a hardware event (R9). -/
def Dev.Marks (inst blk off m : Nat) (a b : Dev) : Prop := b.csrAt inst blk off = a.csrAt inst blk off ||| word m
/-- A counter has gone up by `n`, modulo 2^64 (R62). -/
def Dev.Counts (inst blk off n : Nat) (a b : Dev) : Prop := b.counter inst blk off = (a.counter inst blk off + n) % 2 ^ 64

/-- The response of a command: its pair is DONE and holds the response slot image of R304, nothing else of it changed. -/
def Dev.Answered (o i status : Nat) (result : List Byte) (a b : Dev) : Prop :=
  b.pair o i = { a.pair o i with
    st := .done, wait := false, eng := none, work := []
    resp := rspImage (cmdOpcode (a.pair o i).cmd) (cmdSeq (a.pair o i).cmd) (cmdSlot (a.pair o i).cmd) status a.dt result }

/-- A slot pair runs a command of opcode `op` for firmware that is up, its owner has not gone, and no mode transition waits:
the command has its effect and is answered (R306). -/
def Dev.Ready (d : Dev) (o i op : Nat) : Prop :=
  slotOk o i = true ∧ d.runs o i op = true ∧ (d.pair o i).drop = false ∧ d.clk.move = none ∧ d.clk.mode ≠ .retain

/-- A command that only reports: its pair is answered, the count of completed commands goes up, and nothing else changes. -/
def Dev.Reports (o i status : Nat) (result : List Byte) (a b : Dev) : Prop :=
  a.Answered o i status result b ∧ a.Counts 0 bMbox 0x500 1 b ∧ a.PairsBut o i b ∧ a.CtrsBut [regKey 0 bMbox 0x500] b ∧
  (∀ p, b.mb p = a.mb p) ∧ b.mbox = { a.mbox with pair := b.mbox.pair } ∧ b.boot = { a.boot with listStat := b.boot.listStat } ∧
  Dev.Keeps [.mbox, .ctr, .boot] a b

/-- A command has its effect, which leaves the device `m`, and is then answered: nothing else of `m` changes. -/
def Finishes (o i status : Nat) (result : List Byte) (m : Dev) (s t : State) : Prop :=
  t.fuse = s.fuse ∧ t.pending = s.pending ∧ m.Reports o i status result t.dev

/-- A command that burns fuses has its effect, which leaves the fuses `f` and the device `m`, and is then answered. -/
def Burns (o i status : Nat) (result : List Byte) (f : Fuses) (m : Dev) (s t : State) : Prop :=
  t.fuse = f ∧ t.pending = s.pending ∧ m.Reports o i status result t.dev

/-- Both copies of the words that `ws` names hold what it gives; every other word, and every lock fuse, is as before. -/
def Fuses.Holds (ws : Nat → Option Word) (f g : Fuses) : Prop :=
  (∀ k v, ws k = some v → g.wordA k = v ∧ g.wordB k = v) ∧
  (∀ k, ws k = none → g.wordA k = f.wordA k ∧ g.wordB k = f.wordB k) ∧
  g.wlA = f.wlA ∧ g.wlB = f.wlB ∧ g.rlA = f.rlA ∧ g.rlB = f.rlB

/-- Word `k` can be burned to `v`: no burned bit stands where `v` has a 0, no pulse fails, and no cell is near its threshold. -/
def Dev.TakesBurn (d : Dev) (f : Fuses) (miss : List BurnMiss) (k : Nat) (v : Word) : Prop :=
  missOf miss k = (0, 0) ∧ tabGet (fun _ => 0) d.otp.unst k = 0 ∧ f.wordA k ||| v = v ∧ f.wordB k ||| v = v

/-- What an access by a path returns: its status, and the value read. -/
def Dev.Accessed (st : Status) (v : Nat) (a b : Dev) : Prop := b.mgmt = { a.mgmt with accStatus := st.code, accValue := word v }

/-- A register that holds a value of its own has been written as a whole with `x` (R8): where every field lies in its range, RW fields
take the value and W1C bits written 1 clear, but for those that an event of the same DT has set (R9); otherwise nothing changes. A register
that holds none ignores the write. -/
def Dev.RegWritten (inst b off x : Nat) (d e : Dev) : Prop :=
  (∀ r, regInfo b off = some r → rangeOk b off x = true →
    e.csrAt inst b off = word ((x &&& r.rw) ||| clearBits ((d.csrAt inst b off).toNat &&& r.w1c) (clearBits x (d.evtNow inst b off)))) ∧
  (regInfo b off = none ∨ rangeOk b off x = false → e.csrAt inst b off = d.csrAt inst b off) ∧
  d.RegsBut [regKey inst b off] e

/-- A read of an RC field, `w` bits from bit `lo` of a register that shows `live`, returns `v` and leaves `rest` (R8, R9): the value held and 0,
or, with an event of the same DT, the value from before it and what the event adds. -/
def Dev.RcReads (d : Dev) (inst b off lo w live v rest : Nat) : Prop :=
  ∀ e : Nat × Nat × Nat, e = tabGet (fun _ => (0, 0, 0)) d.rcv (regKey inst b off) →
    (e.1 ≠ d.dt + 1 → v = live ∧ rest = 0) ∧
    (e.1 = d.dt + 1 → v = clearBits live ((2 ^ w - 1) * 2 ^ lo) + e.2.1 % 2 ^ w * 2 ^ lo ∧ rest = e.2.2)

/-- A path whose accesses life-cycle state END does not refuse (R467, R475). -/
def Dev.PathOpen (d : Dev) (p : Path) : Prop := pathOk p = true ∧ (p = .jtag → d.otp.lc ≠ .ended)

/-- Blocks whose stored registers a write of their own code does not treat. -/
def plainBlocks : List Nat := [0x00, 0x02, 0x0A, 0x18, 0x20, 0x30, 0x38, 0x41]

/-- A path that may write registers as a whole: the management port, or JTAG before END (R475, R480). -/
def Dev.FullPath (d : Dev) (p : Path) : Prop := p = .mgmt ∨ (p = .jtag ∧ d.otp.lc ≠ .ended)

/-- No other happening has reached element `inst` of deciding unit `unit` at this DT, so no order is recorded (R259, R484). -/
def Dev.FirstAt (d : Dev) (unit inst : Nat) : Prop := (tabGet (fun _ => (0, 0, 0)) d.telem.arb (unit * 2 ^ 32 + inst)).1 ≠ d.dt + 1

/-- The programming window is open and VPROG is up: where the window closes now, VPROG lies outside a programming step (R37, R462). -/
def Dev.leavesVprog (d : Dev) : Bool := d.otp.win.isSome && d.pin.vprogUp && !d.pin.vprogBad

/-- The programming window has closed with VPROG up: FS011 (R37, R462). -/
def Dev.VprogLeft (a b : Dev) : Prop :=
  b.otp = { a.otp with win := none } ∧ b.pin = { a.pin with vprogBad := true } ∧ a.Raised 11 {} b

/-- No slot pair but pair `i` of owner `o` is RUNNING. -/
def Dev.RunsAlone (d : Dev) (o i : Nat) : Prop := ∀ p j, p < 66 → j < 8 → (d.pair p j).st = .running → (p, j) = (o, i)

/-- A MODE_SET that may take its effect at once: no clock hold and no other command running. -/
def Dev.MaySwitch (d : Dev) (o i : Nat) : Prop := d.Ready o i 0x0201 ∧ d.clk.hold = false ∧ d.RunsAlone o i

/-- The device has entered mode `m` now, no transition remains, and the command that asked for it is answered with the mode and its
entry (R326, R327). -/
def Dev.Entered (o i : Nat) (m : Mode) (a b : Dev) : Prop :=
  b.clk.mode = m ∧ b.clk.entryDt = a.dt ∧ b.clk.move = none ∧ b.clk.dt = a.dt ∧
  a.Answered o i 0 ([byte (modeCode m)] ++ List.replicate 7 0 ++ leBytes 8 a.dt) b

/-- Temperature and SRC that an evaluation forms for layer `n`, with the powers it reports (R394 to R396). -/
def Dev.evalTemp (d : Dev) (pow : List Nat) (n : Nat) : Int × Nat :=
  let y := ((d.layer n).judge (d.readings n) (d.predict n (pow.getD n 0)) (d.cfgFld 0 bThermal 0x1C 0 5) (d.cfgFld 0 bThermal 0x1C 8 4)).1
  layerTemp y (d.readings n) ((layerSensors n).all (fun i => (d.sensor i).valid && !(d.sensor i).broken))
    (d.cfgFld 0 bThermal 0x1C 16 5) (d.cfgFld 0 bThermal 0x10 8 8)

/-- The link layer takes no part in what lane `l` does: no port is configured on it, or that port is OFF. -/
def Dev.LaneAlone (d : Dev) (l : Nat) : Prop := ∀ n, d.portOfLane l = some n → (d.port n).st = .off

/-- The frame of a lane command: other lanes with what they receive and send, every octet but the lane's and the one whose frame grid goes
with it, every stored register but LANE_CTRL and LANE_EVENT of this lane, every counter but the one of calibration steps abandoned, and
every calibration domain but the lane's and its octet's stay as they are. -/
def LaneFrame (l : Nat) (s t : State) : Prop :=
  s.dev.LanesBut l t.dev ∧ (∀ m, m ≠ l → t.dev.lin m = s.dev.lin m ∧ t.dev.lout m = s.dev.lout m) ∧
  (∀ o, o / 2 ≠ l / 16 → t.dev.oct o = s.dev.oct o) ∧
  s.dev.RegsBut [regKey l bLane 0x20, regKey l bLane 0x28] t.dev ∧
  s.dev.CtrsBut [regKey 0 bThermal 0x98] t.dev ∧ (∀ n, n ≠ l → n ≠ 144 + l / 8 → t.dev.dom n = s.dev.dom n) ∧
  Keeps [.lane, .lin, .lout, .oct, .csr, .ctr, .therm, .telem, .free] s t

/-- No port collects lanes: none stands in BOND. -/
def Dev.NoBond (d : Dev) : Prop := ∀ m, m < 144 → (d.port m).st ≠ .bond

/-- A legal port width. -/
def widthOk (w : Nat) : Prop := w = 1 ∨ w = 2 ∨ w = 4 ∨ w = 8 ∨ w = 16

/-- A port that holds no link state: nothing is arriving on it, no mailbox packet has begun on it, and no partner is known for it. -/
def Dev.PortFresh (d : Dev) (n : Nat) : Prop :=
  (d.port n).partner = none ∧ (d.port n).resume = false ∧ (d.ptx n).p3 = none ∧ tabGet (fun _ => ({} : Arriving)) d.qm.arriving n = {}

/-- Flit `j` of the frame set last received on port `n` stands in slot `sl` of lane `l`, not yet taken, and is what row `row` takes: its
bytes, whether its CRC holds in a good frame, and the FCNT of that frame (R49, R72). -/
def Dev.FlitAt (d : Dev) (n j row l sl : Nat) (ok : Bool) (now : Nat) (b : List Byte) : Prop :=
  ((d.rxLanes n)[j % (d.rxLanes n).length]?).map (fun i => (d.laneAt n i, j / (d.rxLanes n).length)) = some (l, sl) ∧
  (d.lin l).v = true ∧ sl < flitSlots (d.port n).gen ∧ bit (d.lin l).used sl = false ∧
  b = slice (d.lin l).payload (flitSize (d.port n).gen * sl) (flitSize (d.port n).gen) ∧
  ok = (!(d.lin l).bad && leAt b (flitSize (d.port n).gen - 4) 4 == crc32 (b.take (flitSize (d.port n).gen - 4))) ∧
  now = (d.lin l).fcnt ∧ (ok = true → flitRow b = row)

/-- Slot `sl` of the frame that lane `l` holds has been taken; what the other lanes hold is unchanged. -/
def Dev.Took (a : Dev) (l sl : Nat) (b : Dev) : Prop :=
  b.lin l = { a.lin l with used := (a.lin l).used ||| 2 ^ sl } ∧ ∀ m, m ≠ l → b.lin m = a.lin m

/-- A port in UP has nothing to change about its lanes: each lane of its mask is in service, and every ACTIVE one is in its mask or is its
standby (R91, R92). -/
def Dev.LanesCalm (d : Dev) (n : Nat) : Prop :=
  (∀ i, i < 16 → bit (d.port n).txMask i = true → (d.lane (d.laneAt n i)).st.inService = true) ∧
  ∀ i, i < d.portWidth n → (d.lane (d.laneAt n i)).st = .active →
    bit (d.port n).accepted i = true ∧ (bit (d.port n).txMask i = true ∨ (d.port n).stby = some i)

/-- Partner numbers other than `k` are unchanged but for their counts of dropped responses (R106). -/
def Dev.PtnsKept (k : Nat) (a b : Dev) : Prop := ∀ m, m ≠ k → { b.ptn m with rspDrop := (a.ptn m).rspDrop } = a.ptn m

/-- The request row of an opcode. -/
def requestRow : Opc → ReqHdr → Instr
  | .read => .read | .write => .write | .writeMask => .writeMask | .readLong => .readLong
  | .atomAdd => .atomAdd | .atomSwap => .atomSwap | .atomCas => .atomCas | .atomAnd => .atomAnd | .atomOr => .atomOr | .atomXor => .atomXor
  | .emLookup => .emLookup | .lpmLookup => .lpmLookup | .emInsert => .emInsert | .emDelete => .emDelete
  | .count => .count | .police => .police | .csrRead => .csrRead | .csrWrite => .csrWrite
  | .enqueue => .enqueue | .dequeue => .dequeue | .qstatus => .qstatus
  | .xferClaim => .xferClaim | .xferStart => .xferStart | .xferAppend => .xferAppend | .xferStop => .xferStop | .xferRelease => .xferRelease
  | .unknown => .unknownOpcodeRequest 0

/-- The request that a packet with header `h` of partner `k` makes at its stamp (R120, R125, R127 to R130). -/
def Dev.requestOf (d : Dev) (o : Opc) (h : ReqHdr) (k : Nat) : Req :=
  { id := d.txn.nextId, ord := d.txn.nextOrd, opc := o, opcRaw := o.code, ptn := k, port := h.port, vc := h.vc
    gen := (d.port h.port).gen, stamp := d.dt, tc := h.tc % 8, posted := o.canPost && !(h.np && decide (2 ≤ (d.port h.port).gen))
    fence := h.fence && decide (2 ≤ (d.port h.port).gen), dropLate := h.dropLate && decide (3 ≤ (d.port h.port).gen)
    tag := h.tag % 4096, addr := h.addr, mod := h.mod, len := h.len, dline := h.dline, data := h.data }

/-- A packet comes from attached partner `k` on its port, and no admitted request bears a number not yet given. -/
def Dev.FromPartner (d : Dev) (h : ReqHdr) (k : Nat) : Prop :=
  hdrOk h = true ∧ k < 64 ∧ (d.port h.port).partner = some k ∧ (d.ptn k).st = .attached ∧ ∀ r, r ∈ d.txn.reqs → r.id < d.txn.nextId

/-- The tag of a request is free, or the request is posted and needs none (R127). -/
def Dev.TagFree (d : Dev) (o : Opc) (h : ReqHdr) (k : Nat) : Prop :=
  (d.requestOf o h k).posted = true ∨ d.tagHeld k (h.tag % 4096) = false

/-- No admitted enqueue of queue `q` is due to link: the queue order holds nothing before a request stamped now (R140, R181). -/
def Dev.NoLinkDue (d : Dev) (q : Nat) : Prop := ∀ o, o ∈ d.qm.opens → o.q = q → d.enqReady o = false

/-- Request counters have moved on, and the tag of a request that is not posted is held. -/
def Dev.Stamped (a : Dev) (o : Opc) (h : ReqHdr) (k : Nat) (b : Dev) : Prop :=
  b.txn.nextId = a.txn.nextId + 1 ∧ b.txn.nextOrd = a.txn.nextOrd + 1 ∧ b.txn.last = some (a.dt, k, h.tag) ∧
  b.txn.tags = if (a.requestOf o h k).posted then a.txn.tags else a.txn.tags ++ [4096 * k + h.tag % 4096]

/-- One fragment has been staged: the whole response of request `r`, with a status, data and AUX. -/
def Dev.Responds (a : Dev) (r : Req) (st : Status) (data : List Byte) (aux : Nat) (b : Dev) : Prop :=
  b.txn.frags = a.txn.frags ++ [{
    id := r.id, ord := r.ord, stamp := r.stamp, ptn := r.ptn, port := r.port, vc := respVc r.vc, opc := r.opcRaw, status := st, tag := r.tag
    late := lateAt r.deadline a.dt, data := data, doneDt := a.dt, aux := aux, tc := r.tc }]

/-- The canonical form of storage: keys strictly rising, and no entry equal to what an unlisted place reads as. -/
def Memory.wf (m : MemU) : Bool :=
  tabWf (fun _ => (0 : Byte)) m.bytes && tabWf (fun _ => false) m.blkValid && tabWf (fun _ => false) m.wordValid &&
  tabWf (fun _ => 0) m.dErr && tabWf (fun _ => 0) m.sErr && tabWf (fun _ => 0) m.badLink && tabWf (fun _ => 0) m.evac

/-- The canonical form of the two fuse copies. -/
def Fuses.wf (f : Fuses) : Bool := tabWf (fun _ => (0 : Word)) f.a && tabWf (fun _ => (0 : Word)) f.b

/-- Every bit burned in `f` is burned in `g`, in the words and in the lock fuses: nothing turns a 1 back into a 0 (R452). -/
def Fuses.Kept (f g : Fuses) : Prop :=
  (∀ k, f.wordA k &&& g.wordA k = f.wordA k) ∧ (∀ k, f.wordB k &&& g.wordB k = f.wordB k) ∧
  f.wlA &&& g.wlA = f.wlA ∧ f.wlB &&& g.wlB = f.wlB ∧ f.rlA &&& g.rlA = f.rlA ∧ f.rlB &&& g.rlB = f.rlB

/-- Byte of storage at a place. -/
def Dev.byteAt (d : Dev) (p : Nat) : Byte := tabGet (fun _ => (0 : Byte)) d.mem.bytes p

/-- Byte of user-visible stack SRAM as it reads: zero in a word not written yet (R154). -/
def Dev.sramByte (d : Dev) (a : Nat) : Byte := if d.wordValid (a / 8) then d.byteAt a else 0
/-- `n` bytes of stack SRAM from `a`. -/
def Dev.sramBytes (d : Dev) (a n : Nat) : List Byte := (List.range n).map (fun i => d.sramByte (a + i))
/-- A store to stack SRAM: the bytes `bs` stand from `a` on, and every other byte reads as before. -/
def Dev.SramStored (x : Dev) (a : Nat) (bs : List Byte) (y : Dev) : Prop :=
  (∀ i, i < bs.length → y.sramByte (a + i) = bs.getD i 0) ∧ ∀ b, b < a ∨ a + bs.length ≤ b → y.sramByte b = x.sramByte b

/-- An engine has taken the table command of a slot pair as an operation of kind `opc` with data `data` (R335). -/
def Dev.TableTaken (a : Dev) (o i : Nat) (opc : Opc) (data : List Byte) (b : Dev) : Prop :=
  (∃ r : Req, b.txn = { a.txn with nextId := a.txn.nextId + 1, nextOrd := a.txn.nextOrd + 1, reqs := a.txn.reqs ++ [r] } ∧
    r.id = a.txn.nextId ∧ r.ord = a.txn.nextOrd ∧ r.opc = opc ∧ r.stamp = a.dt ∧ r.td = a.td (leAt (a.par o i) 0 1) ∧ r.data = data ∧
    r.fw = some (8 * o + i) ∧ r.ctx = false ∧ r.st = .waiting ∧ r.home = a.homeOf r) ∧
  b.pair o i = { a.pair o i with wait := true, eng := none, work := [a.txn.nextId] } ∧ a.PairsBut o i b

/-- Table operation `r` has ended: its completion waits for the collector with status `st`, of which firmware makes command status `fw` and
result `res` (R215, R334). -/
def Dev.TableEnded (a : Dev) (r : Req) (st : Status) (fw : Nat) (res : List Byte) (b : Dev) : Prop :=
  (∃ x : Req, b.req? r.id = some x ∧ x.st = .done ∧ x.status = st ∧ fwTableStatus x.status = fw ∧ x.fwResult = res) ∧
  b.txn.comps = a.txn.comps ++ [{ src := if r.fw.isSome then 64 + r.home / 16 else r.home, ref := .table r.id }]

/-- Neither copy of the image state record bears the last SEQ (R313). -/
def Dev.ImgSeqOk (d : Dev) : Prop := leAt (d.flashAt 0xF000 8) 4 4 ≠ 0xFFFFFFFF ∧ leAt (d.flashAt 0xB000 8) 4 4 ≠ 0xFFFFFFFF

/-- The flash differs at most in the two copies of the image state record, and the record in force is `r` (R313). -/
def Dev.ImgRecord (a : Dev) (r : ImgRec) (b : Dev) : Prop :=
  (a.ImgSeqOk → b.imgRec = r) ∧ b.boot = { a.boot with flash := b.boot.flash } ∧
  ∀ k, k < 0xB000 ∨ (0xC000 ≤ k ∧ k < 0xF000) ∨ 0x10000 ≤ k → b.flashAt k 1 = a.flashAt k 1

/-- The command answers a next state of which `P` holds. -/
def Completes (i : Instr) (s : State) (P : State → Prop) : Prop := ∃ t, exec i s = .next t ∧ P t

end Sys2Proof.Machine
end

