-- ==== Sys2Proof/Certificates/Slice0/Obligations.lean ====
section
/-!
DEFINITION. The statements for the provers.
-/
open Sys2Proof
open Sys2Proof.Machine

/-! ### The machine as a whole -/

/-- A step takes the command at the front of the queue: it is `exec` of that command on the state with the queue's rest. On an empty queue a step lets device time count one nanosecond where it runs, modulo 2^64, and changes nothing else
(DESIGN CHOICE, log 4). -/
def Obligations.StepTakesFront : Prop :=
  (∀ (s : State) (c : Instr) (rest : List Instr), s.pending = c :: rest → step s = exec c { s with pending := rest }) ∧
  (∀ s : State, s.pending = [] → ∃ t : State, step s = .next t ∧
    t.dev.dt = (if s.dev.clk.dtRun && s.dev.clk.dtSrc != .frozen then (s.dev.dt + 1) % 2 ^ 64 else s.dev.dt) ∧
    { t.dev.clk with dt := s.dev.clk.dt } = s.dev.clk ∧ Keeps [.clk] s t)

/-- Every command whose operands name instances the device has answers a next state, and leaves the queue of waiting commands
as it is; every other command stops with the fault that names no such instance. -/
def Obligations.ExecAnswersOrFaults : Prop :=
  ∀ (i : Instr) (s : State),
    (i.wf = true → Completes i s (fun t => t.pending = s.pending)) ∧ (i.wf = false → exec i s = .fault .noSuchInstance)

/-- Commands that may burn fuses: OTP_PROGRAM, OTP_LOCK, LC_ADVANCE, GRAFT_LINK with FUSE 1, and SELFTEST_RUN. -/
def burns : Instr → Bool
  | .otpProgram _ _ _ | .otpLock _ _ _ | .lcAdvance _ _ _ | .graftLink _ _ _ | .selftestRun _ _ _ _ => true
  | _ => false

/-- No command but the five that may burn reaches the fuses (R452, R463). -/
def Obligations.OnlyBurnsReachFuses : Prop :=
  ∀ (i : Instr) (s t : State), burns i = false → exec i s = .next t → t.fuse = s.fuse

/-- Nothing turns a burned fuse back: through every step every bit burned in either copy of a word, and every lock fuse, stays
burned (R452). -/
def Obligations.BurnedStaysBurned : Prop :=
  ∀ s t : State, step s = .next t → s.fuse.Kept t.fuse

/-- The fuse tables stay canonical through every step: keys rise and no word without a burned bit is listed, so equal fuses are
equal data. -/
def Obligations.FuseFormKept : Prop :=
  ∀ s t : State, s.fuse.wf = true → step s = .next t → t.fuse.wf = true

/-- The fuse tables and the storage are canonical at reset (no fuse burned, nothing listed: DESIGN CHOICE, log 2). -/
def Obligations.ResetCanonical : Prop :=
  State.reset.fuse.wf = true ∧ Memory.wf State.reset.dev.mem = true

/-! ### Pins and power -/

/-- R38, R39, R40: power-up starts the keep-alive ring, a rise of RESET_N (or t2 with RESET_N already high) samples the straps
and enters BOOT, a RESET_N low of 1 µs or more resets the chip, a fall of PWRGD releases the pins and sends every layer to
self-refresh. Of each the frame: what is not named is at its reset value, and the flash and the marks of damaged links stay.
That a low of less than 100 ns does nothing, and that between 100 ns and 1 µs a free value decides, is the model's reading.
R35, R37: a rail out of tolerance raises FS010 naming it; VPROG above 0.3 V outside the programming window raises FS011
and marks it until VPROG has settled; VPROG out of its own range is not fit to burn; a new VDD_CORE request is published with its device
time and sets its pending bit, the work rate slowed to suit a lower one first. A
request that is out of range, off the 5 mV grid or in force already changes nothing. -/
def Obligations.PowerAndReset : Prop :=
  (∀ (s : State) (b : BootEnv) (ns : Nat),
    (s.dev.pin.pwrgd = false → Completes .pwrgdRise s (fun t => t.dev.pin = { s.dev.pin with
        pwrgd := true, cold := true, resetN := false, thermN := false, vreq := 800, vforce := 800, vreqDt := 0, vwork := 800, vsave := 800
        resetCause := 0, resetSource := 0, bootHold := 0 } ∧
      t.dev.clk.ringOn = true ∧ t.dev.clk.ringSettled = false ∧ t.dev.clk.ringCause = 0 ∧ t.dev.clk.mode = .boot ∧
      t.dev.boot.flash = s.dev.boot.flash ∧ t.dev.boot.wear = s.dev.boot.wear ∧ t.dev.mem.badLink = s.dev.mem.badLink ∧
      t.dev.freeIx = s.dev.freeIx ∧ t.fuse = s.fuse ∧ t.pending = s.pending ∧
      Dev.Keeps [.pin, .clk, .mem, .boot, .free] {} t.dev)) ∧
    (s.dev.pin.pwrgd = true → Completes .pwrgdFall s (fun t =>
      t.dev.pin.pwrgd = false ∧ t.dev.pin.thermN = false ∧ t.dev.fault.errLow = false ∧
      (∀ c : Nat, c < 64 → (t.dev.ch c).sr = some .sre) ∧ t.dev.clk = {} ∧
      t.dev.boot.flash = s.dev.boot.flash ∧ t.dev.boot.wear = s.dev.boot.wear ∧ t.dev.mem.badLink = s.dev.mem.badLink ∧
      t.dev.freeIx = s.dev.freeIx ∧ t.fuse = s.fuse ∧ t.pending = s.pending ∧
      Dev.Keeps [.pin, .mem, .dram, .boot, .free] {} t.dev)) ∧
    (s.dev.pin.pwrgd = true → s.dev.pin.cold = true → Completes (.resetNRise b) s (fun t =>
      t.dev.pin.resetN = true ∧ t.dev.pin.cold = false ∧ t.dev.pin.straps = b.straps % 8 ∧ t.dev.clk.mode = .boot ∧
      t.dev.pin.resetCause = 0 ∧ t.fuse = s.fuse ∧ t.pending = s.pending ∧ Dev.Keeps romParts {} t.dev)) ∧
    (s.dev.pin.pwrgd = true → s.dev.pin.cold = true → s.dev.clk.ringSettled = true →
      exec (.powerupT2Reached b) s = exec (.resetNRise b) s) ∧
    (s.dev.pin.pwrgd = true → s.dev.pin.cold = true → s.dev.clk.ringSettled = true → Completes (.powerupT2Reached b) s (fun t =>
      t.dev.pin.resetN = true ∧ t.dev.pin.cold = false ∧ t.dev.pin.straps = b.straps % 8 ∧ t.dev.clk.mode = .boot ∧
      t.fuse = s.fuse ∧ t.pending = s.pending ∧ Dev.Keeps romParts {} t.dev)) ∧
    (s.dev.pin.pwrgd = true → 1000 ≤ ns → Completes (.resetNLow ns b) s (fun t =>
      t.dev.pin.resetCause = 1 ∧ t.dev.pin.resetN = true ∧ t.dev.pin.cold = false ∧ t.dev.pin.straps = b.straps % 8 ∧ t.dev.clk.mode = .boot ∧
      t.fuse = s.fuse ∧ t.pending = s.pending ∧ Dev.Keeps romParts {} t.dev)) ∧
    (ns < 100 → exec (.resetNLow ns b) s = .next s)) ∧
  (∀ (s : State) (rail dir mv : Nat),
    (s.dev.pin.pwrgd = true → rail < 6 → Completes (.railOutOfTolerance rail dir) s (fun t =>
      s.dev.Raised 10 { kind := 12, inst := rail, a := dir } t.dev ∧ Keeps faultParts s t ∧ s.dev.Noted [] [] [10] t.dev)) ∧
    (s.dev.pin.pwrgd = true → Completes (.railOutOfTolerance 6 dir) s (fun t =>
      t.dev.pin = { s.dev.pin with vprogOk := false } ∧ Keeps [.pin] s t)) ∧
    (s.dev.pin.pwrgd = true → s.dev.otp.win = none → Completes .vprogHigh s (fun t =>
      t.dev.pin = { s.dev.pin with vprogBad := true, vprogOk := true, vprogUp := true } ∧ s.dev.Raised 11 {} t.dev ∧
      Keeps (.pin :: faultParts) s t ∧ s.dev.Noted [] [] [11] t.dev)) ∧
    (∀ w : Nat, s.dev.pin.pwrgd = true → s.dev.otp.win = some w → Completes .vprogHigh s (fun t =>
      t.dev.pin = { s.dev.pin with vprogOk := true, vprogUp := true } ∧ Keeps [.pin] s t)) ∧
    Completes .vprogSettled s (fun t =>
      t.dev.pin = { s.dev.pin with vprogBad := false, vprogOk := false, vprogUp := false } ∧ Keeps [.pin] s t) ∧
    (650 ≤ mv → mv ≤ 850 → mv % 5 = 0 → mv ≠ s.dev.pin.vreq → Completes (.vcoreRequestPublish mv) s (fun t =>
      t.dev.pin = { s.dev.pin with vreq := mv, vreqDt := s.dev.dt, vwork := min s.dev.pin.vwork mv } ∧
      t.dev.csrAt 0 bGlobal 0x30 = s.dev.csrAt 0 bGlobal 0x30 ||| 1 ∧
      s.dev.RegsBut [regKey 0 bGlobal 0x30] t.dev ∧ Keeps [.pin, .csr] s t)) ∧
    ((mv < 650 ∨ 850 < mv ∨ mv % 5 ≠ 0 ∨ mv = s.dev.pin.vreq) → exec (.vcoreRequestPublish mv) s = .next s))
/-! ### Clocks and the keep-alive ring -/

/-- R383, R385: the ring settles (a DT that was frozen goes on from it), fails to settle within 1 ms (FS022, or in BOOT a
hold), and is measured again while REFCLK is valid. A ring that settles while the ROM loader waits for it lets the loader go on. R384, R386: while REFCLK is missing a clock hold runs: DT goes on from a settled ring or freezes, no PLL is in use, and
FS020 is raised, with its instance 1 where the ring took over; outside BOOT no port stays up, every octet PLL is lost and every
channel in service is sent to self-refresh (stated where no port is in FAIL, since such a port tries again as its lanes change). REFCLK that returns leaves the hold to the PLLs; the hold ends when every channel is out of self-refresh. -/
def Obligations.RingAndClockHold : Prop :=
  (∀ (s : State) (period : Nat),
    (s.dev.clk.ringOn = true → s.dev.clk.ringSettled = false → s.dev.boot.env = none → Completes (.ringSettle period) s (fun t =>
      t.dev.clk = { s.dev.clk with
        ringSettled := true, ringFailed := false, ringDt := s.dev.dt
        ringPeriod := if s.dev.clk.refOk then period % 2 ^ 32 else s.dev.clk.ringPeriod
        dtSrc := if s.dev.clk.dtSrc = .frozen then .ring else s.dev.clk.dtSrc } ∧ Keeps [.clk, .telem] s t)) ∧
    (∀ b : BootEnv, s.dev.clk.ringOn = true → s.dev.clk.ringSettled = false → s.dev.boot.env = some b → Completes (.ringSettle period) s (fun t =>
      t.dev.clk.ringSettled = true ∧ Keeps romParts s t)) ∧
    (s.dev.clk.ringOn = false ∨ s.dev.clk.ringSettled = true → s.dev.boot.env = none → exec (.ringSettle period) s = .next s) ∧
    (s.dev.clk.ringOn = true → s.dev.clk.ringSettled = false → s.dev.clk.ringFailed = false →
      s.dev.clk.dtRun = false ∨ s.dev.clk.dtSrc = .frozen ∨ s.dev.clk.ringAt + 1000000 ≤ s.dev.dt →
      (s.dev.clk.mode = .boot ∧ s.dev.clk.ringCause = 0 → Completes .ringSettleTimeout s (fun t =>
        t.dev.pin = { s.dev.pin with bootHold := 2 } ∧ Keeps [.pin] s t)) ∧
      (¬ (s.dev.clk.mode = .boot ∧ s.dev.clk.ringCause = 0) → Completes .ringSettleTimeout s (fun t =>
        t.dev.clk = { s.dev.clk with ringFailed := true } ∧ s.dev.Raised 22 {} t.dev ∧ s.dev.Marks 0 bClock 0x60 8 t.dev ∧
        Keeps (.clk :: faultParts) s t ∧ s.dev.Noted [regKey 0 bClock 0x60] [] [22] t.dev))) ∧
    (s.dev.clk.ringSettled = true → s.dev.clk.refOk = true → Completes (.ringRemeasure period) s (fun t =>
      t.dev.clk = { s.dev.clk with ringPeriod := period % 2 ^ 32 } ∧ Keeps [.clk] s t)) ∧
    (s.dev.clk.ringSettled = false ∨ s.dev.clk.refOk = false → exec (.ringRemeasure period) s = .next s)) ∧
  (∀ (s : State) (b : BootEnv),
    (s.dev.clk.refOk = true → s.dev.pin.pwrgd = true → s.dev.clk.mode ≠ .boot → (∀ n : Nat, n < 144 → (s.dev.port n).st ≠ .fail) →
      Completes .clockMonitorTrip s (fun t =>
      t.dev.clk = { s.dev.clk with
        refOk := false, hold := true, tripDt := s.dev.dt, holdAt := if s.dev.clk.hold then s.dev.clk.holdAt else s.dev.dt
        dtSrc := if s.dev.clk.ringSettled then .ring else .frozen
        tbLock := false, hwLock := false, mgLock := false, tbPll := false, hwPll := false, mgPll := false } ∧
      s.dev.Raised 20 { inst := b2n s.dev.clk.ringSettled } t.dev ∧
      (∀ n : Nat, n < 144 → (t.dev.port n).st = if (s.dev.port n).st = .off then .off else .hold) ∧
      (∀ o : Nat, o < 18 → (t.dev.oct o).pllLock = false) ∧
      (∀ c : Nat, c < 64 → s.dev.serving c = true → (s.dev.ch c).st ≠ .selfref → (t.dev.ch c).sr = some .sre) ∧
      Keeps (([.clk, .lane, .lin, .lout, .oct, .port, .dram, .therm] : List Part) ++ faultParts) s t)) ∧
    (s.dev.clk.refOk = false ∨ s.dev.pin.pwrgd = false → exec .clockMonitorTrip s = .next s) ∧
    (s.dev.clk.refOk = true → s.dev.pin.pwrgd = true → s.dev.clk.mode = .boot → Completes .clockMonitorTrip s (fun t =>
      s.dev.Raised 20 { inst := b2n s.dev.clk.ringSettled } t.dev ∧ s.dev.Counts 0 bClock 0x80 1 t.dev ∧
      s.dev.Marks 0 bClock 0x60 1 t.dev ∧ t.dev.clk.mode = .boot ∧ Keeps (.clk :: faultParts) s t ∧
      s.dev.Noted [regKey 0 bClock 0x60] [regKey 0 bClock 0x80] [20] t.dev)) ∧
    (s.dev.clk.refOk = false → s.dev.clk.mode ≠ .boot → s.dev.fault.brstWait = [] → Completes (.refclkReturn b) s (fun t =>
      t.dev.clk.refOk = true ∧ t.dev.clk.hold = s.dev.clk.hold ∧ t.dev.clk.dt = s.dev.dt ∧ Keeps [.clk] s t)) ∧
    (s.dev.clk.refOk = true → exec (.refclkReturn b) s = .next s) ∧
    (s.dev.clk.hold = true → s.dev.clk.refOk = true → s.dev.clk.tbLock = true → s.dev.clk.move = none → s.dev.clk.mode = .service →
      s.dev.allOut = true → Completes .clockHoldEnd s (fun t =>
        t.dev.clk = { s.dev.clk with hold := false } ∧ s.dev.Marks 0 bClock 0x60 2 t.dev ∧
        s.dev.Counts 0 bClock 0x90 (s.dev.dt - s.dev.clk.holdAt) t.dev ∧
        (∀ n : Nat, n < 144 → t.dev.port n = if (s.dev.port n).st = .hold
          then { s.dev.port n with holdEnd := some (s.dev.dt + s.dev.holdNs n) } else s.dev.port n) ∧
        Keeps (.clk :: .port :: faultParts) s t ∧ s.dev.Noted [regKey 0 bClock 0x60] [regKey 0 bClock 0x90] [] t.dev)) ∧
    (s.dev.clk.hold = false → exec .clockHoldEnd s = .next s))

/-- R378, R380, R381, R387, R390: an island's PLL locks or loses lock, a clock switch is released by force, Heartwood is woken in
RETAIN, the management island stops after 1 ms, and GATE_CFG is written: its column for the mode in force applies at once, also to the
octet PLLs. Heartwood's wake and REFCLK's return are stated where no block reset of R379 waits for them. -/
def Obligations.Islands : Prop :=
  ∀ (s : State) (p : Path) (v : Word),
    (s.dev.clk.refOk = true → s.dev.pin.pwrgd = true → s.dev.pin.cold = false → s.dev.clk.mode ≠ .retain →
      (s.dev.clk.hold = false → Completes (.islandPllLock 0) s (fun t =>
        t.dev.clk = { s.dev.clk with tbLock := true, tbPll := true, dtSrc := .pll, dtRun := true
                                     dt := if s.dev.clk.dtRun then s.dev.clk.dt else 0 } ∧ Keeps [.clk] s t)) ∧
      Completes (.islandPllLock 1) s (fun t => t.dev.clk = { s.dev.clk with hwLock := true, hwPll := true } ∧ Keeps [.clk] s t) ∧
      Completes (.islandPllLock 2) s (fun t => t.dev.clk = { s.dev.clk with mgLock := true, mgPll := true } ∧ Keeps [.clk] s t)) ∧
    (∀ k : Nat, k < 3 → s.dev.clk.refOk = true →
      (if k = 0 then s.dev.clk.tbLock else if k = 1 then s.dev.clk.hwLock else s.dev.clk.mgLock) = true →
      Completes (.pllUnlock k) s (fun t =>
        t.dev.clk = (if k = 0 then { s.dev.clk with tbLock := false, tbPll := false, dtSrc := .divider }
          else if k = 1 then { s.dev.clk with hwLock := false, hwPll := false }
          else { s.dev.clk with mgLock := false, mgPll := false }) ∧
        s.dev.Raised 23 {} t.dev ∧ s.dev.Marks 0 bClock 0x60 16 t.dev ∧
        Keeps (.clk :: faultParts) s t ∧ s.dev.Noted [regKey 0 bClock 0x60] [] [23] t.dev)) ∧
    (∀ k : Nat, k < 3 → Completes (.switchForcedRelease k) s (fun t =>
      s.dev.Raised 21 { kind := 14, inst := k } t.dev ∧ s.dev.Marks 0 bClock 0x14 (2 ^ (8 + k)) t.dev ∧
      s.dev.Marks 0 bClock 0x60 4 t.dev ∧ s.dev.Counts 0 bClock 0x88 1 t.dev ∧
      Keeps faultParts s t ∧ s.dev.Noted [regKey 0 bClock 0x14, regKey 0 bClock 0x60] [regKey 0 bClock 0x88] [21] t.dev)) ∧
    (s.dev.clk.mode = .retain → s.dev.clk.refOk = true → s.dev.fault.brstWait = [] → Completes .heartwoodWake s (fun t =>
      t.dev.clk = { s.dev.clk with hwStopped := false } ∧ Keeps [.clk] s t)) ∧
    (s.dev.clk.mode ≠ .retain ∨ s.dev.clk.refOk = false → exec .heartwoodWake s = .next s) ∧
    (s.dev.mgMayStop = true → s.dev.clk.mgIdleAt + 1000000 ≤ s.dev.dt → Completes .mgmtIslandIdle s (fun t =>
      t.dev.clk = { s.dev.clk with mgStopped := true } ∧ Keeps [.clk] s t)) ∧
    (pathOk p = true → s.dev.mayWrite p = true → Completes (.gateCfgWrite p v) s (fun t =>
      t.dev.csrAt 0 bClock 0x30 = word (v.toNat &&& 0x7771) ∧
      t.dev.clk = { s.dev.clk with gateNow := clearBits s.dev.clk.gateNow (gateBits s.dev.clk.mode) |||
        (v.toNat &&& 0x7771 &&& gateBits s.dev.clk.mode) } ∧
      s.dev.RegsBut [regKey 0 bClock 0x30] t.dev ∧ Keeps [.clk, .csr, .oct] s t)) ∧
    (∀ n : Nat, n < 64 → exec (.gateCfgWrite (.partner n) v) s = .next s)

/-! ### Heat and calibration -/

/-- R392, R393: a conversion in the range −40 to 150 °C becomes the sensor's reading (5 °C higher where no trim is valid); one
outside it breaks the sensor and raises FS044 unless it was broken; a sensor that completes none for 30 µs is judged broken and its
reading is not valid. Sensors other than the one named, and while DT is frozen every sensor, stay as they are. R394 to R397, R403: an evaluation gives every layer the temperature and SRC formed from its readings and its prediction, and the
power reported for it; a layer at or above SHUT_C shuts the device down into BOOT, with THERM_N driven and VDD_CORE requested at 650 mV;
after a shutdown, and a second time in one cycle of 10 µs, it does nothing. The end of the rise hold takes every rise trip that has run out. -/
def Obligations.SensorsAndLayers : Prop :=
  (∀ (s : State) (i : Nat) (c : Int), i < 160 →
    (∀ v : Int, v = (if s.dev.therm.noTrim then c + 80 else c) → ¬ (i = 31 ∧ s.dev.clk.ringOn = true ∧ s.dev.clk.ringSettled = false) →
      s.dev.clk.dtSrc ≠ .frozen → Completes (.sensorConversion i c) s (fun t =>
        (t.dev.sensor i).reading = v ∧ (t.dev.sensor i).lastAt = s.dev.dt ∧ s.dev.Counts 0 bThermal 0x80 1 t.dev ∧
        (-640 ≤ v ∧ v ≤ 2400 → (s.dev.sensor i).broken = false →
          (t.dev.sensor i).valid = true ∧ (t.dev.sensor i).broken = false ∧ Keeps [.therm, .otp, .ctr] s t) ∧
        (¬ (-640 ≤ v ∧ v ≤ 2400) → (t.dev.sensor i).valid = false ∧ (t.dev.sensor i).broken = true ∧
          ((s.dev.sensor i).broken = false → s.dev.Raised 44 { kind := 10, inst := i } t.dev ∧ s.dev.Marks 0 bThermal 0x30 4 t.dev)) ∧
        (∀ j : Nat, j ≠ i → t.dev.sensor j = s.dev.sensor j) ∧ Keeps (.therm :: .otp :: faultParts) s t ∧
        s.dev.Noted [regKey 0 bThermal 0x30] [regKey 0 bThermal 0x80] [44] t.dev)) ∧
    (s.dev.clk.dtSrc ≠ .frozen → (s.dev.sensor i).lastAt + 30000 ≤ s.dev.dt → Completes (.sensorTimeout i) s (fun t =>
      t.dev.sensor i = { s.dev.sensor i with valid := false, broken := true, good := 0 } ∧
      ((s.dev.sensor i).broken = false → s.dev.Raised 44 { kind := 10, inst := i } t.dev ∧ s.dev.Marks 0 bThermal 0x30 4 t.dev) ∧
      (∀ j : Nat, j ≠ i → t.dev.sensor j = s.dev.sensor j) ∧ Keeps (.therm :: faultParts) s t ∧
      s.dev.Noted [regKey 0 bThermal 0x30] [] [44] t.dev)) ∧
    (s.dev.clk.dtSrc = .frozen → exec (.sensorConversion i c) s = .next s ∧ exec (.sensorTimeout i) s = .next s)) ∧
  (∀ (s : State) (pow : List Nat),
    (s.dev.therm.shut = false → s.dev.therm.evalNext ≤ s.dev.dt / 10000 → Completes (.thermalEvaluation pow) s (fun t =>
      (∀ n : Nat, n < 21 → (t.dev.layer n).temp = (s.dev.evalTemp pow n).1 ∧ (t.dev.layer n).src = (s.dev.evalTemp pow n).2 ∧
        (t.dev.layer n).power = pow.getD n 0) ∧
      t.dev.therm.evalAt = s.dev.dt ∧ t.dev.clk.dt = s.dev.dt ∧
      ((∃ n : Nat, n < 21 ∧ (16 * s.dev.cfgFld 0 bThermal 0x10 24 8 : Nat) ≤ (s.dev.evalTemp pow n).1) →
        t.dev.therm.shut = true ∧ t.dev.clk.mode = .boot ∧ t.dev.pin.thermN = s.dev.pinsOn ∧ t.dev.pin.bootHold = 6 ∧ t.dev.pin.vreq = 650) ∧
      ((∀ n : Nat, n < 21 → (s.dev.evalTemp pow n).1 < (16 * s.dev.cfgFld 0 bThermal 0x10 24 8 : Nat)) →
        t.dev.therm.shut = false ∧ Keeps (.therm :: .reg :: .dram :: .pin :: faultParts) s t) ∧
      Keeps [.pin, .clk, .lane, .lin, .lout, .oct, .port, .fault, .mbox, .telem, .txn, .qm, .dram, .reg, .xfer, .therm, .otp, .boot, .csr, .ctr] s t)) ∧
    (s.dev.therm.shut = true ∨ s.dev.dt / 10000 < s.dev.therm.evalNext → exec (.thermalEvaluation pow) s = .next s) ∧
    Completes .riseHoldExpiry s (fun t =>
      (∀ n : Nat, n < 21 → t.dev.layer n = if due (s.dev.layer n).rise s.dev.dt then { s.dev.layer n with rise := none } else s.dev.layer n) ∧
      (∀ n : Nat, 21 ≤ n → t.dev.layer n = s.dev.layer n) ∧ Keeps (.therm :: .reg :: faultParts) s t ∧
      s.dev.Noted [regKey 0 bThermal 0x30] [regKey 0 bThermal 0xA8] [] t.dev))

/-- R406, R407: a pending domain starts a step inside its gap; a run that succeeds takes effect and clears the failures; a step that
reaches STEP_US is a bad calibration, the third in a row raises FS045 and suspends the domain; a step that does not end the run lets it
go on; a step whose lane gap has been withdrawn leaves its domain pending. Other domains stay as they are. -/
def Obligations.CalibrationSteps : Prop :=
  ∀ (s : State) (n : Nat), n < 227 →
    ((s.dev.dom n).suspended = false → (s.dev.dom n).step = none → (s.dev.dom n).pending = true ∨ (s.dev.dom n).inRun = true → s.dev.calGap n = true →
      Completes (.calStepStart n) s (fun t =>
        t.dev.dom n = { s.dev.dom n with step := some s.dev.dt, pending := false, inRun := true
                                         lim := 1000 * s.dev.cfgFld 0 bThermal 0x18 16 10
                                         startT := if (s.dev.dom n).inRun then (s.dev.dom n).startT else (s.dev.sensor (domSensor n)).reading } ∧
        (n = 226 → t.dev.clk.ringOn = true ∧ t.dev.clk.ringSettled = false ∧ t.dev.clk.ringCause = 2) ∧
        (n ≠ 226 → t.dev.clk = s.dev.clk) ∧ (∀ m : Nat, m ≠ n → t.dev.dom m = s.dev.dom m) ∧ Keeps [.therm, .clk] s t)) ∧
    (∀ b : Nat, (s.dev.dom n).step = some b → s.dev.dt < b + (s.dev.dom n).lim → s.dev.calGap n = true →
      Completes (.calStepFinish n true) s (fun t =>
        t.dev.dom n = { s.dev.dom n with step := none, inRun := false, fails := 0, refT := (s.dev.dom n).startT, ran := true } ∧
        s.dev.Counts 0 bThermal 0x88 1 t.dev ∧ (∀ m : Nat, m ≠ n → t.dev.dom m = s.dev.dom m) ∧
        s.dev.CtrsBut [regKey 0 bThermal 0x88] t.dev ∧ Keeps [.therm, .ctr, .telem] s t) ∧
      Completes (.calStepFinish n false) s (fun t =>
        t.dev.dom n = { s.dev.dom n with step := none } ∧ (∀ m : Nat, m ≠ n → t.dev.dom m = s.dev.dom m) ∧ Keeps [.therm, .telem] s t)) ∧
    (∀ b : Nat, (s.dev.dom n).step = some b → s.dev.dt < b + (s.dev.dom n).lim → n < 162 → s.dev.calGap n = false → ∀ ok : Bool,
      Completes (.calStepFinish n ok) s (fun t =>
        t.dev.dom n = { s.dev.dom n with step := none, inRun := false, pending := true } ∧ s.dev.Counts 0 bThermal 0x98 1 t.dev ∧
        (∀ m : Nat, m ≠ n → t.dev.dom m = s.dev.dom m) ∧ s.dev.CtrsBut [regKey 0 bThermal 0x98] t.dev ∧
        Keeps [.therm, .ctr, .telem] s t)) ∧
    (∀ b : Nat, (s.dev.dom n).step = some b → b + (s.dev.dom n).lim ≤ s.dev.dt →
      (∀ ok : Bool, exec (.calStepFinish n ok) s = exec (.calStepTimeout n) { s with dev := s.dev.arb 9 n n 0 }) ∧
      Completes (.calStepTimeout n) s (fun t =>
        (t.dev.dom n).step = none ∧ (t.dev.dom n).inRun = false ∧ (t.dev.dom n).fails = (s.dev.dom n).fails + 1 ∧
        s.dev.Counts 0 bThermal 0x90 1 t.dev ∧
        ((s.dev.dom n).fails + 1 < 3 → (t.dev.dom n).suspended = (s.dev.dom n).suspended ∧ Keeps [.therm, .ctr] s t) ∧
        (3 ≤ (s.dev.dom n).fails + 1 → (t.dev.dom n).suspended = true ∧ (t.dev.dom n).pending = false ∧
          s.dev.Raised 45 { kind := 11, inst := n } t.dev ∧ s.dev.Marks 0 bThermal 0x30 16 t.dev) ∧
        (∀ m : Nat, m ≠ n → t.dev.dom m = s.dev.dom m) ∧ Keeps (.therm :: faultParts) s t ∧
        s.dev.Noted [regKey 0 bThermal 0x30] [regKey 0 bThermal 0x90] [45] t.dev)) ∧
    ((s.dev.dom n).step = none → exec (.calStepFinish n true) s = .next s ∧ exec (.calStepTimeout n) s = .next s)

/-! ### Lanes and octets -/

/-- R59, R61: requests to a lane. ENABLE takes an OFF lane to DETECT, or with the octet clause off leaves it OFF with cause 5;
clearing it takes any lane to OFF; an ACTIVE lane goes to QUIET or to DEEP where the far end takes part, and otherwise says so in
LANE_EVENT; a lane in QUIET returns to ACTIVE and one in DEEP to LOCK, on a request or on far-end signal, its octet PLL starting again
where it had stopped; RETRAIN retrains an ACTIVE lane and restarts a lane in FAIL. LSIG 1, 2 or 3 goes out from the next frame on. R60: of
requests in one frame RETRAIN comes before ACTIVE, and ACTIVE before QUIET and DEEP. -/
def Obligations.LaneRequests : Prop :=
  ∀ (s : State) (l : Nat), l < 144 → s.dev.LaneAlone l →
    ((s.dev.lane l).st = .off → s.dev.clauseOf (l / 8) ≠ 0 → Completes (.laneEnable l) s (fun t =>
      (t.dev.lane l).st = .detect ∧ (t.dev.lane l).timer = some (s.dev.dt + 1000000) ∧ t.dev.laneEnabled l = true ∧
      (t.dev.oct (l / 8)).pllOn = true ∧ (t.dev.lout l).kind = .pulses ∧ LaneFrame l s t)) ∧
    ((s.dev.lane l).st = .off → s.dev.clauseOf (l / 8) = 0 → Completes (.laneEnable l) s (fun t =>
      (t.dev.lane l).st = .off ∧ (t.dev.lane l).failCause = 5 ∧ t.dev.laneEnabled l = true ∧ LaneFrame l s t)) ∧
    Completes (.laneDisable l) s (fun t =>
      (t.dev.lane l).st = .off ∧ (t.dev.lane l).timer = none ∧ t.dev.laneEnabled l = false ∧ LaneFrame l s t) ∧
    ((s.dev.lane l).st = .active → s.dev.inFrame l (s.dev.lane l).actAt = false → (s.dev.lane l).farQuiet = true →
      Completes (.laneReqQuiet l) s (fun t =>
      t.dev.lane l = { (s.dev.lane l).goTo .quiet none with
        restAt := some s.dev.dt, restFr := some (s.dev.frameNo (l / 8)), eqStored := none, lsig := 1, lsigAt := s.dev.frameNo (l / 8) + 1 } ∧
      (t.dev.lout l).kind = .frames ∧ (t.dev.lout l).ctl / 2 ^ 15 = 1 ∧ LaneFrame l s t)) ∧
    ((s.dev.lane l).st = .active → s.dev.inFrame l (s.dev.lane l).actAt = true →
      Completes (.laneReqQuiet l) s (fun t => t.dev.lane l = s.dev.lane l ∧ LaneFrame l s t) ∧
      Completes (.laneReqDeep l) s (fun t => t.dev.lane l = s.dev.lane l ∧ LaneFrame l s t)) ∧
    ((s.dev.lane l).st = .active → s.dev.inFrame l (s.dev.lane l).actAt = false → (s.dev.lane l).farQuiet = false → Completes (.laneReqQuiet l) s (fun t =>
      s.dev.Marks l bLane 0x28 8 t.dev ∧ t.dev.lane l = s.dev.lane l ∧ LaneFrame l s t)) ∧
    ((s.dev.lane l).st = .active → s.dev.inFrame l (s.dev.lane l).actAt = false → (s.dev.lane l).farDeep = true →
      Completes (.laneReqDeep l) s (fun t =>
      t.dev.lane l = { (s.dev.lane l).goTo .deep none with
        restAt := some s.dev.dt, restFr := some (s.dev.frameNo (l / 8)), eqStored := (s.dev.lane l).eq, eq := none
        lsig := 2, lsigAt := s.dev.frameNo (l / 8) + 1 } ∧
      (t.dev.lout l).kind = .frames ∧ (t.dev.lout l).ctl / 2 ^ 15 = 2 ∧ LaneFrame l s t)) ∧
    ((s.dev.lane l).st = .active → s.dev.inFrame l (s.dev.lane l).actAt = false → (s.dev.lane l).farDeep = false → Completes (.laneReqDeep l) s (fun t =>
      s.dev.Marks l bLane 0x28 8 t.dev ∧ t.dev.lane l = s.dev.lane l ∧ LaneFrame l s t)) ∧
    ((s.dev.lane l).st = .quiet →
      exec (.farEndSignalDetected l) s = exec (.laneReqActive l) s ∧
      Completes (.laneReqActive l) s (fun t =>
        t.dev.lane l = { (s.dev.lane l).goTo .active none with
          actAt := some (s.dev.frameNo (l / 8)), winEnd := some (s.dev.dt + 1000 * s.dev.cfgFld l bLane 0x60 16 16)
          limU := s.dev.cfgFld l bLane 0x60 0 16, limC := s.dev.cfgFld l bLane 0x64 0 32, failCount := 0 } ∧
        s.dev.Marks l bLane 0x28 1 t.dev ∧ LaneFrame l s t)) ∧
    ((s.dev.lane l).st = .deep → Completes (.farEndSignalDetected l) s (fun t =>
        t.dev.lane l = { (s.dev.lane l).goTo .lock (some (s.dev.dt + 100000)) with
          fromDeep := true, deepBy := some (s.dev.dt + 100000), eq := (s.dev.lane l).eqStored, eqStored := none } ∧
        t.dev.oct (l / 8) = (if (s.dev.oct (l / 8)).pllOn = true ∨ s.dev.clauseOf (l / 8) = 0 then s.dev.oct (l / 8)
          else { s.dev.oct (l / 8) with pllOn := true, pllLock := false, onAt := s.dev.dt }) ∧
        (∀ o : Nat, o ≠ l / 8 → t.dev.oct o = s.dev.oct o) ∧ s.dev.LanesBut l t.dev ∧
        Keeps [.lane, .lout, .oct, .ctr, .therm, .telem] s t)) ∧
    ((s.dev.lane l).st = .active ∨ (((s.dev.lane l).st = .quiet ∨ (s.dev.lane l).st = .deep) ∧
        s.dev.inFrame l (s.dev.lane l).restFr = true) → Completes (.laneRetrain l) s (fun t =>
      (t.dev.lane l).st = .train ∧ (t.dev.lane l).lsig = 3 ∧ (t.dev.lane l).lsigAt = s.dev.frameNo (l / 8) + 1 ∧
      (t.dev.lane l).timer = some (s.dev.dt + 1000000 * s.dev.cfgFld l bLane 0x70 0 16) ∧
      s.dev.Marks l bLane 0x28 2 t.dev ∧ LaneFrame l s t)) ∧
    ((s.dev.lane l).st = .fail → Completes (.laneRetrain l) s (fun t =>
      (t.dev.lane l).st = .detect ∧ (t.dev.lane l).failCount = 0 ∧ LaneFrame l s t))

/-- R52, R59, R61, R63: the timers of a lane. The second receiver-detect pulse in a row that senses the far end begins training once
the octet PLL is locked; TRAIN, LOCK and CAPX end in FAIL with causes 1, 2 and 3, LOCK from DEEP in TRAIN; loss of signal takes an ACTIVE
lane to DETECT; FAIL retries after 10 ms, and after 8 failures in a row waits and raises FS060; a DEEP exit of 100 µs retrains; the gap
is announced after 1 µs of rest; an error window restarts its counts under the limits then set (R67). A timer that is not due changes nothing. -/
def Obligations.LaneTimers : Prop :=
  ∀ (s : State) (l : Nat), l < 144 → s.dev.LaneAlone l →
    (s.dev.laneDue l .detect = true → 1 ≤ (s.dev.lane l).pulses → (s.dev.oct (l / 8)).pllLock = true →
      Completes (.detectPulse l true) s (fun t => (t.dev.lane l).st = .train ∧
        (t.dev.lane l).timer = some (s.dev.dt + 1000000 * s.dev.cfgFld l bLane 0x70 0 16) ∧ LaneFrame l s t)) ∧
    (s.dev.laneDue l .detect = true → Completes (.detectPulse l false) s (fun t =>
      t.dev.lane l = { s.dev.lane l with pulses := 0, timer := some (s.dev.dt + 1000000) } ∧ LaneFrame l s t)) ∧
    (s.dev.laneDue l .train = true → Completes (.trainTimerExpiry l) s (fun t =>
      (t.dev.lane l).st = .fail ∧ (t.dev.lane l).failCause = 1 ∧ (t.dev.lane l).failCount = (s.dev.lane l).failCount + 1 ∧
      (t.dev.lane l).timer = some (s.dev.dt + 10000000) ∧ LaneFrame l s t)) ∧
    (s.dev.laneDue l .lock = true → (s.dev.lane l).fromDeep = false → Completes (.lockTimerExpiry l) s (fun t =>
      (t.dev.lane l).st = .fail ∧ (t.dev.lane l).failCause = 2 ∧ (t.dev.lane l).failCount = (s.dev.lane l).failCount + 1 ∧ LaneFrame l s t)) ∧
    (s.dev.laneDue l .lock = true → (s.dev.lane l).fromDeep = true → Completes (.lockTimerExpiry l) s (fun t =>
      (t.dev.lane l).st = .train ∧ (t.dev.lane l).eq = none ∧ (t.dev.lane l).eqStored = none ∧ LaneFrame l s t)) ∧
    (s.dev.laneDue l .capx = true → Completes (.capxTimerExpiry l) s (fun t =>
      (t.dev.lane l).st = .fail ∧ (t.dev.lane l).failCause = 3 ∧ (t.dev.lane l).failCount = (s.dev.lane l).failCount + 1 ∧ LaneFrame l s t)) ∧
    ((s.dev.lane l).st = .active → Completes (.lossOfSignal l) s (fun t =>
      (t.dev.lane l).st = .detect ∧ s.dev.Marks l bLane 0x28 2 t.dev ∧ LaneFrame l s t)) ∧
    (s.dev.laneDue l .fail = true → (s.dev.lane l).waiting = false → (s.dev.lane l).failCount < 8 → Completes (.failRetryTimer l) s (fun t =>
      (t.dev.lane l).st = .detect ∧ (t.dev.lane l).failCount = (s.dev.lane l).failCount ∧ LaneFrame l s t)) ∧
    (s.dev.laneDue l .fail = true → (s.dev.lane l).waiting = false → 8 ≤ (s.dev.lane l).failCount → Completes (.failRetryTimer l) s (fun t =>
      (t.dev.lane l).st = .fail ∧ (t.dev.lane l).waiting = true ∧ (t.dev.lane l).timer = none ∧
      s.dev.Raised 60 { kind := 1, inst := l } t.dev ∧ s.dev.LanesBut l t.dev ∧ s.dev.Noted [] [regKey 0 bThermal 0x98] [60] t.dev ∧
      Keeps (([.lane, .lout, .oct, .therm] : List Part) ++ faultParts) s t)) ∧
    (due (s.dev.lane l).deepBy s.dev.dt = true → (s.dev.lane l).st = .lock ∨ (s.dev.lane l).st = .capx →
      Completes (.deepExitTimeout l) s (fun t => (t.dev.lane l).st = .train ∧ LaneFrame l s t)) ∧
    (∀ r : Nat, (s.dev.lane l).st = .quiet ∨ (s.dev.lane l).st = .deep → (s.dev.lane l).restAt = some r → r + 1000 ≤ s.dev.dt →
      Completes (.laneGapAnnounce l) s (fun t =>
        t.dev.lane l = { s.dev.lane l with gap := true } ∧ s.dev.LanesBut l t.dev ∧ Keeps [.lane, .lout] s t)) ∧
    ((s.dev.lane l).st = .active → due (s.dev.lane l).winEnd s.dev.dt = true → Completes (.errWindowEnd l) s (fun t =>
      (t.dev.lane l).winUncorr = 0 ∧ (t.dev.lane l).winCorr = 0 ∧ (t.dev.lane l).limU = s.dev.cfgFld l bLane 0x60 0 16 ∧
      (t.dev.lane l).limC = s.dev.cfgFld l bLane 0x64 0 32 ∧ (t.dev.lane l).st = .active ∧ s.dev.LanesBut l t.dev ∧ Keeps [.lane] s t)) ∧
    (due (s.dev.lane l).timer s.dev.dt = false → ∀ b : Bool, Completes (.trainTimerExpiry l) s (fun t => t.dev.lane l = s.dev.lane l) ∧
      Completes (.lockTimerExpiry l) s (fun t => t.dev.lane l = s.dev.lane l) ∧ Completes (.capxTimerExpiry l) s (fun t => t.dev.lane l = s.dev.lane l) ∧
      Completes (.failRetryTimer l) s (fun t => t.dev.lane l = s.dev.lane l) ∧ Completes (.detectPulse l b) s (fun t => t.dev.lane l = s.dev.lane l))

/-- R46, R48, R54 to R59, R62, R65: what a lane receives. A training frame whose control word agrees with its inverse takes the lane to LOCK
once both ends are ready, and one that disagrees changes nothing; the eighth decodable codeword in a row takes LOCK to CAPX; a capability
block that fits takes CAPX to ACTIVE with the far end's index, key and modes, and one that does not fit fails the lane with cause 4; every
codeword counts, and its message is descrambled; a frame at or after the end of the state's timer takes no lane on (R258); the PRBS checker locks at the 64th bit in a row without error, and counts an error only while locked. -/
def Obligations.LaneReceives : Prop :=
  ∀ (s : State) (l : Nat), l < 144 → s.dev.LaneAlone l →
    (∀ (ctl : Word) (inverted : Bool), (s.dev.lane l).st = .train → fld ctl 7 1 = 1 → due (s.dev.lane l).timer s.dev.dt = false →
      Completes (.trainingFrameReceived l ctl (~~~ctl) inverted true) s (fun t =>
        (t.dev.lane l).st = .lock ∧ (t.dev.lane l).timer = some (s.dev.dt + 1000 * s.dev.cfgFld l bLane 0x70 16 16) ∧
        (t.dev.lane l).echo = fld ctl 8 8 ∧ (t.dev.lane l).rxReadyIn = true ∧ (t.dev.lane l).rxReadyOut = true ∧
        (fld (s.dev.laneCtrl l) 7 1 = 0 → fld ctl 8 8 ≠ (s.dev.lane l).echo →
          (t.dev.lane l).taps = (tapsApply (clausePam4 (s.dev.clauseOf (l / 8))) (s.dev.lane l).taps (fld ctl 0 2) (fld ctl 2 3)).1) ∧
        LaneFrame l s t)) ∧
    (∀ (ctl inv : Word) (inverted adapted : Bool), inv ≠ ~~~ctl →
      Completes (.trainingFrameReceived l ctl inv inverted adapted) s (fun t => t.dev.lane l = s.dev.lane l ∧ LaneFrame l s t)) ∧
    (∀ (ctl : Word) (inverted adapted : Bool), (s.dev.lane l).st = .train → due (s.dev.lane l).timer s.dev.dt = true →
      Completes (.trainingFrameReceived l ctl (~~~ctl) inverted adapted) s (fun t => (t.dev.lane l).st = .train ∧ LaneFrame l s t)) ∧
    (∀ (e c p : Nat), (s.dev.lane l).st = .lock → e ≤ 15 → (s.dev.lane l).goodCw = 7 → due (s.dev.lane l).timer s.dev.dt = false →
      due (s.dev.lane l).deepBy s.dev.dt = false → Completes (.laneFrameReceived l e c p) s (fun t =>
        (t.dev.lane l).st = .capx ∧ (t.dev.lane l).timer = some (s.dev.dt + 1000 * s.dev.cfgFld l bLane 0x74 0 16) ∧
        s.dev.Counts l bLane 0x50 1 t.dev ∧ s.dev.LanesBut l t.dev ∧ Keeps [.lane, .lin, .lout, .ctr, .therm, .telem] s t)) ∧
    (∀ (e c p : Nat) (b : List Byte), b = leBytes 640 (descramble (s.dev.lin l).scr (lineMessage c p) / 2 ^ 20) → (s.dev.lane l).st = .capx → e ≤ 15 →
      due (s.dev.lane l).timer s.dev.dt = false → due (s.dev.lane l).deepBy s.dev.dt = false →
      s.dev.portOfLane l = none → allZero (b.take 16) = false → Completes (.laneFrameReceived l e c p) s (fun t =>
        (t.dev.lane l).st = .fail ∧ (t.dev.lane l).failCause = 4 ∧ s.dev.Counts l bLane 0x50 1 t.dev ∧ s.dev.LanesBut l t.dev ∧
        Keeps [.lane, .lin, .lout, .oct, .csr, .ctr, .therm, .telem] s t)) ∧
    (∀ (e c p n : Nat) (b : List Byte), b = leBytes 640 (descramble (s.dev.lin l).scr (lineMessage c p) / 2 ^ 20) → (s.dev.lane l).st = .capx → e ≤ 15 →
      due (s.dev.lane l).timer s.dev.dt = false → due (s.dev.lane l).deepBy s.dev.dt = false →
      s.dev.portOfLane l = some n → allZero (b.take 16) = false →
      leAt b 5 1 % 8 = s.dev.clauseOf (l / 8) → leAt b 6 1 = s.dev.portWidth n →
      Completes (.laneFrameReceived l e c p) s (fun t =>
        (t.dev.lane l).st = .active ∧ (t.dev.lane l).farLidx = leAt b 1 1 % 16 ∧ (t.dev.lane l).farBkey = leAt b 2 2 ∧
        (t.dev.lane l).farQuiet = bit (leAt b 4 1) 1 ∧ (t.dev.lane l).farDeep = bit (leAt b 4 1) 2 ∧
        (clausePam4 (s.dev.clauseOf (l / 8)) = false → (t.dev.lane l).farFec = bit (leAt b 4 1) 0) ∧ s.dev.LanesBut l t.dev ∧
        Keeps [.lane, .lin, .lout, .csr, .ctr, .therm, .telem] s t)) ∧
    (∀ (e c p : Nat), (s.dev.lane l).st = .off → Completes (.laneFrameReceived l e c p) s (fun t =>
      t.dev.lane l = s.dev.lane l ∧ LaneFrame l s t)) ∧
    ((s.dev.lane l).chkRun ≠ 0 → (s.dev.lane l).prbsLock = false → (s.dev.lane l).prbsGood = 63 →
      Completes (.prbsBitsReceived l [false]) s (fun t =>
        t.dev.lane l = { s.dev.lane l with prbsLock := true, prbsGood := 0, prbsErrs := [] } ∧ s.dev.LanesBut l t.dev ∧ Keeps [.lane] s t)) ∧
    ((s.dev.lane l).chkRun ≠ 0 → (s.dev.lane l).prbsLock = true → Completes (.prbsBitsReceived l [true]) s (fun t =>
      s.dev.Counts l bLane 0x58 1 t.dev ∧ s.dev.CtrsBut [regKey l bLane 0x58] t.dev ∧ s.dev.LanesBut l t.dev ∧ Keeps [.lane, .ctr] s t)) ∧
    (∀ errs : List Bool, (s.dev.lane l).chkRun = 0 → exec (.prbsBitsReceived l errs) s = .next s)

/-- R43, R45, R50, R59, R66, R497: an OCT_CFG write sets the clause of an octet whose lanes are all OFF, restarts its PLL when the clause
changes, and is otherwise refused with CFG_REFUSED; a reserved clause is ignored (log entry of the reserved clause); the PLL's lock fixes
the frame grid at a place that is not specified, a free value; its loss raises FS063; TX_FIR sets taps that meet R50 while FIR_MANUAL
is 1. A write from a partner path changes nothing. -/
def Obligations.Octets : Prop :=
  ∀ (s : State) (p : Path) (v : Word) (o l : Nat), pathOk p = true → s.dev.mayWrite p = true → s.dev.selOf p bLane = l →
    (l < 144 → v.toNat % 8 ≤ 4 → (∀ i : Nat, i < 8 → (s.dev.lane (8 * (l / 8) + i)).st = .off) → Completes (.octCfgWrite p v) s (fun t =>
      t.dev.csrAt (8 * (l / 8)) bLane 0x10 = word (v.toNat % 16) ∧
      (v.toNat % 8 ≠ s.dev.clauseOf (l / 8) → (t.dev.oct (l / 8)).pllLock = false ∧ (t.dev.oct (l / 8)).pllOn = decide (v.toNat % 8 ≠ 0)) ∧
      (∀ m : Nat, m ≠ l / 8 → t.dev.oct m = s.dev.oct m) ∧ (∀ m : Nat, m / 8 ≠ l / 8 → t.dev.lane m = s.dev.lane m) ∧
      (∀ m : Nat, (t.dev.lane m).st = (s.dev.lane m).st) ∧ s.dev.RegsBut [regKey (8 * (l / 8)) bLane 0x10] t.dev ∧
      Keeps [.csr, .oct, .lane, .lout] s t)) ∧
    (l < 144 → v.toNat % 8 ≤ 4 → (∃ i : Nat, i < 8 ∧ (s.dev.lane (8 * (l / 8) + i)).st ≠ .off) → Completes (.octCfgWrite p v) s (fun t =>
      s.dev.Marks (8 * (l / 8)) bLane 0x14 4 t.dev ∧ s.dev.RegsBut [regKey (8 * (l / 8)) bLane 0x14] t.dev ∧ Keeps [.csr] s t)) ∧
    (4 < v.toNat % 8 → exec (.octCfgWrite p v) s = .next s) ∧
    (o < 18 → (s.dev.oct o).pllOn = true → (s.dev.oct o).pllLock = false → s.dev.clk.refOk = true → Completes (.octetPllLock o) s (fun t =>
      (t.dev.oct o).pllLock = true ∧ t.dev.freeIx = s.dev.freeIx + 1 ∧ (∀ m : Nat, m / 2 ≠ o / 2 → t.dev.oct m = s.dev.oct m) ∧
      (s.dev.portWidth (8 * (o / 2 * 2)) ≠ 16 → (t.dev.oct o).grid = Config.freeNat s.dev.freeIx ∧ ∀ m : Nat, m ≠ o → t.dev.oct m = s.dev.oct m) ∧
      Keeps [.oct, .free] s t)) ∧
    (o < 18 → (s.dev.oct o).pllLock = true → (∀ i : Nat, i < 8 → (s.dev.lane (8 * o + i)).st = .off ∨ (s.dev.lane (8 * o + i)).st = .fail) →
      Completes (.octetPllLoss o) s (fun t =>
        t.dev.oct o = { s.dev.oct o with pllLock := false } ∧ (∀ m : Nat, m ≠ o → t.dev.oct m = s.dev.oct m) ∧
        s.dev.Raised 63 { kind := 2, inst := o } t.dev ∧ Keeps (.oct :: faultParts) s t ∧ s.dev.Noted [] [] [63] t.dev)) ∧
    (o < 18 → (s.dev.oct o).pllLock = true → (∀ i : Nat, i < 8 → s.dev.LaneAlone (8 * o + i)) → Completes (.octetPllLoss o) s (fun t =>
      (t.dev.oct o).pllLock = false ∧ s.dev.Raised 63 { kind := 2, inst := o } t.dev ∧
      (∀ i : Nat, i < 8 → (t.dev.lane (8 * o + i)).st = if (s.dev.lane (8 * o + i)).st = .off ∨ (s.dev.lane (8 * o + i)).st = .fail
        then (s.dev.lane (8 * o + i)).st else .detect) ∧
      (∀ m : Nat, m / 8 ≠ o → t.dev.lane m = s.dev.lane m) ∧ Keeps (([.oct, .lane, .lin, .lout, .therm] : List Part) ++ faultParts) s t)) ∧
    (l < 144 → fld (s.dev.laneCtrl l) 7 1 = 1 → tapsOk (clausePam4 (s.dev.clauseOf (l / 8))) (tapsOfWord v.toNat) = true →
      Completes (.txFirWrite p v) s (fun t =>
        t.dev.lane l = { s.dev.lane l with taps := tapsOfWord v.toNat } ∧ s.dev.LanesBut l t.dev ∧ Keeps [.lane] s t)) ∧
    (fld (s.dev.laneCtrl l) 7 1 = 0 → exec (.txFirWrite p v) s = .next s) ∧
    (∀ n : Nat, n < 64 → exec (.octCfgWrite (.partner n) v) s = .next s ∧ exec (.txFirWrite (.partner n) v) s = .next s)

/-! ### Ports -/

/-- R69, R83, R97, R101: PORT_CFG is taken where the port is OFF, R68 holds and the grants fit; a width out of the list, and what the
port's state or its neighbours forbid, is refused with PORT_EVENT bit 7; a field out of range is ignored, and so are the reserved bits. ENABLE takes a port that is OFF
to BOND and its lanes to DETECT, where R68 holds; clearing it takes the port and its lanes to OFF (stated where no packet of a mailbox is
in transmission on the port). -/
def Obligations.PortConfiguration : Prop :=
  ∀ (s : State) (p : Path) (v : Word) (n w : Nat), n < 144 → s.dev.NoBond →
    (pathOk p = true → s.dev.mayWrite p = true → s.dev.selOf p bPort = n →
      (portCfgRange v.toNat = true → (s.dev.port n).st = .off → s.dev.portClash n v.toNat = false →
        poolsOk (bits v.toNat 1 5) (s.dev.csrAt n bPort 0x20).toNat (s.dev.csrAt n bPort 0x24).toNat = true →
        (bit v.toNat 0 = false → Completes (.portCfgWrite p v) s (fun t =>
          t.dev.csrAt n bPort 0x10 = word (v.toNat % 65536) ∧ s.dev.RegsBut [regKey n bPort 0x10] t.dev ∧ Keeps [.csr] s t)) ∧
        (bit v.toNat 0 = true → ∃ t : State, exec (.portCfgWrite p (v - 1)) s = .next t ∧
          exec (.portCfgWrite p v) s = exec (.portEnable n) t ∧ Completes (.portCfgWrite p v) s (fun u => (u.dev.port n).st ≠ .off))) ∧
      (portCfgRange v.toNat = true → (s.dev.port n).st = .off → s.dev.portClash n v.toNat = true ∨
          poolsOk (bits v.toNat 1 5) (s.dev.csrAt n bPort 0x20).toNat (s.dev.csrAt n bPort 0x24).toNat = false →
        Completes (.portCfgWrite p v) s (fun t =>
          s.dev.Marks n bPort 0x1C 128 t.dev ∧ s.dev.RegsBut [regKey n bPort 0x1C] t.dev ∧ Keeps [.csr] s t)) ∧
      (portCfgRange v.toNat = true → (s.dev.port n).st ≠ .off → v.toNat % 65536 / 2 ≠ (s.dev.csrAt n bPort 0x10).toNat / 2 →
        Completes (.portCfgWrite p v) s (fun t =>
          s.dev.Marks n bPort 0x1C 128 t.dev ∧ s.dev.RegsBut [regKey n bPort 0x1C] t.dev ∧ Keeps [.csr] s t)) ∧
      (portCfgRange v.toNat = true → (s.dev.port n).st ≠ .off → v.toNat % 65536 / 2 = (s.dev.csrAt n bPort 0x10).toNat / 2 →
        (bit v.toNat 0 = true → exec (.portCfgWrite p v) s = .next s) ∧
        (bit v.toNat 0 = false → exec (.portCfgWrite p v) s = exec (.portDisable n) s)) ∧
      (¬ widthOk (bits v.toNat 1 5) → Completes (.portCfgWrite p v) s (fun t =>
          s.dev.Marks n bPort 0x1C 128 t.dev ∧ s.dev.RegsBut [regKey n bPort 0x1C] t.dev ∧ Keeps [.csr] s t)) ∧
      (widthOk (bits v.toNat 1 5) → portCfgRange v.toNat = false → exec (.portCfgWrite p v) s = .next s)) ∧
    (n < 64 → exec (.portCfgWrite (.partner n) v) s = .next s) ∧
    (widthOk w → s.dev.portWidth n = w → (s.dev.port n).st = .off → s.dev.portClash n (s.dev.csrAt n bPort 0x10).toNat = true →
      Completes (.portEnable n) s (fun t =>
        s.dev.Marks n bPort 0x1C 128 t.dev ∧ s.dev.RegsBut [regKey n bPort 0x1C] t.dev ∧ Keeps [.csr] s t)) ∧
    (widthOk w → s.dev.portWidth n = w → (s.dev.port n).st = .off → s.dev.portClash n (s.dev.csrAt n bPort 0x10).toNat = false →
      (s.dev.ptx n).p3 = none →
      (∀ i : Nat, i < w → (s.dev.lane (n + i)).st = .off ∧ s.dev.clauseOf ((n + i) / 8) ≠ 0) → Completes (.portEnable n) s (fun t =>
        (t.dev.port n).st = .bond ∧ (t.dev.port n).timer = some (s.dev.dt + s.dev.bondNs n) ∧ (t.dev.port n).accepted = 0 ∧
        t.dev.csrAt n bPort 0x10 = s.dev.csrAt n bPort 0x10 ||| 1 ∧
        (∀ i : Nat, i < w → (t.dev.lane (n + i)).st = .detect ∧ (t.dev.lane (n + i)).timer = some (s.dev.dt + 1000000) ∧
          t.dev.laneEnabled (n + i) = true) ∧
        (∀ l : Nat, l < n ∨ n + w ≤ l → t.dev.lane l = s.dev.lane l) ∧ s.dev.PortsBut n t.dev ∧
        Keeps [.lane, .lin, .lout, .oct, .port, .rx, .tx, .ptx, .txn, .qm, .csr] s t)) ∧
    ((s.dev.port n).st ≠ .off → exec (.portEnable n) s = .next s) ∧
    (widthOk w → s.dev.portWidth n = w → (s.dev.port n).partner = none → (s.dev.ptx n).p3 = none → Completes (.portDisable n) s (fun t =>
      t.dev.port n = { failCause := (s.dev.port n).failCause } ∧
      t.dev.csrAt n bPort 0x10 = s.dev.csrAt n bPort 0x10 &&& 0xFFFFFFFE ∧
      ((s.dev.port n).st = .up → s.dev.Marks n bPort 0x1C 2 t.dev) ∧
      (∀ i : Nat, i < w → (t.dev.lane (n + i)).st = .off ∧ t.dev.laneEnabled (n + i) = false) ∧
      (∀ l : Nat, l < n ∨ n + w ≤ l → t.dev.lane l = s.dev.lane l) ∧ s.dev.PortsBut n t.dev ∧
      Keeps [.lane, .lin, .lout, .oct, .port, .rx, .tx, .ptx, .txn, .qm, .csr] s t)) ∧
    (s.dev.portWidth n = 0 → exec (.portDisable n) s = .next s)

/-- R57, R70, R73, R74, R79, R93, R97, R98: a port forms. The BOND timer ends in NEG with enough lanes and in FAIL with cause 1 without;
a valid hello fixes the generation, the lower of the two ends' highest, and one that acknowledges moves the port to INIT, where a
hello still tells from which frame on the far end sends flits; a common generation that is lacking and a NEG that runs out end in FAIL with
cause 5; the first INIT flit gives the far end's grants as credits and is told to the partner manager; with both ends' DONE the port goes UP
and attaches a new partner; a port in FAIL tries again after 1 s. -/
def Obligations.PortFormation : Prop :=
  ∀ (s : State) (n i j l sl now : Nat) (h b : List Byte) (f : InitFlit), n < 144 → s.dev.PortFresh n →
    (∀ m : Nat, m < 144 → m ≠ n → (s.dev.port m).st ≠ .bond) →
    (s.dev.portTimerDue n .bond = true → s.dev.minLanes n ≤ popCount (s.dev.port n).accepted 16 → Completes (.bondTimerExpiry n) s (fun t =>
      t.dev.port n = { s.dev.port n with
        st := .neg, timer := some (s.dev.dt + s.dev.bondNs n), hello := false, helloG := 0, acked := false, flitAt := none
        farFlitAt := none, farOn := false } ∧
      s.dev.PortsBut n t.dev ∧ Keeps [.port] s t)) ∧
    (s.dev.portTimerDue n .bond = true → popCount (s.dev.port n).accepted 16 < s.dev.minLanes n → Completes (.bondTimerExpiry n) s (fun t =>
      (t.dev.port n).st = .fail ∧ (t.dev.port n).failCause = 1 ∧ (t.dev.port n).timer = some (s.dev.dt + 1000000000) ∧
      s.dev.PortsBut n t.dev ∧ Keeps [.port, .rx, .tx, .ptx, .qm] s t)) ∧
    (s.dev.portTimerDue n .neg = true → Completes (.negTimerExpiry n) s (fun t =>
      (t.dev.port n).st = .fail ∧ (t.dev.port n).failCause = 5 ∧ (t.dev.port n).timer = some (s.dev.dt + 1000000000) ∧
      s.dev.PortsBut n t.dev ∧ Keeps [.port, .rx, .tx, .ptx, .qm] s t)) ∧
    (i < s.dev.portWidth n → (s.dev.lin (s.dev.laneAt n i)).v = true → (s.dev.lin (s.dev.laneAt n i)).bad = false →
      h = (s.dev.lin (s.dev.laneAt n i)).payload.take 32 →
      ((s.dev.port n).st = .neg → due (s.dev.port n).timer s.dev.dt = false → helloValid h = true → (s.dev.port n).hello = false →
        leAt h 4 1 / 16 ≤ s.dev.cfgFld n bPort 0x10 8 2 → s.dev.cfgFld n bPort 0x10 6 2 ≤ leAt h 4 1 % 16 →
        s.dev.cfgFld n bPort 0x10 6 2 ≤ s.dev.cfgFld n bPort 0x10 8 2 → Completes (.helloReceived n i) s (fun t =>
          (t.dev.port n).hello = true ∧ (t.dev.port n).chipid = leAt h 8 8 ∧
          (t.dev.port n).gen = min (s.dev.cfgFld n bPort 0x10 8 2) (leAt h 4 1 % 16) ∧
          (t.dev.port n).st = (if bit (leAt h 5 1) 0 then .init else .neg) ∧
          (bit (leAt h 5 1) 0 = true → (t.dev.port n).flitAt = some (s.dev.frameNo (n / 8) + 4)) ∧
          (bit (leAt h 5 1) 1 = true → (t.dev.port n).farFlitAt = some (leAt h 6 2 % 2048)) ∧
          s.dev.PortsBut n t.dev ∧ Keeps [.port] s t)) ∧
      ((s.dev.port n).st = .neg → due (s.dev.port n).timer s.dev.dt = false → helloValid h = true → (s.dev.port n).hello = false →
        s.dev.cfgFld n bPort 0x10 8 2 < leAt h 4 1 / 16 ∨ leAt h 4 1 % 16 < s.dev.cfgFld n bPort 0x10 6 2 →
        Completes (.helloReceived n i) s (fun t =>
          (t.dev.port n).st = .fail ∧ (t.dev.port n).failCause = 5 ∧ s.dev.PortsBut n t.dev ∧ Keeps [.port, .rx, .tx, .ptx, .qm] s t)) ∧
      ((s.dev.port n).st = .init → (s.dev.port n).farOn = false → helloValid h = true → (s.dev.port n).hello = true →
        (s.dev.port n).chipid = leAt h 8 8 → (s.dev.port n).helloG = leAt h 4 1 → bit (leAt h 5 1) 1 = true →
        Completes (.helloReceived n i) s (fun t =>
          t.dev.port n = { s.dev.port n with farFlitAt := some (leAt h 6 2 % 2048) } ∧ s.dev.PortsBut n t.dev ∧ Keeps [.port] s t)) ∧
      (((s.dev.port n).st ≠ .neg ∧ (s.dev.port n).st ≠ .init) ∨ helloValid h = false ∨
          ((s.dev.port n).hello = true ∧ ((s.dev.port n).chipid ≠ leAt h 8 8 ∨ (s.dev.port n).helloG ≠ leAt h 4 1)) → s.dev.NoBond →
        exec (.helloReceived n i) s = .next s)) ∧
    ((s.dev.lin (s.dev.laneAt n i)).v = false ∨ (s.dev.lin (s.dev.laneAt n i)).bad = true → s.dev.NoBond →
      exec (.helloReceived n i) s = .next s) ∧
    (s.dev.FlitAt n j 2 l sl true now b → f = initOf true b → (s.dev.port n).st = .init → (s.dev.port n).gen = 3 → f.resume = false →
      (∀ x : Nat, x ∈ [f.pool1, f.pool2, f.pool3] → 18 ≤ x ∧ x ≤ 16384) → f.pool0 ≤ 16384 →
      (s.dev.port n).chipid ≠ 0 → (s.dev.port n).chipid ≠ 2 ^ 64 - 1 → s.dev.holderOf (s.dev.port n).chipid = none →
      ∀ k : Nat, s.dev.numberFor (s.dev.port n).chipid = some k →
        ((s.dev.port n).initRx = false → (s.dev.port n).doneSent = false → Completes (.initFlitReceived n j) s (fun t =>
          t.dev.port n = { s.dev.port n with initRx := true, doneRx := f.done, doneOk := true, waitPm := false } ∧
          (∀ v : Nat, v < 4 → t.dev.tx n v = { pool := (initPools f).getD v 0, held := (initPools f).getD v 0 } ∧
            t.dev.rx n v = { pool := s.dev.grantOf n v 3 }) ∧
          s.dev.Took l sl t.dev ∧ s.dev.PortsBut n t.dev ∧ Keeps [.port, .lin, .rx, .tx] s t)) ∧
        ((s.dev.port n).initRx = true → (s.dev.port n).doneSent = true → f.done = true → s.dev.cfgFld n bPort 0x10 10 1 = 0 →
          (∀ i : Nat, i < 16 → (bit (s.dev.port n).accepted i = true ↔ i < s.dev.portWidth n ∧ (s.dev.lane (s.dev.laneAt n i)).st = .active)) →
          s.dev.portWidth n ≤ 16 → Completes (.initFlitReceived n j) s (fun t =>
          (t.dev.port n).st = .up ∧ (t.dev.port n).partner = some k ∧ (t.dev.port n).txMask = (s.dev.port n).accepted ∧
          (t.dev.ptn k).st = .attached ∧ (t.dev.ptn k).chipid = (s.dev.port n).chipid ∧ s.dev.Took l sl t.dev ∧
          s.dev.PortsBut n t.dev ∧ s.dev.PtnsBut k t.dev ∧ Keeps [.port, .lin, .ptn, .fault, .mbox, .telem, .csr, .ctr, .sel] s t))) ∧
    (s.dev.portTimerDue n .fail = true → s.dev.cfgFld n bPort 0x10 0 1 = 1 → widthOk (s.dev.portWidth n) →
      (∀ i : Nat, i < 16 → (s.dev.lane (n + i)).st ≠ .active) → Completes (.portFailRetry n) s (fun t =>
        (t.dev.port n).st = .bond ∧ (t.dev.port n).timer = some (s.dev.dt + s.dev.bondNs n) ∧ (t.dev.port n).accepted = 0 ∧
        s.dev.PortsBut n t.dev ∧ Keeps [.port, .rx, .tx, .ptx, .qm] s t))

/-- R49, R72, R78, R81, R87, R88, R91, R92: what an UP port does with a flit that it receives, each once, from its slot of the frame its lane
holds. A data flit with the expected SEQ and a credit is taken: EXP advances, its entry is occupied and, but for a flit of an ENQUEUE's
data, freed again, and nothing outside the queue manager's arrivals changes; a duplicate changes nothing; one whose CRC fails is counted
and asks for a replay unless a NAK is outstanding, and so does a SEQ from ahead. A STATUS returns credits and acknowledges flits, which
leave the replay buffer. A LANEMAP that answers a planned change or agrees with a restripe is recorded. In INIT a flit whose CRC fails is
counted, and data are not taken; a port in any other state takes no flits. -/
def Obligations.FlitsReceived : Prop :=
  ∀ (s : State) (n j l sl now : Nat) (b : List Byte) (f : DataFlit) (g : StatusFlit) (m : LanemapFlit), n < 144 → s.dev.NoBond →
    s.dev.fault.injPort = none →
    ((s.dev.port n).st = .up →
      (s.dev.FlitAt n j 0 l sl f.crcOk now b → f = dataOf (s.dev.port n).gen f.crcOk b →
        (f.crcOk = true → f.kind = 0 → f.vc = 0 ∨ ((f.vc = 2 ∨ f.vc = 3) ∧ 1 < (s.dev.port n).gen) →
          (f.seq = (s.dev.port n).exp → 0 < s.dev.rxGrant n f.vc → Completes (.dataFlitReceived n j) s (fun t =>
            (t.dev.port n).exp = (f.seq + 1) % 4096 ∧ (t.dev.port n).lastAcc = some f.seq ∧ (t.dev.port n).nakOut = false ∧
            (t.dev.port n).accSince = (s.dev.port n).accSince + 1 ∧ s.dev.Counts n bPort 0x88 1 t.dev ∧ s.dev.PortsBut n t.dev ∧
            s.dev.Took l sl t.dev ∧ Keeps [.port, .lin, .rx, .txn, .qm, .ctr] s t ∧
            (f.vc ≠ 2 ∨ (tabGet (fun _ => ({} : Arriving)) s.dev.qm.arriving n).left = 0 →
              t.dev.rx n f.vc = { s.dev.rx n f.vc with
                freed := ((s.dev.rx n f.vc).freed + 1) % 65536, unrep := (s.dev.rx n f.vc).unrep + 1 } ∧ Keeps [.port, .lin, .rx, .ctr] s t))) ∧
          (1 ≤ ((s.dev.port n).exp + 4096 - f.seq) % 4096 → ((s.dev.port n).exp + 4096 - f.seq) % 4096 ≤ 2047 →
            f.seq ≠ (s.dev.port n).exp → Completes (.dataFlitReceived n j) s (fun t => s.dev.Took l sl t.dev ∧ Keeps [.lin] s t)) ∧
          (f.seq ≠ (s.dev.port n).exp → ¬ (1 ≤ ((s.dev.port n).exp + 4096 - f.seq) % 4096 ∧
              ((s.dev.port n).exp + 4096 - f.seq) % 4096 ≤ 2047) → (s.dev.port n).nakOut = false →
            Completes (.dataFlitReceived n j) s (fun t => t.dev.port n = { (s.dev.port n).askStatus true with
              nakOut := true, nakBy := some (s.dev.dt + s.dev.cfgFld n bPort 0x30 0 16) } ∧ s.dev.PortsBut n t.dev ∧
              s.dev.Took l sl t.dev ∧ Keeps [.port, .lin] s t))) ∧
        (f.crcOk = false → (s.dev.port n).nakOut = false → Completes (.dataFlitReceived n j) s (fun t =>
          t.dev.port n = { (s.dev.port n).askStatus true with
            nakOut := true, nakBy := some (s.dev.dt + s.dev.cfgFld n bPort 0x30 0 16) } ∧
          s.dev.Counts n bPort 0x98 1 t.dev ∧ s.dev.PortsBut n t.dev ∧ s.dev.Took l sl t.dev ∧ Keeps [.port, .lin, .ctr] s t)) ∧
        (f.crcOk = false → (s.dev.port n).nakOut = true → Completes (.dataFlitReceived n j) s (fun t =>
          s.dev.Counts n bPort 0x98 1 t.dev ∧ s.dev.Took l sl t.dev ∧ Keeps [.lin, .ctr] s t))) ∧
      (s.dev.FlitAt n j 1 l sl g.crcOk now b → g = statusOf g.crcOk b →
        (g.crcOk = true → g.ctype = 1 → g.nak = false → Completes (.statusFlitReceived n j) s (fun t =>
          (∀ v c : Nat, (v, c) ∈ [(1, g.cred1), (2, g.cred2), (3, g.cred3)] → t.dev.tx n v = { s.dev.tx n v with
            held := (s.dev.tx n v).held + (c + 65536 - (s.dev.tx n v).lastCred) % 65536, lastCred := c }) ∧
          t.dev.tx n 0 = s.dev.tx n 0 ∧
          (g.ackV = false → t.dev.port n = s.dev.port n) ∧
          (g.ackV = true → (t.dev.port n).replay =
            (s.dev.port n).replay.drop ((s.dev.port n).replay.filter
              (fun x => decide ((g.ackSeq + 4096 - x.seq) % 4096 < 2048))).length) ∧
          s.dev.PortsBut n t.dev ∧ s.dev.Took l sl t.dev ∧ Keeps [.port, .lin, .tx] s t)) ∧
        (g.crcOk = false → (s.dev.port n).nakOut = true → Completes (.statusFlitReceived n j) s (fun t =>
          s.dev.Counts n bPort 0x98 1 t.dev ∧ s.dev.Took l sl t.dev ∧ Keeps [.lin, .ctr] s t))) ∧
      (s.dev.FlitAt n j 3 l sl m.crcOk now b → m = lanemapOf m.crcOk now b →
        (∀ a : MaskProp, m.crcOk = true → (s.dev.port n).plan = some a → m.mask = a.mask → m.eff = a.eff →
          Completes (.lanemapFlitReceived n j) s (fun t =>
            t.dev.port n = { s.dev.port n with planAns := true } ∧ s.dev.PortsBut n t.dev ∧ s.dev.Took l sl t.dev ∧ Keeps [.port, .lin] s t)) ∧
        (m.crcOk = false → (s.dev.port n).nakOut = true → Completes (.lanemapFlitReceived n j) s (fun t =>
          s.dev.Counts n bPort 0x98 1 t.dev ∧ s.dev.Took l sl t.dev ∧ Keeps [.lin, .ctr] s t)))) ∧
    (∀ a : MaskProp, (s.dev.port n).st = .restripe → s.dev.FlitAt n j 3 l sl true now b → m = lanemapOf true now b →
      (s.dev.port n).prop = some a → m.mask = a.mask →
      (∀ i : Nat, i < 144 → (s.dev.lane i).st ≠ .quiet) → s.dev.minLanes n ≤ popCount a.mask 16 → s.dev.portWidth n ≤ 16 → n + s.dev.portWidth n ≤ 144 →
      Completes (.lanemapFlitReceived n j) s (fun t =>
        t.dev.restripeAgreed n = true ∧ (t.dev.port n).farProp = some { mask := m.mask, eff := m.eff } ∧ (t.dev.port n).st = .restripe ∧
        s.dev.PortsBut n t.dev ∧ s.dev.Took l sl t.dev ∧ Keeps [.port, .lin] s t)) ∧
    ((s.dev.port n).st = .init → s.dev.FlitAt n j 0 l sl f.crcOk now b → f = dataOf (s.dev.port n).gen f.crcOk b →
      (f.crcOk = false → Completes (.dataFlitReceived n j) s (fun t =>
        s.dev.Counts n bPort 0x98 1 t.dev ∧ s.dev.Took l sl t.dev ∧ Keeps [.lin, .ctr] s t)) ∧
      (f.crcOk = true → f.kind = 0 → f.vc = 0 ∨ ((f.vc = 2 ∨ f.vc = 3) ∧ 1 < (s.dev.port n).gen) →
        Completes (.dataFlitReceived n j) s (fun t => s.dev.Took l sl t.dev ∧ Keeps [.lin] s t))) ∧
    ((s.dev.port n).st ≠ .up → (s.dev.port n).st ≠ .restripe → (s.dev.port n).st ≠ .init →
      exec (.dataFlitReceived n j) s = .next s ∧ exec (.statusFlitReceived n j) s = .next s ∧ exec (.lanemapFlitReceived n j) s = .next s ∧
      exec (.initFlitReceived n j) s = .next s)

/-- R72 to R74, R77, R79, R81, R85 to R88, R123, R142: what a port puts in a slot, while its frame set has one left (its hello in NEG and in
INIT until its FLIT_AT, INIT from then on, in UP, where its lanes are as its masks say, first a STATUS that is
due, then a LANEMAP that is due, then a running replay, then new data by its credits), when a STATUS or a NAK falls due again, and when the
oldest flits are sent again; a fragment begins only with credits for all its flits. -/
def Obligations.FlitsSent : Prop :=
  ∀ (s : State) (n vc : Nat), n < 144 →
    ((s.dev.port n).st = .neg → Completes (.transmitFlitSlot n) s (fun t =>
      (t.dev.ptx n).out.kind = .hello ∧ (t.dev.ptx n).out.bytes.length = 32 ∧
      leAt (t.dev.ptx n).out.bytes 0 4 = 0x9E3C51A7 ∧ leAt (t.dev.ptx n).out.bytes 8 8 = s.dev.otp.chipid % 2 ^ 64 ∧ Keeps [.lout, .ptx] s t)) ∧
    ((s.dev.port n).st = .init → s.dev.txFlits n = false → Completes (.transmitFlitSlot n) s (fun t =>
      (t.dev.ptx n).out.kind = .hello ∧ Keeps [.lout, .ptx] s t)) ∧
    ((s.dev.port n).st = .init → s.dev.txFlits n = true → s.dev.slotLeft n = true → Completes (.transmitFlitSlot n) s (fun t =>
      (t.dev.ptx n).out.kind = .init ∧
      ((s.dev.port n).doneOk = false → (s.dev.port n).resume = false →
        t.dev.port n = { s.dev.port n with doneSent := false } ∧ Keeps [.lout, .port, .ptx] s t) ∧
      s.dev.PortsBut n t.dev ∧
      Keeps [.lane, .lin, .lout, .oct, .port, .rx, .ptx, .ptn, .fault, .mbox, .telem, .therm, .csr, .ctr, .sel] s t)) ∧
    ((s.dev.port n).st = .restripe → Completes (.transmitFlitSlot n) s (fun t =>
      (t.dev.ptx n).out.kind = .lanemap ∧ (t.dev.port n).lanemapDue = false ∧ s.dev.PortsBut n t.dev ∧ Keeps [.lout, .port, .ptx] s t)) ∧
    ((s.dev.port n).st = .up → s.dev.slotLeft n = false → s.dev.LanesCalm n → exec (.transmitFlitSlot n) s = .next s) ∧
    ((s.dev.port n).st = .up → s.dev.slotLeft n = true → s.dev.LanesCalm n → (s.dev.port n).statusDue = true → Completes (.transmitFlitSlot n) s (fun t =>
      (t.dev.ptx n).out.kind = .status ∧ (t.dev.ptx n).out.nak = (s.dev.port n).statusNak ∧
      (t.dev.ptx n).out.ackV = (s.dev.port n).lastAcc.isSome ∧ (t.dev.ptx n).out.ackSeq = (s.dev.port n).lastAcc.getD 0 ∧
      t.dev.port n = { s.dev.port n with statusDue := false, statusNak := false, accSince := 0, statusBy := some (s.dev.dt + 1000) } ∧
      (∀ v : Nat, v < 4 → t.dev.rx n v = { s.dev.rx n v with unrep := 0 }) ∧
      (∀ l : Nat, (s.dev.ptx n).set = s.dev.frameNo (n / 8) + 1 → (s.dev.lout l).payload.length = 640 → (s.dev.port n).gen ≤ 3 →
        (s.dev.txLanes n)[(s.dev.ptx n).next % (s.dev.txLanes n).length]? = some l →
        slice (t.dev.lout l).payload (flitSize (s.dev.port n).gen * ((s.dev.ptx n).next / (s.dev.txLanes n).length))
          (flitSize (s.dev.port n).gen) = (t.dev.ptx n).out.bytes) ∧
      s.dev.PortsBut n t.dev ∧ Keeps [.lout, .port, .rx, .ptx] s t)) ∧
    (∀ (i : Nat) (x : Flit), (s.dev.port n).st = .up → s.dev.slotLeft n = true → s.dev.LanesCalm n → (s.dev.port n).statusDue = false → (s.dev.port n).lanemapDue = false → (s.dev.port n).plan = none →
      (s.dev.port n).replayPos = some i → (s.dev.port n).replay[i]? = some x → Completes (.transmitFlitSlot n) s (fun t =>
        (t.dev.ptx n).out = { kind := .data, seq := x.seq, vc := x.vc, replay := true, bytes := x.bytes } ∧
        t.dev.port n = { s.dev.port n with replayPos := if i + 1 < (s.dev.port n).replay.length then some (i + 1) else none } ∧
        s.dev.Counts n bPort 0x80 1 t.dev ∧ s.dev.PortsBut n t.dev ∧ Keeps [.lout, .port, .ptx, .ctr] s t)) ∧
    (∀ (x : TxPkt), (s.dev.port n).st = .up → s.dev.slotLeft n = true → s.dev.LanesCalm n → (s.dev.port n).statusDue = false → (s.dev.port n).lanemapDue = false → (s.dev.port n).plan = none →
      (s.dev.port n).replayPos = none → (s.dev.port n).replay.length < 512 → (s.dev.ptx n).p3 = some x → 0 < (s.dev.tx n 3).held →
      Completes (.transmitFlitSlot n) s (fun t =>
        (t.dev.ptx n).out.kind = .data ∧ (t.dev.ptx n).out.vc = 3 ∧ (t.dev.ptx n).out.seq = (s.dev.port n).txSeq ∧
        (t.dev.port n).txSeq = ((s.dev.port n).txSeq + 1) % 4096 ∧ (t.dev.port n).replay.length = (s.dev.port n).replay.length + 1 ∧
        (t.dev.tx n 3).held = (s.dev.tx n 3).held - 1 ∧ s.dev.Counts n bPort 0x80 1 t.dev ∧ s.dev.PortsBut n t.dev ∧
        (x.first = false → flitBytes (s.dev.port n).gen < x.rest.length →
          (t.dev.ptx n).p3 = some { x with rest := x.rest.drop (flitBytes (s.dev.port n).gen), first := false } ∧
          Keeps [.lout, .port, .tx, .ptx, .ctr] s t) ∧
        (x.ref = .event → Keeps [.lout, .port, .tx, .ptx, .mbox, .ctr] s t) ∧ Keeps [.lout, .port, .tx, .ptx, .mbox, .txn, .qm, .ctr] s t)) ∧
    ((s.dev.port n).st = .up → s.dev.slotLeft n = true → s.dev.LanesCalm n → (s.dev.port n).statusDue = false → (s.dev.port n).lanemapDue = false → (s.dev.port n).plan = none →
      (s.dev.port n).replayPos = none → (∀ v : Nat, v < 4 → (s.dev.tx n v).held = 0) → Completes (.transmitFlitSlot n) s (fun t =>
        (t.dev.ptx n).out.kind = .idle ∧ Keeps [.lout, .ptx] s t)) ∧
    ((s.dev.port n).st = .up → due (s.dev.port n).statusBy s.dev.dt = true → Completes (.statusDue n) s (fun t =>
      t.dev.port n = { s.dev.port n with statusDue := true } ∧ s.dev.PortsBut n t.dev ∧ Keeps [.port] s t)) ∧
    ((s.dev.port n).st = .up → (s.dev.port n).nakOut = true → due (s.dev.port n).nakBy s.dev.dt = true → Completes (.nakRepeatTimer n) s (fun t =>
      t.dev.port n = { s.dev.port n with
        statusDue := true, statusNak := true, nakBy := some (s.dev.dt + s.dev.cfgFld n bPort 0x30 0 16) } ∧
      s.dev.PortsBut n t.dev ∧ Keeps [.port] s t)) ∧
    ((s.dev.port n).st = .up → due (s.dev.port n).ackBy s.dev.dt = true → (s.dev.port n).replay ≠ [] →
      ((s.dev.port n).replayCount + 1 < s.dev.cfgFld n bPort 0x30 16 4 → Completes (.replayTimeout n) s (fun t =>
        t.dev.port n = { s.dev.port n with
          replayPos := some 0, replayCount := (s.dev.port n).replayCount + 1
          ackBy := some (s.dev.dt + s.dev.cfgFld n bPort 0x30 0 16) } ∧
        s.dev.Counts n bPort 0x90 1 t.dev ∧ s.dev.PortsBut n t.dev ∧ Keeps [.port, .ctr] s t)) ∧
      (s.dev.cfgFld n bPort 0x30 16 4 ≤ (s.dev.port n).replayCount + 1 → Completes (.replayTimeout n) s (fun t =>
        (t.dev.port n).st = .bond ∧ (t.dev.port n).timer = some (s.dev.dt + s.dev.bondNs n) ∧
        (t.dev.port n).replay = (s.dev.port n).replay ∧ s.dev.Raised 70 { kind := 3, inst := n } t.dev ∧
        s.dev.PortsBut n t.dev ∧ Keeps (([.lane, .lin, .lout, .oct, .port] : List Part) ++ faultParts) s t))) ∧
    ((s.dev.port n).st ≠ .up → exec (.statusDue n) s = .next s ∧ exec (.nakRepeatTimer n) s = .next s ∧ exec (.replayTimeout n) s = .next s) ∧
    (∀ f : Frag, vc < 4 → 1 ≤ vc → (s.dev.port n).st = .up → s.dev.txn.frags = [f] → f.begun = false → f.port = n → f.vc = vc →
      f.errs = [] → s.dev.portHolds n f.ptn = true → s.dev.req? f.id = none → (∀ k i : Nat, k < 64 → i < 8 → (s.dev.pair k i).port = none) →
      (s.dev.ptx n).pkt vc = none →
      (flitsOf (s.dev.port n).gen f.data.length ≤ (s.dev.tx n vc).held → Completes (.fragmentBegin n vc) s (fun t =>
        (t.dev.ptx n).pkt vc = some { ref := .frag f.id f.fidx, partner := f.ptn, rest := f.packet } ∧
        t.dev.txn.frags = [{ f with begun := true }] ∧ Keeps [.ptx, .txn] s t)) ∧
      ((s.dev.tx n vc).held < flitsOf (s.dev.port n).gen f.data.length → exec (.fragmentBegin n vc) s = .next s))

/-- R90 to R93, R97: an agreed restripe takes effect at EFF_FCNT and returns the port to UP; an answered planned change does too,
an unanswered one is dropped; a restripe not agreed in time, with too few lanes left, holds the port; HOLD_MS that runs out raises FS072 and
gives the port up to BOND, which leaves its partner on its other ports; a rotation wakes the standby and plans the next lane's removal. -/
def Obligations.RestripeAndHold : Prop :=
  ∀ (s : State) (n : Nat), n < 144 →
    (∀ a b : MaskProp, (s.dev.port n).st = .restripe → (s.dev.port n).prop = some a → (s.dev.port n).farProp = some b → a.mask = b.mask →
      s.dev.minLanes n ≤ popCount a.mask 16 → (s.dev.port n).plan = none → (∀ i : Nat, i < 32 → bit (s.dev.port n).accepted i = true → bit a.mask i = true) →
      Completes (.restripeEffFcnt n) s (fun t =>
        (t.dev.port n).st = .up ∧ (t.dev.port n).txMask = a.mask ∧ (t.dev.port n).rxMask = a.mask ∧ (t.dev.port n).prop = none ∧
        (t.dev.port n).nakOut = true ∧ (t.dev.port n).statusNak = true ∧ (t.dev.port n).statusDue = true ∧
        s.dev.Marks n bPort 0x1C 5 t.dev ∧ s.dev.RegsBut [regKey n bPort 0x1C] t.dev ∧ s.dev.PortsBut n t.dev ∧ Keeps [.port, .csr] s t)) ∧
    (∀ a : MaskProp, (s.dev.port n).st = .up → (s.dev.port n).plan = some a → (s.dev.port n).planAns = false → Completes (.restripeEffFcnt n) s (fun t =>
      t.dev.port n = { s.dev.port n with plan := none, planRest := none } ∧ s.dev.PortsBut n t.dev ∧ Keeps [.port] s t)) ∧
    (∀ a : MaskProp, (s.dev.port n).st = .up → (s.dev.port n).plan = some a → (s.dev.port n).planAns = true → (s.dev.port n).planRest = none →
      (∀ i : Nat, i < 32 → bit (s.dev.port n).accepted i = true → bit a.mask i = true) → Completes (.restripeEffFcnt n) s (fun t =>
        t.dev.port n = { s.dev.port n with txMask := a.mask, rxMask := a.mask, plan := none, planAns := false } ∧
        s.dev.PortsBut n t.dev ∧ Keeps [.port] s t)) ∧
    (s.dev.portTimerDue n .restripe = true → s.dev.restripeAgreed n = false → s.dev.activeLanes n < s.dev.minLanes n →
      Completes (.restripeTimeout n) s (fun t =>
        t.dev.port n = { s.dev.port n with
          st := .hold, timer := none, holdEnd := some ((s.dev.port n).holdEnd.getD (s.dev.dt + s.dev.holdNs n))
          resume := true, prop := none, farProp := none, plan := none } ∧ s.dev.PortsBut n t.dev ∧ Keeps [.port] s t)) ∧
    (s.dev.portTimerDue n .restripe = false ∨ s.dev.restripeAgreed n = true → exec (.restripeTimeout n) s = .next s) ∧
    (∀ k m : Nat, (s.dev.port n).st = .hold → (s.dev.port n).resume = true → due (s.dev.port n).holdEnd s.dev.dt = true →
      (s.dev.port n).partner = some k → k < 64 → m < 144 → m ≠ n → (s.dev.port m).partner = some k → (s.dev.port m).st = .up →
      s.dev.NoBond → (∀ j : Nat, j < 144 → (s.dev.port j).waitPm = false) → (∀ l : Nat, l < 160 → (s.dev.lane l).st ≠ .active) →
      widthOk (s.dev.portWidth n) →
      Completes (.holdTimerExpiry n) s (fun t =>
        s.dev.Raised 72 { kind := 3, inst := n } t.dev ∧ (t.dev.port n).st = .bond ∧ (t.dev.port n).resume = false ∧
        (t.dev.port n).partner = none ∧ (t.dev.port n).replay = [] ∧ (t.dev.port n).timer = some (s.dev.dt + s.dev.bondNs n) ∧
        s.dev.Marks n bPort 0x1C 16 t.dev ∧ s.dev.Marks k bPartner 0x38 16 t.dev ∧ s.dev.PortsBut n t.dev ∧ s.dev.PtnsKept k t.dev ∧
        Keeps (([.port, .rx, .tx, .ptx, .ptn, .txn, .qm] : List Part) ++ faultParts) s t)) ∧
    (due (s.dev.port n).holdEnd s.dev.dt = false → s.dev.NoBond → exec (.holdTimerExpiry n) s = .next s) ∧
    (∀ i r : Nat, (s.dev.port n).st = .up → due (s.dev.port n).rotAt s.dev.dt = true → s.dev.cfgFld n bPort 0x38 0 16 ≠ 0 →
      (s.dev.port n).stby = some i → (s.dev.port n).plan = none → nextLane (s.dev.port n).txMask (s.dev.port n).rotIdx = some r →
      (s.dev.lane (s.dev.laneAt n i)).st = .quiet → Completes (.portRotation n) s (fun t =>
        (t.dev.lane (s.dev.laneAt n i)).st = .active ∧
        t.dev.port n = { s.dev.port n with
          rotAt := some (s.dev.dt + 1000000 * s.dev.cfgFld n bPort 0x38 0 16)
          plan := some { mask := clearBits ((s.dev.port n).txMask ||| 2 ^ i) (2 ^ r), eff := (s.dev.frameNow n + 8) % 2048 }
          planAns := false, planRest := some r, lanemapDue := true } ∧
        s.dev.LanesBut (s.dev.laneAt n i) t.dev ∧ s.dev.PortsBut n t.dev ∧
        Keeps [.lane, .lin, .lout, .port, .csr, .therm, .ctr, .telem] s t)) ∧
    ((s.dev.port n).st ≠ .up → exec (.portRotation n) s = .next s)

/-- R110, R112 to R114: a LEAVING partner whose LEAVE timer runs out departs abruptly (FS081), one with nothing outstanding departs in
order; a reclamation with everything returned and every census law in order frees the number, which remembers its CHIPID, and tells
the owners present; one that lasts beyond RECLAIM_MS raises FS082 and goes on. Other partner numbers stay as they are. -/
def Obligations.Partners : Prop :=
  ∀ (s : State) (k : Nat), k < 64 → (∀ l : Nat, l < 176 → (s.dev.lane l).st ≠ .active) → (∀ n : Nat, n < 144 → (s.dev.port n).accepted = 0) →
    ((s.dev.ptn k).st = .leaving → due (s.dev.ptn k).timer s.dev.dt = true → Completes (.leaveTimerExpiry k) s (fun t =>
      (t.dev.ptn k).st = .reclaim ∧ (t.dev.ptn k).abrupt = true ∧
      (t.dev.ptn k).timer = some (s.dev.dt + 1000000 * s.dev.cfgFld 0 bPartner 0x100 16 16) ∧
      (t.dev.ptn k).chipid = (s.dev.ptn k).chipid ∧ s.dev.Raised 81 { kind := 4, inst := k, wide := (s.dev.ptn k).chipid } t.dev ∧
      s.dev.Counts 0 bPartner 0x120 1 t.dev ∧ s.dev.PtnsKept k t.dev ∧
      (∀ n : Nat, n < 144 → (s.dev.port n).partner = some k → (t.dev.port n).st = .bond ∧ (t.dev.port n).partner = none) ∧
      Keeps (([.port, .rx, .tx, .ptx, .ptn, .txn, .mem, .qm, .xfer, .sel] : List Part) ++ faultParts) s t)) ∧
    ((s.dev.ptn k).st = .leaving → s.dev.leaveQuiet k = true → Completes (.leavingQuiesced k) s (fun t =>
      (t.dev.ptn k).st = .reclaim ∧ (t.dev.ptn k).abrupt = false ∧ s.dev.PtnsKept k t.dev ∧
      Keeps (([.port, .rx, .tx, .ptx, .ptn, .txn, .mem, .qm, .xfer, .sel] : List Part) ++ faultParts) s t)) ∧
    (s.dev.reclaimed k = true → s.dev.lawFails k = none → (∀ n : Nat, n < 144 → (s.dev.port n).waitPm = false) →
      (∀ i : Nat, i < 8 → (s.dev.pair 64 i).wait = false) → Completes (.reclaimComplete k) s (fun t =>
      t.dev.ptn k = { chipid := (s.dev.ptn k).chipid, past := (s.dev.ptn k).past } ∧ s.dev.Marks k bPartner 0x38 2 t.dev ∧
      s.dev.Counts 0 bPartner 0x118 1 t.dev ∧ s.dev.PtnsBut k t.dev ∧ Keeps (([.port, .ptn] : List Part) ++ faultParts) s t)) ∧
    (∀ law v : Nat, s.dev.reclaimed k = true → s.dev.lawFails k = some (law, v) → (∀ i : Nat, i < 8 → (s.dev.pair 64 i).wait = false) → Completes (.reclaimComplete k) s (fun t =>
      (t.dev.src 1).raises = min ((s.dev.src 1).raises + 1) 0xFFFFFFFF ∧ (t.dev.ptn k).st = .reclaim ∧ Keeps faultParts s t)) ∧
    ((s.dev.ptn k).st = .reclaim → due (s.dev.ptn k).timer s.dev.dt = true → Completes (.reclaimTimerExpiry k) s (fun t =>
      t.dev.ptn k = { s.dev.ptn k with timer := none } ∧ s.dev.Raised 82 { kind := 4, inst := k } t.dev ∧
      s.dev.Marks k bPartner 0x38 0x20 t.dev ∧ s.dev.PtnsBut k t.dev ∧ Keeps (.ptn :: faultParts) s t ∧
      s.dev.Noted [regKey k bPartner 0x38] [] [82] t.dev)) ∧
    ((s.dev.ptn k).st ≠ .reclaim → exec (.reclaimTimerExpiry k) s = .next s)

/-! ### Requests -/

/-- R120, R127, R128, R131, R201: a raw or table request that passes its checks is admitted: it takes the next place in the stamp
order with its stamp, its tag is held unless it is posted, and a table request keeps the descriptor in force. Only the transaction
layer and a tie record change. `requestRow` names every raw and table request row (READ to POLICE and
the ATOM rows). R140, R473 to R478: a CSR request that nothing holds back reads or writes its register by the partner's own path and is answered with
the value read; what else the register access does is its effect on a device that differs from the one before by the request's own
bookkeeping alone. -/
def Obligations.RequestsAdmitted : Prop :=
  (∀ (s : State) (o : Opc) (h : ReqHdr) (k : Nat), s.dev.FromPartner h k → s.dev.TagFree o h k →
    s.dev.refusal (s.dev.requestOf o h k) h.plen = none →
    (o.isRaw = true → Completes (requestRow o h) s (fun t =>
      t.dev.txn.reqs = s.dev.txn.reqs ++ [{ s.dev.requestOf o h k with
        frags := (List.range (if o = .readLong then ceilDiv h.len 16 else 1)).map (fun i => { idx := i }) }] ∧
      s.dev.Stamped o h k t.dev ∧ t.dev.txn.frags = s.dev.txn.frags ∧ Keeps [.txn, .telem] s t)) ∧
    (o.isTable = true → Completes (requestRow o h) s (fun t =>
      ∃ r : Req, t.dev.txn.reqs = s.dev.txn.reqs ++ [r] ∧ r.td = s.dev.td (h.addr % 64) ∧ r.opc = o ∧ r.ptn = k ∧ r.stamp = s.dev.dt ∧
        r.ord = s.dev.txn.nextOrd ∧ r.addr = h.addr ∧ r.data = h.data ∧ r.st = .waiting ∧
        r.home = s.dev.homeOf { s.dev.requestOf o h k with td := s.dev.td (h.addr % 64) } ∧
        s.dev.Stamped o h k t.dev ∧ t.dev.txn.frags = s.dev.txn.frags ∧ Keeps [.txn, .telem] s t))) ∧
  (∀ (s : State) (h : ReqHdr) (k : Nat), s.dev.FromPartner h k →
    (∀ r : Req, r = s.dev.requestOf .csrRead h k → s.dev.TagFree .csrRead h k → s.dev.refusal r h.plen = none → s.dev.fenceBlocked r = false →
      s.dev.csrBlocked r = false → Completes (.csrRead h) s (fun t => ∃ (d1 : Dev) (x : Acc), Dev.Keeps [.txn, .telem] s.dev d1 ∧
        x = d1.csrRead k (h.addr - csrBase) ∧ Dev.Keeps [.txn] x.dev t.dev ∧
        s.dev.Responds r x.status (if x.status = .ok then leBytes 4 x.value else []) 0 t.dev ∧
        t.dev.txn.reqs = s.dev.txn.reqs ∧ s.dev.Stamped .csrRead h k t.dev ∧
        Keeps [.txn, .telem, .ptn, .fault, .ecc, .sla, .csr, .latch] s t)) ∧
    (∀ r : Req, r = s.dev.requestOf .csrWrite h k → s.dev.TagFree .csrWrite h k → s.dev.refusal r h.plen = none → s.dev.fenceBlocked r = false →
      s.dev.csrBlocked r = false → Completes (.csrWrite h) s (fun t => ∃ (d1 : Dev) (x : Status × Dev), Dev.Keeps [.txn, .telem] s.dev d1 ∧
        x = d1.csrWrite k (h.addr - csrBase) (leAt h.data 0 4) ∧ Dev.Keeps [.txn] x.2 t.dev ∧
        (∃ f : Frag, t.dev.txn.frags = x.2.txn.frags ++ [f] ∧ f.status = x.1 ∧ f.tag = h.tag % 4096 ∧ f.ptn = k ∧ f.data = []) ∧
        t.fuse = s.fuse ∧ t.pending = s.pending)))

/-- R112, R124, R127, R131 to R133, R302: a request that fails a check is answered with the status of that check, and an unknown opcode
with UNSUP; UNSUP and MALFORMED raise FS090. A posted one is counted, or reported by an event and FS092. A tag in use raises FS091 and
the request is neither executed nor answered. An ENQUEUE that is refused is answered with OCC, or counted where it is posted (R174). What
comes without a partner changes nothing. A packet refused on VC3, whatever its opcode, is counted and raises FS090, and holds no tag. -/
def Obligations.RequestsRefused : Prop :=
  ∀ (s : State) (o : Opc) (h : ReqHdr) (k raw : Nat), s.dev.FromPartner h k →
    (∀ st : Status, o ≠ .unknown → h.vc ≠ 3 → s.dev.TagFree o h k → s.dev.refusal (s.dev.requestOf o h k) h.plen = some st →
      ((s.dev.requestOf o h k).posted = false → o = .enqueue → Completes (.enqueue h) s (fun t =>
        s.dev.Responds (s.dev.requestOf o h k) st [] (s.dev.queue (h.addr % 131072)).occ t.dev ∧ t.dev.txn.reqs = s.dev.txn.reqs ∧
        s.dev.Stamped o h k t.dev ∧ Keeps (([.txn, .qm] : List Part) ++ faultParts) s t)) ∧
      ((s.dev.requestOf o h k).posted = true → o = .enqueue → Completes (.enqueue h) s (fun t =>
        s.dev.Counts 0 bTelem (0x400 + 8 * k) 1 t.dev ∧ t.dev.txn.reqs = s.dev.txn.reqs ∧ t.dev.txn.frags = s.dev.txn.frags ∧
        Keeps (([.txn, .qm] : List Part) ++ faultParts) s t)) ∧
      ((s.dev.requestOf o h k).posted = false → o ≠ .enqueue → Completes (requestRow o h) s (fun t =>
        s.dev.Responds (s.dev.requestOf o h k) st [] 0 t.dev ∧ t.dev.txn.reqs = s.dev.txn.reqs ∧ s.dev.Stamped o h k t.dev ∧
        Keeps (([.txn] : List Part) ++ faultParts) s t ∧
        ((st = .unsup ∨ st = .malformed) → s.dev.Raised 90 { kind := 4, inst := k, a := h.port, b := o.code } t.dev) ∧
        (st ≠ .unsup → st ≠ .malformed → Keeps [.txn, .telem] s t))) ∧
      ((s.dev.requestOf o h k).posted = true → o ≠ .enqueue → (st = .noService ∨ st = .departing) → Completes (requestRow o h) s (fun t =>
        s.dev.Counts 0 bTelem (0x400 + 8 * k) 1 t.dev ∧ t.dev.txn.reqs = s.dev.txn.reqs ∧ t.dev.txn.frags = s.dev.txn.frags ∧
        Keeps [.txn, .telem, .ctr] s t)) ∧
      ((s.dev.requestOf o h k).posted = true → o ≠ .enqueue → st = .malformed → Completes (requestRow o h) s (fun t =>
        s.dev.Counts 0 bTelem (0x400 + 8 * k) 1 t.dev ∧ s.dev.Raised 90 { kind := 4, inst := k, a := h.port, b := o.code } t.dev ∧
        t.dev.txn.reqs = s.dev.txn.reqs ∧ t.dev.txn.frags = s.dev.txn.frags ∧ Keeps (([.txn] : List Part) ++ faultParts) s t)) ∧
      ((s.dev.requestOf o h k).posted = true → o ≠ .enqueue → st = .addr ∨ st = .denied ∨ st = .unsup → Completes (requestRow o h) s (fun t =>
        s.dev.Raised 92 { kind := 4, inst := k, a := h.port } t.dev ∧ t.dev.txn.reqs = s.dev.txn.reqs ∧
        t.dev.txn.frags = s.dev.txn.frags ∧ Keeps (([.txn] : List Part) ++ faultParts) s t))) ∧
    (o ≠ .unknown → o ≠ .enqueue → h.vc ≠ 3 → (s.dev.requestOf o h k).posted = false → s.dev.tagHeld k (h.tag % 4096) = true →
      Completes (requestRow o h) s (fun t =>
        s.dev.Raised 91 { kind := 4, inst := k, a := h.port } t.dev ∧ t.dev.txn.reqs = s.dev.txn.reqs ∧
        t.dev.txn.frags = s.dev.txn.frags ∧ t.dev.txn.tags = s.dev.txn.tags ∧ Keeps (([.txn] : List Part) ++ faultParts) s t)) ∧
    (h.vc ≠ 3 → s.dev.tagHeld k (h.tag % 4096) = false → Completes (.unknownOpcodeRequest raw h) s (fun t =>
      s.dev.Responds { s.dev.requestOf .unknown h k with opcRaw := raw } .unsup [] 0 t.dev ∧ t.dev.txn.reqs = s.dev.txn.reqs ∧
      s.dev.Raised 90 { kind := 4, inst := k, a := h.port, b := raw } t.dev ∧ Keeps (([.txn] : List Part) ++ faultParts) s t)) ∧
    (h.vc = 3 → Completes (requestRow o h) s (fun t =>
      s.dev.Raised 90 { kind := 4, inst := k, a := h.port, b := o.code } t.dev ∧ s.dev.Counts 0 bTelem (0x400 + 8 * k) 1 t.dev ∧
      t.dev.txn.frags = s.dev.txn.frags ∧ t.dev.txn.reqs = s.dev.txn.reqs ∧ t.dev.txn.tags = s.dev.txn.tags ∧
      Keeps (([.txn] : List Part) ++ faultParts) s t)) ∧
    (h.vc = 3 → Completes (.unknownOpcodeRequest raw h) s (fun t =>
      s.dev.Raised 90 { kind := 4, inst := k, a := h.port, b := raw } t.dev ∧ s.dev.Counts 0 bTelem (0x400 + 8 * k) 1 t.dev ∧
      t.dev.txn.frags = s.dev.txn.frags ∧ Keeps (([.txn] : List Part) ++ faultParts) s t)) ∧
    (∀ g : ReqHdr, hdrOk g = true → (s.dev.port g.port).partner = none → exec (requestRow o g) s = .next s)

/-- R134: a request refused as UNSUP or MALFORMED raises FS090, which names the partner, the port and the OPC. -/
def Obligations.RefusalRaisesFs090 : Prop :=
  ∀ (s : State) (o : Opc) (h : ReqHdr) (n k raw plen : Nat) (img : List Byte),
    (hdrOk h = true → (s.dev.port h.port).partner = some k → s.dev.present k = true →
      (∀ st : Status, o ≠ .unknown → s.dev.TagFree o h k → s.dev.refusal (s.dev.requestOf o h k) h.plen = some st → st = .unsup ∨ st = .malformed →
        Completes (requestRow o h) s (fun t => s.dev.Raised 90 { kind := 4, inst := k, a := h.port, b := o.code } t.dev)) ∧
      (h.vc = 3 ∨ s.dev.tagHeld k (h.tag % 4096) = false → Completes (.unknownOpcodeRequest raw h) s (fun t =>
        s.dev.Raised 90 { kind := 4, inst := k, a := h.port, b := raw } t.dev))) ∧
    (n < 144 → (s.dev.port n).partner = some k → s.dev.present k = true →
      plen < 16 ∨ 256 < plen ∨ plen ≠ 16 + cmdPlen (padTo 256 (img.take plen)) → Completes (.mboxCmd n plen img) s (fun t =>
        s.dev.Raised 90 { kind := 4, inst := k, a := n, b := 0x70 } t.dev))

/-! ### Queues -/

/-- R172 to R183: an enqueue within the limits reserves its cells in its queue and takes its place; over the limit it is refused, the
queue marked FULL and OVERRUN; for lack of free cells it is refused with FULL and FS100; a dequeue takes the head packet's descriptors in queue order, or parks at an empty queue; QSTATUS reports
and changes nothing else; a park that ends is answered EMPTY; an enqueue whose writes have landed links its descriptors at the queue's
end. Other queues stay as they are, and without a spilled unit so does memory. -/
def Obligations.QueueRequests : Prop :=
  ∀ (s : State) (h : ReqHdr) (k : Nat), s.dev.FromPartner h k → s.dev.mem.sErr = [] → s.dev.injArmed = false →
    (∀ r : Req, r = s.dev.requestOf .enqueue h k → s.dev.TagFree .enqueue h k → s.dev.refusal r h.plen = none →
      (∀ o : OpenEnq, o ∈ s.dev.qm.opens → o.id < s.dev.txn.nextId) → (s.dev.queue h.addr).frozen = false →
      ((s.dev.queue h.addr).occ + (s.dev.queue h.addr).res + ceilDiv h.len 256 ≤ (s.dev.profileOf h.addr).qlimit →
        ceilDiv h.len 256 ≤ s.dev.qm.cellFree - s.dev.quarCells → Completes (.enqueue h) s (fun t =>
          t.dev.queue h.addr = { s.dev.queue h.addr with res := (s.dev.queue h.addr).res + ceilDiv h.len 256, full := false } ∧
          (∀ q : Nat, q ≠ h.addr → t.dev.queue q = s.dev.queue q) ∧
          t.dev.qm.cellFree = s.dev.qm.cellFree - ceilDiv h.len 256 ∧ t.dev.qm.cellInfl = s.dev.qm.cellInfl + ceilDiv h.len 256 ∧
          t.dev.qm.opens.length = s.dev.qm.opens.length + 1 ∧
          (∃ o : OpenEnq, o ∈ t.dev.qm.opens ∧ o.id = r.id ∧ o.q = h.addr ∧ o.len = h.len ∧ o.need = ceilDiv h.len 256 ∧ o.ptn = k ∧
            o.stamp = s.dev.dt ∧ o.ord = r.ord ∧ o.posted = r.posted) ∧
          s.dev.Stamped .enqueue h k t.dev ∧ Keeps [.txn, .telem, .qm] s t)) ∧
      ((s.dev.profileOf h.addr).qlimit < (s.dev.queue h.addr).occ + (s.dev.queue h.addr).res + ceilDiv h.len 256 →
        Completes (.enqueue h) s (fun t =>
          t.dev.queue h.addr = { s.dev.queue h.addr with
            full := true, overrun := true, drops := ((s.dev.queue h.addr).drops + 1) % 2 ^ 32 } ∧
          (∀ q : Nat, q ≠ h.addr → t.dev.queue q = s.dev.queue q) ∧ t.dev.qm.opens = s.dev.qm.opens ∧
          s.dev.Counts 0 bQm 0x310 1 t.dev ∧ (r.posted = false → s.dev.Responds r .full [] (s.dev.queue h.addr).occ t.dev) ∧
          Keeps (([.txn, .qm] : List Part) ++ faultParts) s t)) ∧
      ((s.dev.queue h.addr).occ + (s.dev.queue h.addr).res + ceilDiv h.len 256 ≤ (s.dev.profileOf h.addr).qlimit →
        s.dev.qm.cellFree - s.dev.quarCells < ceilDiv h.len 256 → Completes (.enqueue h) s (fun t =>
          t.dev.queue h.addr = { s.dev.queue h.addr with full := true, drops := ((s.dev.queue h.addr).drops + 1) % 2 ^ 32 } ∧
          (∀ q : Nat, q ≠ h.addr → t.dev.queue q = s.dev.queue q) ∧ t.dev.qm.opens = s.dev.qm.opens ∧
          s.dev.Counts 0 bQm 0x318 1 t.dev ∧ s.dev.Marks 0 bQm 0x150 1 t.dev ∧ s.dev.Raised 100 { kind := 8, inst := h.addr } t.dev ∧
          (r.posted = false → s.dev.Responds r .full [] (s.dev.queue h.addr).occ t.dev) ∧
          Keeps (([.txn, .qm] : List Part) ++ faultParts) s t))) ∧
    (∀ r : Req, r = s.dev.requestOf .dequeue h k → s.dev.TagFree .dequeue h k → s.dev.refusal r h.plen = none → s.dev.fenceBlocked r = false →
      s.dev.queueBlocked r = false → (s.dev.queue h.addr).frozen = false → s.dev.NoLinkDue h.addr →
      (∀ n : Nat, (s.dev.queue h.addr).occ ≠ 0 → (s.dev.queue h.addr).mid = [] → (s.dev.queue h.addr).head ≠ [] →
        n = (if h.mod = 0 then headCells (s.dev.queue h.addr).descs else min h.len (headCells (s.dev.queue h.addr).descs)) →
        Completes (.dequeue h) s (fun t =>
          (t.dev.queue h.addr).descs = (s.dev.queue h.addr).descs.drop n ∧
          (t.dev.queue h.addr).occ = (s.dev.queue h.addr).occ - n ∧
          (t.dev.queue h.addr).pkts = (s.dev.queue h.addr).pkts - b2n (((s.dev.queue h.addr).descs.take n).any (·.eop)) ∧
          (∀ q : Nat, q ≠ h.addr → t.dev.queue q = s.dev.queue q) ∧
          t.dev.qm.cellQueued = s.dev.qm.cellQueued - n ∧ t.dev.qm.cellInfl = s.dev.qm.cellInfl + n ∧
          (∃ x : Req, x ∈ t.dev.txn.reqs ∧ x.id = r.id ∧ x.ptn = k ∧ x.tag = h.tag % 4096 ∧ x.begun = true ∧
            x.cells = ((s.dev.queue h.addr).descs.take n).map (fun y => (y.cell, y.cbytes)) ∧
            x.rlen = (if h.mod = 1 then 16 else 0) + (((s.dev.queue h.addr).descs.take n).map (·.cbytes)).sum) ∧
          s.dev.Stamped .dequeue h k t.dev ∧ Keeps [.txn, .telem, .qm, .ctr] s t)) ∧
      (∀ sh : Bool, (s.dev.queue h.addr).occ = 0 → s.dev.parkRoom k = some sh → Completes (.dequeue h) s (fun t =>
        t.dev.txn.reqs = s.dev.txn.reqs ++ [{ r with snap := s.dev.qSnap h.addr, st := .parked, begun := true }] ∧
        t.dev.qm = { s.dev.qm with parks := s.dev.qm.parks ++
          [{ id := r.id, q := h.addr, ptn := k, shared := sh, end_ := r.deadline.getD (s.dev.dt + 1000 * (s.dev.profileOf h.addr).parkUs) }] } ∧
        s.dev.Stamped .dequeue h k t.dev ∧ Keeps [.txn, .telem, .qm] s t))) ∧
    (∀ r : Req, r = s.dev.requestOf .qstatus h k → s.dev.TagFree .qstatus h k → s.dev.refusal r h.plen = none → s.dev.fenceBlocked r = false →
      s.dev.queueBlocked r = false → s.dev.NoLinkDue h.addr → Completes (.qstatus h) s (fun t =>
        s.dev.Responds r .ok (s.dev.qRecord h.addr) 0 t.dev ∧ t.dev.txn.reqs = s.dev.txn.reqs ∧ s.dev.Stamped .qstatus h k t.dev ∧
        Keeps [.txn, .telem] s t))

/-- R138, R166, R175, R176, R180, R181, R185, R186: an enqueue whose cells have all landed, with nothing before it, is linked: its
descriptors join the end of the queue, the occupancy and the packet count rise, its place among the open enqueues is given up, other
queues stay, and a non-posted one is answered with the new occupancy. A park whose time has passed is answered EMPTY, an earlier one
stays. A queue move copies one cell of the queue to a free one, and puts it in the descriptor that named the old one; what has nothing left to
move ends with its mark, for a shrink and for a channel, and without a move the row changes nothing. -/
def Obligations.QueueProgress : Prop :=
  ∀ (s : State) (q id : Nat), q < 131072 → s.dev.mem.sErr = [] → s.dev.injArmed = false →
    (∀ o : OpenEnq, s.dev.qm.opens.filter (fun x => x.q == q) = [o] → o.buf = [] → o.got = o.len → o.issued = o.need → o.out = 0 →
      o.cells.length = o.need → s.dev.enqFenced o = false → s.dev.queueBlocked o.req = false → (s.dev.queue q).frozen = false → o.spill = [] → o.spillOut = 0 →
      (∀ p : Nat × Arriving, p ∈ s.dev.qm.arriving → p.2.wait = []) → s.dev.qm.parks = [] → o.depart = false → (∀ (x : OpenEnq) (y : OpenEnq), x ∈ s.dev.qm.opens → y ∈ s.dev.qm.opens → x.id = y.id → x = y) →
      (∀ (x : Req), x ∈ s.dev.txn.reqs → x.id ≠ o.id) → o.qwm = 0 →
      o.need + (if (s.dev.queue q).mid = [] ∧ (s.dev.queue q).tail = [] then (s.dev.queue q).head.length else 4 + (s.dev.queue q).tail.length) ≤ 8 →
      Completes (.enqueueLink q) s (fun t =>
        (t.dev.queue q).descs = (s.dev.queue q).descs ++ o.descs s.dev.dt ∧ (t.dev.queue q).occ = (s.dev.queue q).occ + o.need ∧
        (t.dev.queue q).res = (s.dev.queue q).res - o.need ∧ (t.dev.queue q).pkts = (s.dev.queue q).pkts + 1 ∧
        (∀ (r : Nat), r ≠ q → t.dev.queue r = s.dev.queue r) ∧ t.dev.qm.opens = s.dev.qm.opens.filter (fun x => x.id != o.id) ∧
        t.dev.qm.cellInfl = s.dev.qm.cellInfl - o.need ∧ t.dev.qm.cellQueued = s.dev.qm.cellQueued + o.need ∧
        s.dev.Counts 0 bQm 0x300 1 t.dev ∧
        (o.posted = false → s.dev.Responds o.req .ok [] ((s.dev.queue q).occ + o.need) t.dev) ∧ Keeps [.txn, .qm, .ctr, .telem] s t)) ∧
    (∀ (p : Park) (r : Req), s.dev.qm.parks.find? (fun x => x.id == id) = some p → p.end_ < s.dev.dt → s.dev.req? id = some r → r.posted = false →
      r.depart = false → Completes (.parkEnd id) s (fun t =>
        s.dev.Responds r .empty [] 0 t.dev ∧ t.dev.qm = { s.dev.qm with parks := s.dev.qm.parks.filter (fun x => x.id != id) } ∧
        s.dev.Counts 0 bQm 0x320 1 t.dev ∧ Keeps [.txn, .qm, .ctr, .telem] s t)) ∧
    (∀ p : Park, s.dev.qm.parks.find? (fun x => x.id == id) = some p → s.dev.dt ≤ p.end_ → exec (.parkEnd id) s = .next s) ∧
    (∀ (x : Desc) (c p : Nat), s.dev.movesPending = true → (s.dev.queue q).frozen = false →
      (s.dev.queue q).descs.find? (fun y => s.dev.cellMoves y.cell) = some x → (∀ u : Nat × List Desc, u ∈ (s.dev.queue q).mid →
        ∀ e : Desc, e ∈ u.2 → e.cell ≠ x.cell) → s.dev.rotate s.dev.qm.cellUsed s.dev.qm.ptrCell s.dev.cellLim false = some (c, p) →
      s.dev.copySlots (s.dev.cellPlace x.cell) (s.dev.cellPlace c) = true →
      (s.dev.bgCopy (s.dev.cellPlace x.cell) (s.dev.cellPlace c) (ceilDiv x.cbytes 64)).2 = true → Completes (.cellMove q) s (fun t =>
        t.dev.queue q = (s.dev.queue q).mapDescs (fun e => if e.cell = x.cell then { e with cell := c } else e) ∧
        (∀ r : Nat, r ≠ q → t.dev.queue r = s.dev.queue r) ∧ t.dev.qm.cellUsed = s.dev.qm.cellUsed.filter (· != x.cell) ++ [c] ∧
        t.dev.qm.cellFree = s.dev.qm.cellFree ∧ t.dev.qm.cellQueued = s.dev.qm.cellQueued ∧ t.dev.qm.cellInfl = s.dev.qm.cellInfl ∧
        Keeps (([.mem, .qm, .dram, .ecc, .graft, .free] : List Part) ++ faultParts) s t)) ∧
    (s.dev.movesPending = true → (s.dev.queue q).frozen = false → (∀ x : Desc, x ∈ (s.dev.queue q).descs → s.dev.cellMoves x.cell = false) →
      (∀ u : Nat × List Desc, u ∈ (s.dev.queue q).mid → s.dev.unitMoves u.1 = false) →
      Completes (.cellMove q) s (fun t =>
        (s.dev.qm.moving = true → (∀ c : Nat, c ∈ s.dev.qm.cellUsed → c < s.dev.cellLim) → (∀ u : Nat, u ∈ s.dev.qm.unitUsed → u < s.dev.unitLim) →
          t.dev.qm = { s.dev.qm with moving := false } ∧ s.dev.Marks 0 bQm 0x150 8 t.dev) ∧
        (∀ c : Nat, c < 64 → s.dev.chMoving c = true → (∀ x : Nat, x ∈ s.dev.qm.cellUsed → x % 64 ≠ c) →
          (∀ u : Nat, u ∈ s.dev.qm.unitUsed → u % 64 ≠ c) →
          (t.dev.evacOf c).moveDone = true ∧ s.dev.Marks 0 bQm 0x150 8 t.dev) ∧
        (∀ r : Nat, t.dev.queue r = s.dev.queue r) ∧ s.dev.RegsBut [regKey 0 bQm 0x150] t.dev ∧ Keeps [.qm, .graft, .csr] s t)) ∧
    (s.dev.movesPending = false → exec (.cellMove q) s = .next s)

/-! ### Accesses, tables and the result collector -/

/-- R125, R126, R135, R139, R141, R150, R154, R156: FRAGMENT_ISSUE carries out a raw request of one fragment. On DRAM its access joins
the accesses that wait to be handed over, in the request's place of the stamp order. On stack SRAM it is performed whole: a write stores
its 64 bytes, a read answers them, an atomic stores the new value and answers the old one. A WRITE_MASK with no byte enabled makes no access and
is answered OK. Without a request of that number, and while
an earlier access of the unit stands, nothing happens. -/
def Obligations.AccessesIssued : Prop :=
  ∀ (s : State) (id u : Nat) (r : Req), s.dev.req? id = some r → r.id = id → r.opc.isRaw = true → r.opc ≠ .readLong → r.fence = false →
    r.nextFrag = 0 → r.frags = [{}] → r.begun = false → r.st = .waiting → r.depart = false → r.status = .ok → r.dpend = 0 →
    (∀ x y : Req, x ∈ s.dev.txn.reqs → y ∈ s.dev.txn.reqs → x.id = y.id → x = y) →
    s.dev.unitAt (r.addr / 64 * 64) = some u → tabGet (fun _ => 0) s.dev.txn.rsvUsed r.ptn + 64 ≤ 32768 → s.dev.txn.shrUsed ≤ 1048576 →
    (inSram (64 * u) = false → (r.opc = .writeMask → r.enables ≠ 0) → Completes (.fragmentIssue id) s (fun t =>
      (∃ a : Access, t.dev.txn.acc = s.dev.txn.acc ++ [a] ∧ a.for_ = .req id 0 ∧ a.unit = u ∧ a.ord = r.ord ∧ a.stamp = r.stamp ∧ a.tc = r.tc ∧
        a.chipid = (s.dev.ptn r.ptn).chipid ∧ a.deadline = r.deadline ∧ a.arrive = s.dev.dt ∧
        (r.opc = .read → a.kind = .read) ∧ (r.opc.isAtom = true → a.kind = .rmw) ∧
        (r.opc = .write → a.kind = .write ∧ a.bytes = padTo 64 r.data ∧ a.mask = 2 ^ 64 - 1) ∧
        (r.opc = .writeMask → a.kind = (if r.enables = 2 ^ 64 - 1 then .write else .rmw) ∧ a.bytes = slice r.data 8 64 ∧ a.mask = r.enables)) ∧
      (∃ x : Req, t.dev.req? id = some x ∧ x.nextFrag = 1 ∧ x.st = .issued) ∧ t.dev.txn.frags = s.dev.txn.frags ∧ Keeps [.txn] s t)) ∧
    (inSram (64 * u) = false → r.opc = .writeMask → r.enables = 0 → r.posted = false → s.dev.earlier r.ord u = false →
      Completes (.fragmentIssue id) s (fun t =>
        (∃ f : Frag, t.dev.txn.frags = s.dev.txn.frags ++ [f] ∧ f.id = id ∧ f.status = .ok ∧ f.tag = r.tag ∧ f.data = [] ∧ f.last = true) ∧
        t.dev.txn.acc = s.dev.txn.acc ∧ t.dev.req? id = none ∧ Keeps [.txn] s t)) ∧
    (inSram (64 * u) = true → s.dev.mem.sErr = [] → s.dev.injArmed = false → s.dev.earlier r.ord u = false → s.dev.streamBlocked r = false →
      r.abandons s.dev.dt = false →
      (r.opc = .write → r.addr % 64 = 0 → Completes (.fragmentIssue id) s (fun t =>
        s.dev.SramStored r.addr (padTo 64 r.data) t.dev ∧ t.dev.req? id = none ∧ Keeps [.txn, .mem] s t ∧
        (r.posted = false → ∃ f : Frag, t.dev.txn.frags = s.dev.txn.frags ++ [f] ∧ f.id = id ∧ f.status = .ok ∧ f.tag = r.tag ∧ f.data = [] ∧ f.last = true))) ∧
      (r.opc = .read → r.addr % 64 = 0 → r.posted = false → Completes (.fragmentIssue id) s (fun t =>
        (∃ f : Frag, t.dev.txn.frags = s.dev.txn.frags ++ [f] ∧ f.id = id ∧ f.status = .ok ∧ f.tag = r.tag ∧ f.last = true ∧
          f.data = s.dev.sramBytes r.addr 64) ∧ t.dev.req? id = none ∧ Keeps [.txn] s t)) ∧
      (∀ n old : Nat, r.opc.isAtom = true → r.posted = false → n = r.atomSize → r.addr % n = 0 → old = leNat (s.dev.sramBytes r.addr n) →
        Completes (.fragmentIssue id) s (fun t =>
          s.dev.SramStored r.addr (leBytes n (atomNew r.opc (8 * n) old (leAt r.data 0 n) (leAt r.data 8 n))) t.dev ∧
          (∃ f : Frag, t.dev.txn.frags = s.dev.txn.frags ++ [f] ∧ f.id = id ∧ f.status = .ok ∧ f.data = leBytes 8 old) ∧
          t.dev.req? id = none ∧ Keeps [.txn, .mem] s t))) ∧
    (inSram (64 * u) = true → s.dev.earlier r.ord u = true → exec (.fragmentIssue id) s = .next s) ∧
    (∀ j : Nat, s.dev.req? j = none → exec (.fragmentIssue j) s = .next s)

/-- R192, R194, R196, R211: a table request takes a context of its home channel; the gate of an engine's next channel issues the step
picked there, whose DRAM accesses then wait for their channels, and passes on; the data of a COUNT step return, and its pair in stack SRAM counts one packet and the bytes named. R194, R215 to R217: a source that completes takes its reserved slot, and a table operation then gives its context back; a pass
delivers what the sources hold, forms the response of a table request, or gives firmware the outcome of its own, and starts one source later next time. -/
def Obligations.TableOperations : Prop :=
  (∀ (s : State) (id : Nat) (r : Req), (∀ x y : Req, x ∈ s.dev.txn.reqs → y ∈ s.dev.txn.reqs → x.id = y.id → x = y) →
    (s.dev.req? id = some r → r.opc.isTable = true → r.ctx = false → r.st = .waiting → r.fence = false → s.dev.ctxBusy r.home < 64 →
      (tierChans (r.home / 16)).any s.dev.serving = true → tabGet (fun _ => 0) s.dev.txn.rsvUsed r.ptn + r.tableLen ≤ 32768 →
      s.dev.txn.shrUsed ≤ 1048576 → Completes (.tableOperationStart id) s (fun t =>
        (∃ x : Req, t.dev.req? id = some x ∧ x.ctx = true ∧ x.ready = true ∧ x.st = .issued ∧ x.td = r.td ∧ x.home = r.home) ∧
        tabGet (fun _ => 0) t.dev.sla.peak r.home = max (tabGet (fun _ => 0) s.dev.sla.peak r.home) (s.dev.ctxBusy r.home + 1) ∧
        t.dev.txn.frags = s.dev.txn.frags ∧ Keeps [.txn, .sla, .csr] s t)) ∧
    (∀ e len g : Nat, e < 4 → (s.dev.eng e).gate = g →
      (s.dev.pickStep (16 * e + g) = none → g < 15 → Completes (.slalomGate e len) s (fun t =>
        t.dev.eng e = { s.dev.eng e with gate := g + 1, sum := (s.dev.eng e).sum + len } ∧
        (∀ f : Nat, f ≠ e → t.dev.eng f = s.dev.eng f) ∧ Keeps [.sla] s t)) ∧
      (s.dev.pickStep (16 * e + g) = none → g = 15 → (s.dev.eng e).sum + len ≤ 130000 → Completes (.slalomGate e len) s (fun t =>
        (t.dev.eng e).gate = 0 ∧ (t.dev.eng e).sum = 0 ∧ (t.dev.eng e).issued = 0 ∧
        (∀ f : Nat, f ≠ e → t.dev.eng f = s.dev.eng f) ∧ Keeps [.sla, .csr] s t)) ∧
      (s.dev.pickStep (16 * e + g) = none → g = 15 → 130000 < (s.dev.eng e).sum + len → Completes (.slalomGate e len) s (fun t =>
        s.dev.Raised 111 { kind := 6, inst := e } t.dev ∧ s.dev.Marks e bSlalom 0x14 2 t.dev ∧ (t.dev.eng e).gate = 0 ∧
        Keeps (.sla :: faultParts) s t ∧ s.dev.Noted [regKey e bSlalom 0x14] [] [111] t.dev)) ∧
      (∀ x : Req, s.dev.pickStep (16 * e + g) = some x → x.abandons s.dev.dt = false → g < 15 → Completes (.slalomGate e len) s (fun t =>
        (∃ y : Req, t.dev.req? x.id = some y ∧ y.ready = false ∧ y.begun = true) ∧ s.dev.Counts e bSlalom 0x80 1 t.dev ∧
        (t.dev.eng e).gate = g + 1 ∧ (t.dev.eng e).issued = (s.dev.eng e).issued + 1 ∧
        (∃ as : List Access, t.dev.txn.acc = s.dev.txn.acc ++ as ∧ as.map (·.unit) = s.dev.stepDram x ∧
          ∀ a : Access, a ∈ as → a.for_ = .step x.id ∧ a.kind = x.stepKind ∧ a.stamp = x.stamp ∧ a.ord = x.ord ∧ a.tc = x.tc) ∧
        Keeps [.txn, .sla, .ctr] s t))) ∧
    (∀ (a : Nat) (bs : List Byte) (rg : Region), s.dev.req? id = some r → r.opc = .count → r.ctx = true → r.ready = false → r.st = .issued → r.begun = true → r.posted = false → r.spend = 0 → r.sdata = [] → r.fw = none →
      a = tdEntry r.td (r.addr / 256) → a % 16 = 0 → inSram a = true → s.dev.placeAt (a / 64 * 64) = some (rg, a / 64 * 64) →
      s.dev.mem.sErr = [] → s.dev.injArmed = false → s.dev.earlier r.ord (placeUnit (a / 64 * 64)) = false → s.dev.streamBlocked r = false →
      bs = s.dev.sramBytes a 16 → Completes (.stepDataReturn id) s (fun t =>
        s.dev.SramStored a (leBytes 8 (leAt bs 0 8 + 1) ++ leBytes 8 (leAt bs 8 8 + leAt r.data 0 8)) t.dev ∧
        (∃ x : Req, t.dev.req? id = some x ∧ x.st = .done ∧ x.status = .ok ∧
          x.resp = leBytes 8 (leAt bs 0 8 + 1) ++ leBytes 8 (leAt bs 8 8 + leAt r.data 0 8)) ∧
        t.dev.txn.comps = s.dev.txn.comps ++ [{ src := r.home, ref := .table id }] ∧
        s.dev.Counts (r.home / 16) bSlalom 0x98 1 t.dev ∧ Keeps [.txn, .mem, .ctr] s t)) ∧
    (s.dev.req? id = none → exec (.tableOperationStart id) s = .next s ∧ exec (.stepDataReturn id) s = .next s)) ∧
  (∀ (s : State) (c : Comp) (id : Nat) (r : Req), c.src < 101 →
    (s.dev.txn.comps = [c] → c.slot = .none → c.ref = .table id → c.src < 68 → s.dev.txn.reqs = [r] → r.id = id →
      Completes (.resultComplete c.src) s (fun t =>
        t.dev.txn.comps = [{ c with slot := .reserved }] ∧ t.dev.txn.reqs = [{ r with ctx := false }] ∧ Keeps [.txn] s t)) ∧
    (s.dev.txn.comps = [] → s.dev.txn.reqs = [] → Completes .collectorPass s (fun t =>
      t.dev.sla = { s.dev.sla with passStart := (s.dev.sla.passStart + 1) % 101, passDelivered := 0 } ∧
      t.dev.txn = s.dev.txn ∧ Keeps [.sla, .telem, .txn] s t)) ∧
    (s.dev.txn.comps = [c] → c.slot ≠ .none → c.ref = .table id → s.dev.req? id = some r → r.id = id → r.fw = none → r.posted = false → r.depart = false →
      Completes .collectorPass s (fun t =>
        t.dev.txn.comps = [] ∧ t.dev.sla.passDelivered = 1 ∧ t.dev.sla.passStart = (s.dev.sla.passStart + 1) % 101 ∧
        s.dev.Counts 0 bSlalom 0x140 1 t.dev ∧ t.dev.req? id = none ∧
        (∃ f : Frag, t.dev.txn.frags = s.dev.txn.frags ++ [f] ∧ f.id = id ∧ f.status = r.status ∧ f.data = r.resp ∧ f.aux = r.aux ∧ f.tag = r.tag) ∧
        Keeps [.txn, .sla, .telem, .ctr] s t)) ∧
    (∀ p : Nat, s.dev.txn.comps = [c] → c.slot ≠ .none → c.ref = .table id → s.dev.req? id = some r → r.id = id → r.fw = some p →
      (s.dev.pair (p / 8) (p % 8)).wait = true → (s.dev.pair (p / 8) (p % 8)).work = [id] → Completes .collectorPass s (fun t =>
        t.dev.pair (p / 8) (p % 8) = { s.dev.pair (p / 8) (p % 8) with eng := some (fwTableStatus r.status, r.fwResult) } ∧
        t.dev.txn.comps = [] ∧ t.dev.req? id = none ∧ t.dev.txn.frags = s.dev.txn.frags ∧ Keeps [.txn, .sla, .telem, .ctr, .mbox] s t)))

/-! ### Regulation and the DRAM channels -/

/-- R263, R271 to R273: once per epoch the capacity and the budgets are computed anew, from the share in force and the channels that
serve; the charges start from zero where none has been made since the epoch began. The gap after a RESCALE event ends with a report of what
was held back. -/
def Obligations.Regulation : Prop :=
  ∀ (s : State) (o : Nat), o < 66 →
    (s.dev.reg.epoch < s.dev.dt / 1024 → Completes .epochStart s (fun t =>
      t.dev.reg.epoch = s.dev.dt / 1024 ∧ t.dev.reg.chargeEpoch = s.dev.dt / 1024 ∧
      t.dev.reg.charge = (if s.dev.reg.chargeEpoch = s.dev.dt / 1024 then s.dev.reg.charge else []) ∧
      (t.dev.reg.gmin, t.dev.reg.bind, t.dev.reg.n) = s.dev.capacity (imgShare s.dev.image) ∧
      t.dev.reg.rsv = scaleAll (imgRsvs s.dev.image t.dev.reg.n) t.dev.reg.gmin ∧
      (∀ c : Nat, c < 64 → (t.dev.ch c).fgSlots = (if s.dev.reg.chargeEpoch = s.dev.dt / 1024 then (s.dev.ch c).fgSlots else 0)) ∧ Keeps (([.reg, .dram] : List Part) ++ faultParts) s t)) ∧
    (s.dev.dt / 1024 ≤ s.dev.reg.epoch → exec .epochStart s = .next s) ∧
    (∀ (c : Nat) (l : List Nat), tabGet (fun _ => ([] : List Nat)) s.dev.reg.heldChg o = l → c ∈ l → s.dev.reg.rsv.any (fun e => e.chipid == c) = true →
      64 ≤ o ∨ s.dev.partnerOf c = some o → tabGet (fun _ => 0) s.dev.reg.gapEnd o ≤ s.dev.dt → Completes (.rescaleGapEnd o) s (fun t =>
        tabGet (fun _ => ([] : List Nat)) t.dev.reg.heldChg o = [] ∧
        tabGet (fun _ => 0) t.dev.reg.gapEnd o = s.dev.dt + 1000 * s.dev.cfgFld 0 bReg 0x14 16 16 ∧
        Keeps (.reg :: faultParts) s t ∧ s.dev.Noted [] [] [] t.dev)) ∧
    (s.dev.dt < tabGet (fun _ => 0) s.dev.reg.gapEnd o ∨ tabGet (fun _ => ([] : List Nat)) s.dev.reg.heldChg o = [] →
      exec (.rescaleGapEnd o) s = .next s)

/-- R272: after an epoch start the budgets in force fit the capacity: their sum does not exceed Gmin. -/
def Obligations.BudgetsFitCapacity : Prop :=
  ∀ s t : State, s.dev.reg.epoch < s.dev.dt / 1024 → exec .epochStart s = .next t → (t.dev.reg.rsv.map (·.bNow)).sum ≤ t.dev.reg.gmin

/-- R223 to R226, R264 to R266: a write that may go is handed over to its channel's write queue and a read or read-merge-write of a
request to the read queue, with its priority; a refresh whose debt has reached 8 comes first in a command slot; a queued write that has
aged is served and its 64 bytes stand in memory, all other bytes as before; a channel that is not in service uses no slot; a write that has
aged begins a drain. -/
def Obligations.ChannelAccesses : Prop :=
  ∀ (s : State) (c upset : Nat) (a : Access), c < 64 →
    (s.dev.dt / 1024 = s.dev.reg.chargeEpoch → (∀ p : Nat × Arriving, p ∈ s.dev.qm.arriving → p.2.wait = []) →
      (s.dev.pickHand c = none → exec (.accessHandover c) s = .next s) ∧
      (∀ id : Nat, s.dev.pickHand c = some a → a.for_ = .enq id → a.kind = .write →
        (∀ o : OpenEnq, s.dev.open? id = some o → o.req.abandons s.dev.dt = false) → s.dev.mem.lost = [] → s.dev.serving c = true →
        Completes (.accessHandover c) s (fun t =>
          (t.dev.ch c).wrq = (s.dev.ch c).wrq ++ [{ a with pri := s.dev.accPri c a, arrive := s.dev.dt }] ∧
          (t.dev.ch c).rdq = (s.dev.ch c).rdq ∧ t.dev.txn.acc = s.dev.txn.acc.erase a ∧ (t.dev.ch c).idleAt = none ∧
          s.dev.ChansBut c t.dev ∧ Keeps [.txn, .dram, .qm, .reg, .ctr] s t)) ∧
      (∀ (id : Nat) (f : Nat) (r : Req), s.dev.pickHand c = some a → a.for_ = .req id f → a.kind ≠ .write → s.dev.req? id = some r → r.abandons s.dev.dt = false →
        s.dev.forward c a = none → s.dev.mem.lost = [] → s.dev.serving c = true → Completes (.accessHandover c) s (fun t =>
          (t.dev.ch c).rdq = (s.dev.ch c).rdq ++ [{ a with pri := s.dev.accPri c a, arrive := s.dev.dt }] ∧
          (t.dev.ch c).wrq = (s.dev.ch c).wrq ∧ t.dev.txn.acc = s.dev.txn.acc.erase a ∧
          (∃ x : Req, t.dev.req? id = some x ∧ x.begun = true) ∧ s.dev.ChansBut c t.dev ∧ Keeps [.txn, .dram, .reg, .ctr] s t))) ∧
    (s.dev.chanRuns c = true → (s.dev.ch c).srWait = false → 8 ≤ (s.dev.ch c).debt →
      s.dev.actReady c ((s.dev.ch c).ptr % 64) = true → Completes (.controllerCommandSlot c upset) s (fun t =>
        (t.dev.ch c).debt = (s.dev.ch c).debt - 1 ∧ (t.dev.ch c).ptr = ((s.dev.ch c).ptr + 1) % 524288 ∧
        (t.dev.ch c).rdq = (s.dev.ch c).rdq ∧ (t.dev.ch c).wrq = (s.dev.ch c).wrq ∧
        s.dev.Counts c bDram 0x228 1 t.dev ∧ s.dev.Counts c bDram 0x200 1 t.dev ∧ s.dev.ChansBut c t.dev ∧ Keeps [.dram, .ctr] s t)) ∧
    (s.dev.chanRuns c = true → (s.dev.ch c).srWait = false → (s.dev.ch c).debt = 0 → (s.dev.ch c).trr = [] →
      (s.dev.ch c).gap = none → (s.dev.ch c).wrq = [a] → (s.dev.ch c).rdq = [] → s.dev.writeAged c = true → s.dev.eligible c a true = true →
      a.kind = .write → a.isFill = false → a.bytes.length = 64 → s.dev.mem.lost = [] → s.dev.serving (placeCh (s.dev.phys a.place)) = true →
      s.dev.blkValid (placeBlk (s.dev.phys a.place)) = true → s.dev.injArmed = false → Completes (.controllerCommandSlot c upset) s (fun t =>
        (t.dev.ch c).wrq = [] ∧ (∀ i : Nat, i < 64 → t.dev.byteAt (s.dev.phys a.place + i) = a.bytes.getD i 0) ∧
        (∀ p : Nat, p < s.dev.phys a.place ∨ s.dev.phys a.place + 64 ≤ p → t.dev.byteAt p = s.dev.byteAt p) ∧
        s.dev.Counts c bDram 0x210 1 t.dev ∧ Keeps [.mem, .dram, .graft, .ctr] s t)) ∧
    (s.dev.clk.mode = .boot ∨ ((s.dev.ch c).st ≠ .active ∧ (s.dev.ch c).st ≠ .degraded) ∨ (s.dev.ch c).failed = true ∨ (s.dev.ch c).sr ≠ none →
      (s.dev.ch c).gap ≠ some .idle → (s.dev.ch c).srWait = false → exec (.controllerCommandSlot c upset) s = .next s) ∧
    Completes (.writeAgeExpiry c) s (fun t =>
      t.dev.ch c = { s.dev.ch c with wdrain := s.dev.drainNow c } ∧ (s.dev.writeAged c = true → (t.dev.ch c).wdrain = true) ∧
      s.dev.ChansBut c t.dev ∧ Keeps [.dram] s t)

/-- R228, R229, R232 to R236: refreshes fall due, up to 8 of them; a catch-up ends; a layer that has stayed cool takes a lower band;
a layer acknowledges self-refresh entry, with every row closed, and exit, or does not within 10 µs (FS121); the pointer of a layer in
self-refresh advances by a pulse or by its own timer; idle and forced gaps come and go, and a training sets the links that a gap allows. Other channels stay as
they are. -/
def Obligations.ChannelUpkeep : Prop :=
  ∀ (s : State) (c : Nat) (res : List LinkRes), c < 64 →
    (s.dev.clk.mode ≠ .boot → (s.dev.ch c).st = .active ∨ (s.dev.ch c).st = .degraded → (s.dev.ch c).refAt ≤ s.dev.dt * 524288 → (s.dev.ch c).debt < 8 →
      Completes (.refreshDue c) s (fun t =>
        t.dev.ch c = { s.dev.ch c with debt := (s.dev.ch c).debt + 1, refAt := (s.dev.ch c).refAt + (s.dev.ch c).interval } ∧
        s.dev.ChansBut c t.dev ∧ Keeps [.dram] s t)) ∧
    (8 ≤ (s.dev.ch c).debt → exec (.refreshDue c) s = .next s) ∧
    (due (s.dev.ch c).catchup s.dev.dt = true →
      ((s.dev.ch c).nextBand = none → Completes (.catchupEnd c) s (fun t =>
        t.dev.ch c = { s.dev.ch c with catchup := none } ∧ s.dev.ChansBut c t.dev ∧ Keeps [.dram] s t)) ∧
      (∀ b : Nat, (s.dev.ch c).nextBand = some b → Completes (.catchupEnd c) s (fun t =>
        t.dev.ch c = { s.dev.ch c with catchup := none, nextBand := none, band := b } ∧ s.dev.Marks c bDram 0x14 2 t.dev ∧
        s.dev.RegsBut [regKey c bDram 0x14] t.dev ∧ s.dev.ChansBut c t.dev ∧ Keeps [.dram, .csr] s t))) ∧
    (∀ layer : Nat, layer < 21 → Completes (.bandDown layer) s (fun t =>
      (∀ k e : Nat, k < 64 → 1 + k / 4 + k / 16 = layer → (s.dev.ch k).b0Since = some e →
        e + s.dev.cfgFld k bDram 0x38 8 8 * 1000000 ≤ s.dev.dt → (s.dev.ch k).catchup = none → (s.dev.ch k).nextBand = none →
        (s.dev.ch k).band ≠ 0 → t.dev.ch k = { s.dev.ch k with band := 0 } ∧ s.dev.Marks k bDram 0x14 2 t.dev) ∧
      (∀ k e : Nat, k < 64 → 1 + k / 4 + k / 16 = layer → (s.dev.ch k).b0Since = some e →
        e + s.dev.cfgFld k bDram 0x38 8 8 * 1000000 ≤ s.dev.dt → (s.dev.ch k).catchup ≠ none → (s.dev.ch k).nextBand.getD (s.dev.ch k).band ≠ 0 →
        t.dev.ch k = { s.dev.ch k with nextBand := some 0 }) ∧
      (∀ k : Nat, k < 64 → 1 + k / 4 + k / 16 ≠ layer → t.dev.ch k = s.dev.ch k) ∧ Keeps [.dram, .csr] s t)) ∧
    (s.dev.clk.move = none → s.dev.fault.brstWait = [] →
      ((s.dev.ch c).sr = some .sre → (s.dev.ch c).srxNext = false → Completes (.srAck c) s (fun t =>
        (t.dev.ch c).st = .selfref ∧ (t.dev.ch c).sr = none ∧ (t.dev.ch c).srIn = (if (s.dev.ch c).st = .selfref then (s.dev.ch c).srIn else s.dev.dt) ∧
        (∀ b : Nat, b < 64 → (t.dev.bank c b).row = none) ∧
        s.dev.Marks c bDram 0x14 4 t.dev ∧ s.dev.ChansBut c t.dev ∧ s.dev.RegsBut [regKey c bDram 0x14] t.dev ∧ Keeps [.dram, .csr] s t)) ∧
      ((s.dev.ch c).sr = some .srx → Completes (.srAck c) s (fun t =>
        (t.dev.ch c).st = (if (s.dev.ch c).wasDegraded then .degraded else .active) ∧ (t.dev.ch c).sr = none ∧
        (t.dev.ch c).catchup = none ∧ (t.dev.ch c).band = (s.dev.ch c).nextBand.getD (s.dev.ch c).band ∧
        (t.dev.ch c).refAt = s.dev.dt * 524288 + (t.dev.ch c).interval ∧
        s.dev.Marks c bDram 0x14 (if (s.dev.ch c).nextBand = none then 8 else 10) t.dev ∧ s.dev.ChansBut c t.dev ∧ s.dev.RegsBut [regKey c bDram 0x14] t.dev ∧ Keeps [.dram, .csr] s t)) ∧
      ((s.dev.ch c).sr = none → exec (.srAck c) s = .next s)) ∧
    ((s.dev.ch c).srAt + 10000 ≤ s.dev.dt →
      ((s.dev.ch c).sr = some .sre → Completes (.srAckTimeout c) s (fun t =>
        t.dev.ch c = { s.dev.ch c with srAt := s.dev.dt } ∧ s.dev.Raised 121 { kind := 5, inst := c, a := 0 } t.dev ∧
        s.dev.ChansBut c t.dev ∧ Keeps (.dram :: faultParts) s t ∧ s.dev.Noted [] [] [121] t.dev)) ∧
      ((s.dev.ch c).sr = some .srx → (s.dev.ch c).failed = false → Completes (.srAckTimeout c) s (fun t =>
        (t.dev.ch c).st = .degraded ∧ (t.dev.ch c).failed = true ∧ (t.dev.ch c).sr = none ∧ t.dev.freeIx = s.dev.freeIx + 1 ∧
        Keeps (([.mem, .dram, .graft, .free] : List Part) ++ faultParts) s t))) ∧
    ((s.dev.ch c).st = .selfref → s.dev.clk.dtSrc = .ring → (s.dev.ch c).pulseAt ≤ s.dev.dt * 524288 → Completes (.pulse c) s (fun t =>
      t.dev.ch c = { s.dev.ch c with
        ptr := ((s.dev.ch c).ptr + 1) % 524288, paced := true, lastPulse := some s.dev.dt
        layerAt := max (s.dev.ch c).layerAt ((s.dev.dt + 1000) * 524288)
        pulseAt := s.dev.dt * 524288 + (s.dev.ch c).interval * 97 / 100 } ∧
      s.dev.ChansBut c t.dev ∧ Keeps [.dram] s t)) ∧
    ((s.dev.ch c).st ≠ .selfref → exec (.pulse c) s = .next s ∧ exec (.layerOwnTimerRefresh c) s = .next s) ∧
    ((s.dev.ch c).st = .selfref → (∀ p : Nat, (s.dev.ch c).lastPulse = some p → p + 1000 ≤ s.dev.dt) →
      (s.dev.ch c).layerAt ≤ s.dev.dt * 524288 → Completes (.layerOwnTimerRefresh c) s (fun t =>
      t.dev.ch c = { s.dev.ch c with
        ptr := ((s.dev.ch c).ptr + 1) % 524288, paced := false, layerAt := (s.dev.ch c).layerAt + 8000000 } ∧
      s.dev.ChansBut c t.dev ∧ Keeps [.dram] s t)) ∧
    (∀ e : Nat, (s.dev.ch c).st = .active ∨ (s.dev.ch c).st = .degraded → (s.dev.ch c).rdq = [] → (s.dev.ch c).wrq = [] → s.dev.inGap c = false →
      (s.dev.ch c).idleAt = some e → e + s.dev.cfgFld c bDram 0x40 0 10 ≤ s.dev.dt → Completes (.idleGap c) s (fun t =>
        t.dev.ch c = { s.dev.ch c with gap := some .idle, lastGap := s.dev.dt } ∧ s.dev.ChansBut c t.dev ∧ Keeps [.dram] s t)) ∧
    ((s.dev.ch c).st = .active ∨ (s.dev.ch c).st = .degraded → (s.dev.dom (162 + c)).pending = true → s.dev.inGap c = false →
      (s.dev.ch c).lastGap + 1000 * s.dev.cfgFld c bDram 0x44 0 16 ≤ s.dev.dt → Completes (.forcedGap c) s (fun t =>
        t.dev.ch c = { s.dev.ch c with gap := some .forced, gapEnd := s.dev.dt + s.dev.cfgFld c bDram 0x40 16 10, lastGap := s.dev.dt } ∧
        s.dev.Marks c bDram 0x14 0x40 t.dev ∧ s.dev.Counts c bDram 0x238 1 t.dev ∧ s.dev.ChansBut c t.dev ∧ Keeps [.dram, .csr, .ctr] s t)) ∧
    ((s.dev.ch c).gap = some .forced → (s.dev.ch c).gapEnd ≤ s.dev.dt → Completes (.forcedGapEnd c) s (fun t =>
      t.dev.ch c = { s.dev.ch c with gap := none } ∧ s.dev.ChansBut c t.dev ∧ Keeps [.dram] s t)) ∧
    (s.dev.inGap c = true → ((s.dev.dom (162 + c)).pending = true ∨ (s.dev.dom (162 + c)).inRun = true ∨
        (s.dev.ch c).trainAt + 1000000 * s.dev.cfgFld c bDram 0x48 0 16 ≤ s.dev.dt) → res.length = 58 →
      (∀ r : LinkRes, r ∈ res → r.dead = false ∧ s.dev.cfgFld c bDram 0x48 16 6 ≤ r.eye) → Completes (.linkTraining c res) s (fun t =>
        (t.dev.ch c).trainAt = s.dev.dt ∧ (t.dev.ch c).rdq = (s.dev.ch c).rdq ∧ (t.dev.ch c).wrq = (s.dev.ch c).wrq ∧
        s.dev.Counts c bDram 0x200 1 t.dev ∧ t.dev.freeIx = s.dev.freeIx + 1 ∧
        (∀ l : Nat, l < 58 → ∃ r : LinkRes, res[l]? = some r ∧ t.dev.vlink c l = { eye := r.eye % 128, deskew := r.deskew % 256, vref := r.vref % 256, low := false }) ∧
        s.dev.ChansBut c t.dev ∧ Keeps [.dram, .graft, .ctr, .free] s t)) ∧
    (s.dev.inGap c = false → exec (.linkTraining c res) s = .next s)

/-! ### Data integrity -/

/-- R243, R245, R248, R249, R252, R434: the windows of the per-pin, per-row and corrected counts end and start anew, with the limits then in force; a grooming
pass that has not ended in its period is behind (FS137), one that has ended starts anew, and a pass that pauses has no period to end; an SRAM grooming read covers the next bytes of its pass, and
without an error in them changes nothing else. -/
def Obligations.DataIntegrity : Prop :=
  ∀ (s : State) (c : Nat), c < 64 →
    (winEnd s.dev.ecc.markEnd c ≤ s.dev.dt → Completes (.markWindowEnd c) s (fun t =>
      (∀ p : Nat, p < 64 → tabGet (fun _ => ([] : List Nat)) t.dev.ecc.markWin (64 * c + p) = []) ∧
      winEnd t.dev.ecc.markEnd c = nextWin (winEnd s.dev.ecc.markEnd c) (s.dev.cfgFld 0 bEcc 0x14 16 16) s.dev.dt ∧ Keeps [.ecc] s t)) ∧
    (s.dev.dt < winEnd s.dev.ecc.markEnd c → exec (.markWindowEnd c) s = .next s) ∧
    (winEnd s.dev.graft.rowEnd c ≤ s.dev.dt → Completes (.rowWindowEnd c) s (fun t =>
      tabGet (fun _ => ([] : List RowCe)) t.dev.graft.rowCe c = [] ∧ tabGet (fun _ => 3) t.dev.graft.rowLim c = s.dev.cfgFld 0 bGraft 0x300 0 8 ∧
      winEnd t.dev.graft.rowEnd c = nextWin (winEnd s.dev.graft.rowEnd c) (s.dev.cfgFld 0 bGraft 0x300 16 16) s.dev.dt ∧ Keeps [.graft] s t)) ∧
    (s.dev.dt < winEnd s.dev.graft.rowEnd c → exec (.rowWindowEnd c) s = .next s) ∧
    (∀ k : Nat, k ≤ 64 → winEnd s.dev.ecc.ceEnd k ≤ s.dev.dt → Completes (.ceWindowEnd k) s (fun t =>
      tabGet (fun _ => 0) t.dev.ecc.ceWin k = 0 ∧ tabGet (fun _ => 256) t.dev.ecc.ceLim k = s.dev.cfgFld 0 bEcc 0x18 0 16 ∧
      winEnd t.dev.ecc.ceEnd k = nextWin (winEnd s.dev.ecc.ceEnd k) (s.dev.cfgFld 0 bEcc 0x18 16 16) s.dev.dt ∧
      (∀ j : Nat, j ≠ k → tabGet (fun _ => 0) t.dev.ecc.ceWin j = tabGet (fun _ => 0) s.dev.ecc.ceWin j) ∧ Keeps [.ecc] s t)) ∧
    (∀ k : Nat, k ≤ 64 → s.dev.dt < winEnd s.dev.ecc.ceEnd k → exec (.ceWindowEnd k) s = .next s) ∧
    (s.dev.groomsDram = true → (s.dev.ch c).st = .active ∨ (s.dev.ch c).st = .degraded → (s.dev.ch c).failed = false →
      (s.dev.ch c).groomStart + 60000000000 * (s.dev.ch c).groomMin ≤ s.dev.dt → (s.dev.ch c).groomStart ≤ s.dev.dt →
      (s.dev.groomNext c = none → Completes (.groomPeriodEnd c) s (fun t =>
        t.dev.ch c = { s.dev.ch c with groomOff := 0, groomStart := s.dev.dt, groomMin := s.dev.cfgFld 0 bEcc 0x10 0 16 } ∧ s.dev.ChansBut c t.dev ∧
        t.dev.ecc.dramBehind = s.dev.ecc.dramBehind.filter (· != c) ∧ Keeps [.dram, .ecc] s t)) ∧
      (∀ o : Nat, s.dev.groomNext c = some o → s.dev.ecc.dramBehind.contains c = false → Completes (.groomPeriodEnd c) s (fun t =>
        t.dev.ecc.dramBehind = s.dev.ecc.dramBehind ++ [c] ∧ s.dev.Raised 137 { kind := 5, inst := c } t.dev ∧
        s.dev.Marks 0 bEcc 0x40 0x10 t.dev ∧ Keeps (.ecc :: faultParts) s t ∧ s.dev.Noted [regKey 0 bEcc 0x40] [] [137] t.dev))) ∧
    ((s.dev.ch c).st = .selfref → exec (.groomPeriodEnd c) s = .next s) ∧
    (s.dev.groomsSram = true → s.dev.ecc.sramStart + 1000000000 * s.dev.ecc.sramSec ≤ s.dev.dt →
      (s.dev.ecc.sramDone = true → Completes (.groomPeriodEnd 64) s (fun t =>
        t.dev.ecc = { s.dev.ecc with
          sramPtr := 0, sramStart := s.dev.dt, sramDone := false, sramBehind := false, sramSec := s.dev.cfgFld 0 bEcc 0x10 16 16 } ∧
        Keeps [.ecc] s t)) ∧
      (s.dev.ecc.sramDone = false → s.dev.ecc.sramBehind = false → Completes (.groomPeriodEnd 64) s (fun t =>
        t.dev.ecc = { s.dev.ecc with sramBehind := true } ∧ s.dev.Raised 137 {} t.dev ∧ s.dev.Marks 0 bEcc 0x40 0x10 t.dev ∧
        Keeps (.ecc :: faultParts) s t ∧ s.dev.Noted [regKey 0 bEcc 0x40] [] [137] t.dev))) ∧
    (s.dev.ecc.sramDone = true ∨ s.dev.groomsSram = false → ∀ us : List SramUpset, exec (.sramGroomRead us) s = .next s) ∧
    (s.dev.mem.sErr = [] → s.dev.ecc.sramDone = false → s.dev.groomsSram = true →
      (s.dev.ecc.sramPtr < 577 → Completes (.sramGroomRead []) s (fun t =>
        t.dev.ecc = { s.dev.ecc with sramPtr := s.dev.ecc.sramPtr + 1 } ∧ Keeps [.ecc] s t)) ∧
      (577 ≤ s.dev.ecc.sramPtr → (∀ f : Frag, f ∈ s.dev.txn.frags → f.errs = []) → Completes (.sramGroomRead []) s (fun t =>
        t.dev.ecc = { s.dev.ecc with sramDone := true, sramBehind := false } ∧ Keeps [.ecc] s t))) ∧
    (∀ a : Nat, s.dev.ecc.sramDone = false → s.dev.groomsSram = true → s.dev.ecc.sramPtr = 0 → s.dev.mem.sErr = [(a, 2)] → 0x1000000000 ≤ a → a < 0x1000010000 → s.dev.wordValid (a / 8) = true →
      s.dev.dt < winEnd s.dev.ecc.ceEnd 64 → tabGet (fun _ => 0) s.dev.ecc.ceWin 64 + 1 ≠ tabGet (fun _ => 256) s.dev.ecc.ceLim 64 →
      Completes (.sramGroomRead []) s (fun t =>
        t.dev.mem.sErr = [] ∧ s.dev.Counts 0 bEcc 0x310 1 t.dev ∧ t.dev.ecc.sramPtr = 1 ∧ t.dev.sramByte a = s.dev.sramByte a ∧
        Keeps [.mem, .ecc, .ctr] s t))

/-! ### The transfer engine -/

/-- R277, R292: a claim takes a FREE channel for its partner, a start runs an IDLE channel of the partner's from a descriptor in
stack SRAM, an append outside CHAIN_WAIT only fetches, a stop drains a running channel and answers at its end, a release gives an IDLE
channel back. A channel of another is BUSY to a claim and not the partner's to the rest. Other channels stay as they are. -/
def Obligations.TransferRequests : Prop :=
  ∀ (s : State) (h : ReqHdr) (k x : Nat), s.dev.FromPartner h k → h.addr = x → x < 31 → h.fence = false →
    (∀ o : Opc, s.dev.TagFree o h k → s.dev.refusal (s.dev.requestOf o h k) h.plen = none → s.dev.xferBlocked (s.dev.requestOf o h k) = false →
      (o = .xferClaim → (s.dev.xc x).owner ≠ some k → (s.dev.xc x).st = .free → Completes (.xferClaim h) s (fun t =>
        t.dev.xc x = { s.dev.xc x with st := .idle, owner := some k } ∧ (∀ y : Nat, y ≠ x → t.dev.xc y = s.dev.xc y) ∧
        s.dev.Responds (s.dev.requestOf o h k) .ok [] 0 t.dev ∧ t.dev.txn.reqs = s.dev.txn.reqs ∧ Keeps [.txn, .telem, .xfer] s t)) ∧
      (o = .xferClaim → (s.dev.xc x).owner ≠ some k → (s.dev.xc x).st ≠ .free → Completes (.xferClaim h) s (fun t =>
        s.dev.Responds (s.dev.requestOf o h k) .busy [] 0 t.dev ∧ t.dev.txn.reqs = s.dev.txn.reqs ∧ Keeps [.txn, .telem] s t)) ∧
      (o = .xferStart → (s.dev.xc x).owner = some k → (s.dev.xc x).st = .idle → s.dev.xAddrOk x (leAt h.data 0 8) = true →
        Completes (.xferStart h) s (fun t =>
          t.dev.xc x = { s.dev.xc x with st := .run, ph := .fetch, cur := leAt h.data 0 8 } ∧
          (∀ y : Nat, y ≠ x → t.dev.xc y = s.dev.xc y) ∧ s.dev.Responds (s.dev.requestOf o h k) .ok [] 0 t.dev ∧
          Keeps [.txn, .telem, .xfer] s t)) ∧
      (o = .xferAppend → (s.dev.xc x).owner = some k → (s.dev.xc x).st ≠ .chainWait → Completes (.xferAppend h) s (fun t =>
        s.dev.Counts x bXfer 0x58 1 t.dev ∧ s.dev.Responds (s.dev.requestOf o h k) .ok [] 0 t.dev ∧ Keeps [.txn, .telem, .ctr] s t)) ∧
      (o = .xferStop → (s.dev.xc x).owner = some k → (s.dev.xc x).st = .run → Completes (.xferStop h) s (fun t =>
        t.dev.xc x = { s.dev.xc x with
          st := .draining, code := 1, waitAt := none, ph := (if (s.dev.xc x).ph = .moving then .moving else .stop), heldReq := (s.dev.xc x).heldReq ++ [s.dev.txn.nextId] } ∧
        (∀ y : Nat, y ≠ x → t.dev.xc y = s.dev.xc y) ∧ t.dev.txn.reqs = s.dev.txn.reqs ++ [{ s.dev.requestOf o h k with st := .issued }] ∧
        t.dev.txn.frags = s.dev.txn.frags ∧ Keeps [.txn, .telem, .xfer] s t)) ∧
      (o = .xferRelease → (s.dev.xc x).owner = some k → (s.dev.xc x).st = .idle → Completes (.xferRelease h) s (fun t =>
        t.dev.xc x = { s.dev.xc x with st := .free, owner := none } ∧ (∀ y : Nat, y ≠ x → t.dev.xc y = s.dev.xc y) ∧
        s.dev.Responds (s.dev.requestOf o h k) .ok [] 0 t.dev ∧ Keeps [.txn, .telem, .xfer] s t)) ∧
      (o = .xferStart ∨ o = .xferAppend ∨ o = .xferStop ∨ o = .xferRelease → (s.dev.xc x).owner ≠ some k →
        Completes (requestRow o h) s (fun t => s.dev.Responds (s.dev.requestOf o h k) .notOwner [] 0 t.dev ∧ Keeps [.txn, .telem] s t)))

/-- R278 to R281, R287 to R290, R292, R293: a descriptor is read from stack SRAM and moves data where it passes its checks; one step of a
FILL stores the next 64 bytes of its pattern, in stack SRAM at once and in DRAM by a write that waits for its channel; the link field leads to the next descriptor, or to CHAIN_WAIT, which is read again once;
a completed descriptor is counted in chain order; a drained channel is IDLE again, or FREE after a release. -/
def Obligations.TransferProgress : Prop :=
  ∀ (s : State) (x k : Nat), x < 31 → s.dev.mem.sErr = [] → (s.dev.xc x).owner = some k →
    (∀ bs : List Byte, bs = s.dev.sramBytes (s.dev.xc x).cur 64 → (s.dev.xc x).st = .run → s.dev.xDescHeld x = false →
      ((s.dev.xc x).ph = .fetch → s.dev.xAddrOk x (s.dev.xc x).cur = true → s.dev.xCheck bs = none → Completes (.descFetch x) s (fun t =>
        (∃ l : List XcDone, t.dev.xc x = { s.dev.xc x with
          ph := .moving, desc := bs, pos := 0, done := 0, sub := 0, idx := none, hold := [], wout := 0, seq := (s.dev.xc x).seq + 1, finished := l } ∧
          l.map (·.addr) = (s.dev.xc x).finished.map (·.addr)) ∧ s.dev.Counts x bXfer 0x48 64 t.dev ∧
        (∀ y : Nat, y ≠ x → t.dev.xc y = s.dev.xc y) ∧ Keeps [.xfer, .ctr] s t)) ∧
      (∀ code : Nat, (s.dev.xc x).ph = .fetch → s.dev.xAddrOk x (s.dev.xc x).cur = true → s.dev.xCheck bs = some code → Completes (.descFetch x) s (fun t =>
        (t.dev.xc x).st = .draining ∧ (t.dev.xc x).code = code ∧ (t.dev.xc x).ph = .stop ∧ (t.dev.xc x).cur = (s.dev.xc x).cur ∧
        s.dev.Raised 150 { kind := 7, inst := x, wide := (s.dev.xc x).cur, a := k, b := code } t.dev ∧
        s.dev.Marks x bXfer 0x24 0x10 t.dev ∧ (∀ y : Nat, y ≠ x → t.dev.xc y = s.dev.xc y) ∧ Keeps (.xfer :: faultParts) s t)) ∧
      ((s.dev.xc x).ph = .link → xNextV bs = true → Completes (.linkReadReturn x) s (fun t =>
        t.dev.xc x = { s.dev.xc x with ph := .fetch, cur := xNext bs, waitAt := none } ∧
        (∀ y : Nat, y ≠ x → t.dev.xc y = s.dev.xc y) ∧ Keeps [.xfer, .ctr, .telem] s t)) ∧
      ((s.dev.xc x).ph = .link → xNextV bs = false → Completes (.linkReadReturn x) s (fun t =>
        t.dev.xc x = { s.dev.xc x with st := .chainWait, ph := .link, waitAt := some (s.dev.dt + 1000) } ∧
        s.dev.Marks x bXfer 0x24 2 t.dev ∧ (∀ y : Nat, y ≠ x → t.dev.xc y = s.dev.xc y) ∧ Keeps [.xfer, .csr, .ctr, .telem] s t))) ∧
    (∀ bs : List Byte, bs = s.dev.sramBytes (s.dev.xc x).cur 64 → (s.dev.xc x).st = .chainWait → s.dev.xDescHeld x = false →
      due (s.dev.xc x).waitAt s.dev.dt = true →
      (xNextV bs = true → Completes (.chainWaitReread x) s (fun t =>
        t.dev.xc x = { s.dev.xc x with st := .run, ph := .fetch, cur := xNext bs, waitAt := none } ∧
        s.dev.Counts x bXfer 0x60 1 t.dev ∧ s.dev.Marks x bXfer 0x24 4 t.dev ∧ Keeps [.xfer, .csr, .ctr, .telem] s t)) ∧
      (xNextV bs = false → Completes (.chainWaitReread x) s (fun t =>
        t.dev.xc x = { s.dev.xc x with waitAt := none } ∧ Keeps [.xfer, .ctr, .telem] s t))) ∧
    (∀ (b : List Byte) (u v : Nat), (s.dev.xc x).desc = b → (s.dev.xc x).st = .run → (s.dev.xc x).ph = .moving → xOp b = 1 → xWd b = 64 → xDst b % 64 = 0 →
      (s.dev.xc x).pos + 1 < xN b → u = xDst b + 64 * (s.dev.xc x).pos → s.dev.unitAt u = some v →
      (s.dev.xc x).pend = 0 → (s.dev.xc x).inflight < s.dev.cfgFld 0 bXfer 0x100 0 7 → s.dev.txn.comps = [] →
      (inSram (64 * v) = true → s.dev.injArmed = false → s.dev.earlier s.dev.txn.nextOrd v = false → Completes (.resultComplete (68 + x)) s (fun t =>
        s.dev.SramStored (64 * v) ((List.range 64).map (fun j => b.getD (32 + j % 8) 0)) t.dev ∧
        t.dev.xc x = { s.dev.xc x with pos := (s.dev.xc x).pos + 1, done := (s.dev.xc x).done + 1, idx := none, sub := 0, hold := [] } ∧
        s.dev.Counts x bXfer 0x50 64 t.dev ∧ Keeps [.mem, .xfer, .ctr] s t)) ∧
      (inSram (64 * v) = false → Completes (.resultComplete (68 + x)) s (fun t =>
        (∃ a : Access, t.dev.txn.acc = s.dev.txn.acc ++ [a] ∧ a.unit = v ∧ a.kind = .write ∧ a.stamp = s.dev.dt ∧ a.ord = s.dev.txn.nextOrd ∧
          a.bytes = (List.range 64).map (fun j => b.getD (32 + j % 8) 0) ∧ a.for_ = .xfer x (s.dev.xc x).seq 1 ∧ a.tc = xTc b) ∧
        t.dev.xc x = { s.dev.xc x with pos := (s.dev.xc x).pos + 1, wout := (s.dev.xc x).wout + 1, idx := none, sub := 0, hold := [] } ∧
        s.dev.Counts x bXfer 0x50 64 t.dev ∧ Keeps [.txn, .xfer, .ctr] s t))) ∧
    (∀ (f : XcDone) (l : List XcDone), (s.dev.xc x).finished = f :: l → f.evt = false →
      (if f.seq = (s.dev.xc x).seq then (s.dev.xc x).wout + (s.dev.xc x).pend else f.out) = 0 → Completes (.descComplete x) s (fun t =>
      t.dev.xc x = { s.dev.xc x with finished := l } ∧ t.dev.txn.comps = s.dev.txn.comps ++ [{ src := 68 + x, ref := .desc x }] ∧
      s.dev.Counts x bXfer 0x40 1 t.dev ∧ s.dev.Marks x bXfer 0x24 1 t.dev ∧ Keeps [.xfer, .txn, .csr, .ctr] s t)) ∧
    (∀ (f : XcDone) (l : List XcDone), (s.dev.xc x).finished = f :: l →
      (if f.seq = (s.dev.xc x).seq then (s.dev.xc x).wout + (s.dev.xc x).pend else f.out) ≠ 0 → exec (.descComplete x) s = .next s) ∧
    ((s.dev.xc x).finished = [] → exec (.descComplete x) s = .next s) ∧
    ((s.dev.xc x).st = .draining → (s.dev.xc x).ph = .stop → (s.dev.xc x).finished = [] → (s.dev.xc x).inflight = 0 →
      (s.dev.xc x).heldReq = [] → ((s.dev.xc x).silent = false → Completes (.xferDrainComplete x) s (fun t =>
        t.dev.xc x = { s.dev.xc x with st := if (s.dev.xc x).release then .free else .idle
                                       owner := if (s.dev.xc x).release then none else some k, release := false, ph := .fetch, hold := [], idx := none } ∧
        s.dev.Marks x bXfer 0x24 8 t.dev ∧ (∀ y : Nat, y ≠ x → t.dev.xc y = s.dev.xc y) ∧ Keeps (.xfer :: faultParts) s t)) ∧
      ((s.dev.xc x).silent = true → Completes (.xferDrainComplete x) s (fun t =>
        (t.dev.xc x).st = .free ∧ (t.dev.xc x).owner = none ∧ (∀ y : Nat, y ≠ x → t.dev.xc y = s.dev.xc y) ∧ Keeps [.xfer] s t))) ∧
    ((s.dev.xc x).st ≠ .draining → exec (.xferDrainComplete x) s = .next s)

/-! ### Evacuation, repair and wear -/

/-- R160, R296, R437, R441, R446, R447: evacuation runs on one channel at a time, XC31 reads its descriptors, and its blocks are switched one by one
to free EVAC blocks; a channel with nothing left on it is retired, once the reserve can hold its slices, else FS182 says where it stops; the repair record and the wear record are written when due, and the wear accounts
take each second's bursts and activations. -/
def Obligations.RepairAndWear : Prop :=
  ∀ (s : State) (c : Nat), c < 64 →
    ((s.dev.evacOf c).want = true → s.dev.evacuating = none → s.dev.retired c = false → s.dev.chQuar c = true → s.dev.evacCan = true →
      (∀ d : Nat, (s.dev.evacOf c).trig = some d → s.dev.exclAhead d = false) → Completes (.evacuationStart c) s (fun t =>
        t.dev.evacOf c = { s.dev.evacOf c with run := true, trig := none, total := max (s.dev.evacOf c).total ((s.dev.evacOf c).done + (s.dev.evacWork c).length) } ∧
        (s.dev.evacWork c ≠ [] → s.dev.evacTarget s.dev.xfer.evacPtr ≠ none → (t.dev.xc 31).st = .run ∧ (t.dev.xc 31).ph = .fetch) ∧ (∀ k : Nat, k ≠ c → t.dev.evacOf k = s.dev.evacOf k) ∧ (∀ y : Nat, y ≠ 31 → t.dev.xc y = s.dev.xc y) ∧
        Keeps [.graft, .xfer] s t)) ∧
    ((s.dev.evacOf c).want = false ∨ s.dev.evacuating ≠ none ∨ s.dev.evacCan = false → exec (.evacuationStart c) s = .next s) ∧
    (s.dev.evacuating = some c → s.dev.clk.mode = .service →
      (s.dev.evacWork c = [] → Completes .blockSwitch s (fun t =>
        t.dev.evacOf c = { s.dev.evacOf c with run := false, stuck := false } ∧ (t.dev.xc 31).st = .idle ∧ Keeps [.graft, .xfer] s t)) ∧
      (∀ (b e : Nat) (l : List (Nat × Nat)), s.dev.evacWork c = (b, b) :: l → s.dev.blockQuiet b b = true → s.dev.copySlots (4096 * b) (4096 * e) = true →
        (s.dev.xc 31).st = .run → (s.dev.xc 31).ph = .moving → xSrc (s.dev.xc 31).desc = 4096 * b → xDst (s.dev.xc 31).desc = 4096 * e →
        (s.dev.evacUsedOn (e / 262144)).contains e = false → s.dev.chQuar (e / 262144) = false → s.dev.retired (e / 262144) = false →
        tabGet (fun _ => 0) s.dev.mem.evac e = 0 → tabGet (fun _ => 0) s.dev.mem.evac b = 0 → s.dev.serving (placeCh (b * 4096)) = true → s.dev.mem.dErr = [] → s.dev.mem.badLink = [] →
        s.dev.mem.poison = [] → s.dev.mem.lost = [] → s.dev.injArmed = false → Completes .blockSwitch s (fun t =>
          tabGet (fun _ => 0) t.dev.mem.evac b = e + 1 ∧ t.dev.blkValid b = false ∧ (t.dev.evacOf c).done = (s.dev.evacOf c).done + 1 ∧
          s.dev.Counts 31 bXfer 0x50 4096 t.dev ∧ s.dev.Counts 0 bGraft 0x398 1 t.dev ∧
          Keeps (([.mem, .dram, .graft, .xfer] : List Part) ++ faultParts) s t))) ∧
    (s.dev.xfer.hwDesc = [] → (s.dev.xc 31).st = .run → (s.dev.xc 31).ph = .fetch → (s.dev.xc 31).cur % 64 = 0 → (s.dev.xc 31).cur < 2 ^ 20 →
      Completes (.descFetch 31) s (fun t =>
        (t.dev.xc 31).st = .draining ∧ (t.dev.xc 31).code = 5 ∧ s.dev.Counts 31 bXfer 0x48 64 t.dev ∧ Keeps (.xfer :: faultParts) s t)) ∧
    (∀ bs : List Byte, tabGet (fun _ => []) s.dev.xfer.hwDesc (s.dev.xc 31).cur = bs → bs.length = 64 → s.dev.xCheck31 bs = none →
      (s.dev.xc 31).st = .run → (s.dev.xc 31).ph = .fetch → (s.dev.xc 31).cur % 64 = 0 → (s.dev.xc 31).cur < 2 ^ 20 → Completes (.descFetch 31) s (fun t =>
        (t.dev.xc 31).ph = .moving ∧ (t.dev.xc 31).desc = bs ∧ (∀ y : Nat, y ≠ 31 → t.dev.xc y = s.dev.xc y) ∧ Keeps [.xfer, .ctr] s t)) ∧
    (s.dev.evacuating = none → exec .blockSwitch s = .next s) ∧
    (s.dev.mayRetire c = true → s.dev.reserveHolds c = true → Completes (.channelRetirement c) s (fun t =>
      (t.dev.ch c).st = .retired ∧ (t.dev.evacOf c).want = false ∧ (t.dev.evacOf c).run = false ∧
      s.dev.Raised 183 { kind := 5, inst := c } t.dev ∧ t.dev.csrAt 0 bGraft 0x320 &&& 8 = 8 ∧ s.dev.Counts 0 bGraft 0x390 1 t.dev ∧
      t.dev.qm.cellTotal = s.dev.qm.cellTotal - (imgRegionOfType s.dev.image 3).size * 4096 ∧
      t.dev.graft.repairBy = some (s.dev.graft.repairBy.getD (s.dev.dt + 100000000)) ∧ s.dev.ChansBut c t.dev ∧
      Keeps (([.mem, .qm, .dram, .graft, .xfer] : List Part) ++ faultParts) s t)) ∧
    (s.dev.mayRetire c = true → s.dev.reserveHolds c = false →
      ((s.dev.evacOf c).stuck = true → exec (.channelRetirement c) s = .next s) ∧
      ((s.dev.evacOf c).stuck = false → Completes (.channelRetirement c) s (fun t =>
        (t.dev.evacOf c).stuck = true ∧ s.dev.Marks 0 bGraft 0x320 4 t.dev ∧
        (∀ b : Nat, (s.dev.slicesLeft c).head? = some b → s.dev.Raised 182 { kind := 5, inst := c, a := b % 262144 * 4096, b := s.dev.sliceEnd } t.dev) ∧
        Keeps (([.graft] : List Part) ++ faultParts) s t))) ∧
    (s.dev.mayRetire c = false → exec (.channelRetirement c) s = .next s) ∧
    (∀ b : Nat, s.dev.graft.repairBy = some b → s.dev.repairRec = none → Completes (.repairRecordWrite true) s (fun t =>
      t.dev.graft = { s.dev.graft with repairBy := none, repairSeq := 0, repairCopy := 0 } ∧
      leAt (t.dev.flashAt 0x10000 8) 0 4 = 0x47524631 ∧ leAt (t.dev.flashAt 0x10000 8) 4 4 = 0 ∧
      (∀ a : Nat, a < 0x10000 ∨ 0x50000 ≤ a → s.dev.repairBody.length ≤ 0x3FFF0 → t.dev.flashAt a 1 = s.dev.flashAt a 1) ∧ Keeps [.graft, .boot] s t)) ∧
    exec (.repairRecordWrite false) s = .next s ∧
    (s.dev.graft.wearAt + 1000000000 ≤ s.dev.dt → Completes .wearUpdate s (fun t =>
      t.dev.graft.wearAt = s.dev.dt ∧ t.dev.graft.bursts = [] ∧ t.dev.graft.acts = [] ∧ t.dev.freeIx = s.dev.freeIx + 8320 ∧
      Keeps (([.mem, .dram, .ecc, .graft, .free] : List Part) ++ faultParts) s t)) ∧
    (s.dev.dt < s.dev.graft.wearAt + 1000000000 → exec .wearUpdate s = .next s) ∧
    (s.dev.graft.wearHour + 3600000000000 ≤ s.dev.dt → Completes (.wearRecordWrite true) s (fun t =>
      tabGet (fun _ => none) t.dev.boot.wear s.dev.graft.wearSector = some { seq := s.dev.graft.wearSeq + 1
                                                                             stress := s.dev.graft.stress
                                                                             trunkStress := s.dev.graft.trunkStress
                                                                             subStress := s.dev.graft.subStress } ∧
      t.dev.graft = { s.dev.graft with
        wearSector := (s.dev.graft.wearSector + 1) % 16, wearSeq := s.dev.graft.wearSeq + 1, wearHour := s.dev.dt } ∧
      Keeps [.graft, .boot] s t)) ∧
    exec (.wearRecordWrite false) s = .next s

/-! ### Mailboxes -/

/-- R302, R305, R307, R311, R318, R475: a command that arrives on VC3, or through the doorbell of a slot window, is POSTED with its
stamp in a FREE pair; a bad header is answered BAD_HEADER and a device whose firmware is not ready answers NOT_READY; a pair that is
not FREE is not disturbed (a doorbell on it sets DB_BUSY, a packet's answer is held). RSP_ACK frees DONE pairs, EVQ_POP takes the
first event, and a partner, who has no slot window, is answered DENIED. An image of a wrong length is refused with FS090. -/
def Obligations.Mailboxes : Prop :=
  ∀ (s : State) (p : Path) (v : Word) (o i n k plen : Nat) (img b : List Byte), i < 8 →
    (s.dev.FullPath p → o = pathIx p → b = padTo 256 (s.dev.pair o i).cmd →
      (v = word (2 ^ i) → (s.dev.pair o i).st = .free →
        (cmdHeaderOk b = true → s.dev.notReady o = false → Completes (.cmdDbRing p v) s (fun t =>
          t.dev.pair o i = { st := .posted, cmd := b, stamp := s.dev.dt, ord := s.dev.txn.nextOrd } ∧
          t.dev.txn = { s.dev.txn with nextOrd := s.dev.txn.nextOrd + 1 } ∧ s.dev.PairsBut o i t.dev ∧ (∀ q : Nat, t.dev.mb q = s.dev.mb q) ∧
          s.dev.Accessed .ok 0 t.dev ∧ Keeps [.mbox, .txn, .mgmt] s t)) ∧
        (cmdHeaderOk b = false ∨ s.dev.notReady o = true → Completes (.cmdDbRing p v) s (fun t =>
          (t.dev.pair o i).st = .done ∧ (t.dev.pair o i).cmd = b ∧
          (t.dev.pair o i).resp = rspImage (cmdOpcode b) (cmdSeq b) (cmdSlot b) (if cmdHeaderOk b then 5 else 2) s.dev.dt [] ∧
          s.dev.PairsBut o i t.dev ∧ s.dev.Accessed .ok 0 t.dev ∧ Keeps [.mbox, .txn, .boot, .mgmt] s t))) ∧
      (v = word (2 ^ i) → (s.dev.pair o i).st ≠ .free → Completes (.cmdDbRing p v) s (fun t =>
        s.dev.Marks o bMbox 0x114 1 t.dev ∧ s.dev.RegsBut [regKey o bMbox 0x114] t.dev ∧ s.dev.Accessed .ok 0 t.dev ∧
        Keeps [.csr, .mgmt] s t)) ∧
      Completes (.rspAckWrite p v) s (fun t =>
        (∀ j : Nat, j < 8 → t.dev.pair o j = if bit v.toNat j && (s.dev.pair o j).st == .done
          then { cmd := (s.dev.pair o j).cmd, resp := (s.dev.pair o j).resp } else s.dev.pair o j) ∧
        (∀ q j : Nat, q ≠ o → j < 8 → t.dev.pair q j = s.dev.pair q j) ∧ (∀ q : Nat, t.dev.mb q = s.dev.mb q) ∧
        s.dev.Accessed .ok 0 t.dev ∧ Keeps [.mbox, .mgmt] s t) ∧
      (∀ (e : Event) (l : List Event), bit v.toNat 0 = true → (s.dev.mb o).evq = e :: l → (s.dev.mb o).lost = 0 → Completes (.evqPop p v) s (fun t =>
        t.dev.mb o = { s.dev.mb o with evq := l } ∧ (∀ q : Nat, q ≠ o → t.dev.mb q = s.dev.mb q) ∧ (∀ q j : Nat, t.dev.pair q j = s.dev.pair q j) ∧
        s.dev.Accessed .ok 0 t.dev ∧ Keeps [.mbox, .mgmt] s t)) ∧
      (∀ (e : Event) (l : List Event), bit v.toNat 0 = true → (s.dev.mb o).evq = e :: l → (s.dev.mb o).lost ≠ 0 → Completes (.evqPop p v) s (fun t =>
        t.dev.mb o = { s.dev.mb o with
          evq := l ++ [{ type := 0xFF, eseq := (s.dev.mb o).eseq, dt := s.dev.dt, body := leBytes 4 (s.dev.mb o).lost }]
          eseq := ((s.dev.mb o).eseq + 1) % 65536, lost := 0 } ∧ s.dev.Counts 0 bMbox 0x508 1 t.dev ∧ (∀ q : Nat, q ≠ o → t.dev.mb q = s.dev.mb q) ∧
        s.dev.Accessed .ok 0 t.dev ∧ Keeps [.mbox, .ctr, .mgmt] s t)) ∧
      (bit v.toNat 0 = false → Completes (.evqPop p v) s (fun t => s.dev.Accessed .ok 0 t.dev ∧ Keeps [.mgmt] s t))) ∧
    (n < 64 → ∀ c : Instr, c = .cmdDbRing (.partner n) v ∨ c = .rspAckWrite (.partner n) v ∨ c = .evqPop (.partner n) v →
      Completes c s (fun t => s.dev.Accessed .denied 0 t.dev ∧ Keeps [.mgmt] s t)) ∧
    (n < 144 → (s.dev.port n).partner = some k → k < 64 → s.dev.present k = true → b = padTo 256 (img.take plen) →
      (16 ≤ plen → plen ≤ 256 → plen = 16 + cmdPlen b → i = cmdSlot b → (s.dev.pair k i).st = .free → cmdHeaderOk b = true →
        (s.dev.ptn k).st = .attached → s.dev.notReady k = false → Completes (.mboxCmd n plen img) s (fun t =>
          t.dev.pair k i = { st := .posted, cmd := b, stamp := s.dev.dt, ord := s.dev.txn.nextOrd, port := some n } ∧
          t.dev.txn = { s.dev.txn with nextOrd := s.dev.txn.nextOrd + 1, last := some (s.dev.dt, k, 0) } ∧
          s.dev.PairsBut k i t.dev ∧ (∀ q : Nat, t.dev.mb q = s.dev.mb q) ∧ Keeps [.mbox, .telem, .txn] s t)) ∧
      (16 ≤ plen → plen ≤ 256 → plen = 16 + cmdPlen b → i = cmdSlot b → (s.dev.pair k i).st ≠ .free → (s.dev.mb k).rejects.length < 4 →
        Completes (.mboxCmd n plen img) s (fun t =>
          (t.dev.mb k).rejects = (s.dev.mb k).rejects ++ [{ slot := i, seq := cmdSeq b, opcode := cmdOpcode b, port := n }] ∧
          (∀ q j : Nat, t.dev.pair q j = s.dev.pair q j) ∧ Keeps [.mbox, .telem, .txn] s t)) ∧
      (plen < 16 ∨ 256 < plen ∨ plen ≠ 16 + cmdPlen b → Completes (.mboxCmd n plen img) s (fun t =>
        s.dev.Raised 90 { kind := 4, inst := k, a := n, b := 0x70 } t.dev ∧ s.dev.Counts 0 bTelem (0x400 + 8 * k) 1 t.dev ∧
        Keeps (([.txn] : List Part) ++ faultParts) s t ∧ s.dev.Noted [] [regKey 0 bTelem (0x400 + 8 * k)] [90] t.dev))) ∧
    (n < 144 → (s.dev.port n).partner = none → exec (.mboxCmd n plen img) s = .next s)

/-- R300, R305, R306, R309, R321 to R323: firmware starts a POSTED command that nothing holds back, and services its watchdog; a command
that fails a check at its start is answered with the status of that check; one that has expired is answered EXPIRED; one that has run
longer than its limit raises FS164 once and runs on. A watchdog that runs out resets Heartwood: every RUNNING command is answered
FW_RESTART, and FS161 is raised. A lockstep mismatch stops both cores: FS160. -/
def Obligations.CommandStart : Prop :=
  ∀ (s : State) (o i : Nat), slotOk o i = true →
    ((s.dev.pair o i).st = .posted → s.dev.cmdExpired o i = false → s.dev.canStart o = true → s.dev.cmdReady o i = true →
      s.dev.earlierCmd o i = false → s.dev.running.length < 16 →
      (s.dev.startRefusal o i = none → Completes (.commandStart o i) s (fun t =>
        t.dev.pair o i = { s.dev.pair o i with st := .running, start := s.dev.dt, ovr := false } ∧ s.dev.PairsBut o i t.dev ∧
        (s.dev.mbox.fwState = 1 ∨ s.dev.mbox.fwState = 3 → t.dev.mbox.fwState = 1 ∧
          t.dev.mbox.wdog = some (s.dev.dt + 1000000 * s.dev.cfgFld 0 bMbox 0x10 0 10)) ∧
        (∀ q : Nat, t.dev.mb q = s.dev.mb q) ∧ Keeps [.mbox] s t)) ∧
      (∀ st : Nat, s.dev.startRefusal o i = some st → (s.dev.pair o i).drop = false → s.dev.clk.move = none → s.dev.clk.mode ≠ .retain →
        Completes (.commandStart o i) s (fun t =>
          (t.dev.pair o i).st = .done ∧ (t.dev.pair o i).resp = rspImage (cmdOpcode (s.dev.pair o i).cmd) (cmdSeq (s.dev.pair o i).cmd)
            (cmdSlot (s.dev.pair o i).cmd) st s.dev.dt [] ∧
          s.dev.PairsBut o i t.dev ∧ s.dev.Counts 0 bMbox 0x500 1 t.dev ∧ s.dev.CtrsBut [regKey 0 bMbox 0x500] t.dev ∧
          Keeps [.mbox, .ctr, .boot] s t))) ∧
    ((s.dev.pair o i).st = .posted → s.dev.cmdExpired o i = false →
      s.dev.canStart o = false ∨ s.dev.cmdReady o i = false ∨ s.dev.earlierCmd o i = true ∨ 16 ≤ s.dev.running.length →
      exec (.commandStart o i) s = .next s) ∧
    ((s.dev.pair o i).st ≠ .posted → exec (.commandStart o i) s = .next s ∧ exec (.commandExpire o i) s = .next s) ∧
    ((s.dev.pair o i).st = .posted → s.dev.cmdExpired o i = true → (s.dev.pair o i).drop = false →
      exec (.commandStart o i) s = exec (.commandExpire o i) s ∧
      Completes (.commandExpire o i) s (fun t =>
        s.dev.Answered o i 4 [] t.dev ∧ s.dev.PairsBut o i t.dev ∧ (∀ q : Nat, t.dev.mb q = s.dev.mb q) ∧ Keeps [.mbox, .boot] s t)) ∧
    ((s.dev.pair o i).st = .running → (s.dev.pair o i).ovr = false → (s.dev.pair o i).start + s.dev.cmdLimit (s.dev.pair o i).cmd < s.dev.dt →
      Completes (.commandLimitExceeded o i) s (fun t =>
        t.dev.pair o i = { s.dev.pair o i with ovr := true } ∧ s.dev.PairsBut o i t.dev ∧
        s.dev.Raised 164 { kind := 13, inst := o, a := cmdOpcode (s.dev.pair o i).cmd } t.dev ∧ Keeps faultParts s t)) ∧
    ((s.dev.pair o i).st ≠ .running ∨ (s.dev.pair o i).ovr = true ∨
      s.dev.dt ≤ (s.dev.pair o i).start + s.dev.cmdLimit (s.dev.pair o i).cmd → exec (.commandLimitExceeded o i) s = .next s) ∧
    (s.dev.mbox.act = .none → due s.dev.mbox.wdog s.dev.dt = true → s.dev.mbox.fwState ≠ 4 → Completes .watchdogExpiry s (fun t =>
      t.dev.mbox.fwState = 3 ∧ t.dev.mbox.wdog = none ∧ s.dev.Raised 161 {} t.dev ∧
      ((s.dev.pair o i).st = .running → (s.dev.pair o i).drop = false → s.dev.Answered o i 6 [] t.dev) ∧
      ((s.dev.pair o i).st ≠ .running → t.dev.pair o i = s.dev.pair o i) ∧
      Keeps (([.clk, .cfg, .qm, .boot, .sel] : List Part) ++ faultParts) s t)) ∧
    (due s.dev.mbox.wdog s.dev.dt = false → exec .watchdogExpiry s = .next s) ∧
    Completes .lockstepMismatch s (fun t =>
      t.dev.mbox.fwState = 4 ∧ t.dev.mbox.wdog = none ∧ t.dev.fault.injLock = false ∧
      s.dev.Raised 160 { injected := s.dev.fault.injLock } t.dev ∧ Keeps faultParts s t ∧ s.dev.Noted [] [] [160] t.dev)

/-! ### Commands that report -/

/-- R305, R324, R325, R328, R331 to R333: the queries of the system, configuration, partner, port and lane groups are answered with what they
name, in the layout of their result, and change nothing else. A port that is not configured is answered NO_SUCH. -/
def Obligations.SystemQueries : Prop :=
  ∀ (s : State) (o i n : Nat), n = leAt (s.dev.par o i) 0 1 →
    (s.dev.Ready o i 0x0101 → Completes (.sysInfo o i) s (fun t => ∃ r : List Byte, Finishes o i 0 r s.dev s t ∧ r.length = 32 ∧
      leAt r 0 2 = 0x6420 ∧ leAt r 2 1 = s.dev.otp.word2 % 256 ∧ leAt r 3 1 = modeCode s.dev.clk.mode ∧
      leAt r 4 2 = (if s.dev.mbox.fwState = 0 then 0 else s.dev.mbox.ver % 65536) ∧ leAt r 6 2 = 0x0100 ∧
      leAt r 8 8 = s.dev.otp.chipid % 2 ^ 64 ∧ leAt r 16 1 = lcCode s.dev.otp.lc ∧ leAt r 17 1 = o ∧ leAt r 24 8 = s.dev.dt % 2 ^ 64)) ∧
    (s.dev.Ready o i 0x0102 → Completes (.sysStatus o i) s (fun t => ∃ r : List Byte, Finishes o i 0 r s.dev s t ∧ r.length = 20 ∧
      leAt r 0 1 = modeCode s.dev.clk.mode ∧ leAt r 1 1 = s.dev.pin.bootHold % 256 ∧
      leAt r 3 1 = ((List.range 64).filter (fun k => (s.dev.ptn k).st == .attached)).length ∧
      leAt r 5 1 = ((List.range 64).filter (fun c => (s.dev.ch c).st == .retired)).length ∧
      leAt r 6 1 = s.dev.therm.hottest % 256 ∧ leAt r 8 2 = ofSigned 16 s.dev.therm.hotT % 65536 ∧
      leAt r 16 4 = s.dev.qm.cellTotal % 2 ^ 32)) ∧
    (s.dev.Ready o i 0x0103 → n = 0 → Completes (.sysVcoreRead o i) s (fun t => ∃ r : List Byte, Finishes o i 0 r s.dev s t ∧ r.length = 16 ∧
      leAt r 0 2 = s.dev.pin.vreq % 65536 ∧ leAt r 2 2 = s.dev.pin.vforce % 65536 ∧ leAt r 8 8 = s.dev.pin.vreqDt % 2 ^ 64)) ∧
    (s.dev.Ready o i 0x0304 → Completes (.cfgRead o i) s (fun t => ∃ r : List Byte, Finishes o i 0 r s.dev s t ∧
      r.length ≤ leAt (s.dev.par o i) 8 2 ∧
      (n = 0 → s.dev.cfg.staged.present = true → ∀ j : Nat, j < r.length → r.getD j 0 = s.dev.cfg.staged.bytes.getD (leAt (s.dev.par o i) 4 4 + j) 0) ∧
      (n = 1 → ∀ j : Nat, j < r.length → r.getD j 0 = s.dev.cfg.active.bytes.getD (leAt (s.dev.par o i) 4 4 + j) 0) ∧
      (n = 1 → leAt (s.dev.par o i) 4 4 + leAt (s.dev.par o i) 8 2 ≤ s.dev.cfg.active.bytes.length → r.length = leAt (s.dev.par o i) 8 2) ∧
      (n = 2 → ∀ j : Nat, j < r.length → r.getD j 0 = s.dev.cfg.previous.bytes.getD (leAt (s.dev.par o i) 4 4 + j) 0))) ∧
    (s.dev.Ready o i 0x0305 → Completes (.cfgStatus o i) s (fun t => ∃ r : List Byte, Finishes o i 0 r s.dev s t ∧ r.length = 64 ∧
      leAt r 0 4 = (if s.dev.cfg.staged.present then s.dev.cfg.staged.gen % 2 ^ 32 else 0) ∧
      leAt r 16 4 = (if s.dev.cfg.active.present then s.dev.cfg.active.gen % 2 ^ 32 else 0) ∧
      leAt r 24 4 = (if s.dev.cfg.active.present then s.dev.cfg.active.crc % 2 ^ 32 else 0) ∧
      leAt r 32 4 = (if s.dev.cfg.previous.present then s.dev.cfg.previous.gen % 2 ^ 32 else 0) ∧
      leAt r 48 8 = (if s.dev.cfg.st = .pending then s.dev.cfg.deadline % 2 ^ 64 else 0) ∧ leAt r 56 1 = s.dev.cfg.owner % 256)) ∧
    (s.dev.Ready o i 0x0401 → Completes (.partnerList o i) s (fun t => ∃ r : List Byte, Finishes o i 0 r s.dev s t ∧ r.length = 24 ∧
      ∀ k : Nat, k < 64 → bit (leAt r 0 8) k = ((s.dev.ptn k).st == .attached) ∧ bit (leAt r 8 8) k = ((s.dev.ptn k).st == .leaving) ∧
        bit (leAt r 16 8) k = ((s.dev.ptn k).st == .reclaim))) ∧
    (s.dev.Ready o i 0x0404 → Completes (.partnerInfo o i) s (fun t => ∃ r : List Byte, Finishes o i 0 r s.dev s t ∧ r.length = 34 ∧
      leAt r 0 1 = partnerStCode (s.dev.ptn n).st ∧ leAt r 2 1 = (s.dev.portsOf n).length % 256 ∧
      leAt r 8 8 = (s.dev.ptn n).chipid % 2 ^ 64 ∧ (∀ m : Nat, m < 144 → bit (leAt r 16 18) m = ((s.dev.port m).partner == some n)))) ∧
    (s.dev.Ready o i 0x0405 →
      (s.dev.portWidth n ≠ 0 → Completes (.portInfo o i) s (fun t => ∃ r : List Byte, Finishes o i 0 r s.dev s t ∧ r.length = 10 ∧
        leAt r 0 1 = portStCode (s.dev.port n).st ∧ leAt r 1 1 = (s.dev.port n).gen % 256 ∧ leAt r 2 1 = s.dev.portWidth n % 256 ∧
        leAt r 3 1 = (s.dev.port n).partner.getD 0xFF % 256 ∧ leAt r 4 2 = (s.dev.port n).txMask % 65536 ∧
        leAt r 6 2 = (s.dev.port n).rxMask % 65536 ∧ leAt r 8 1 = (s.dev.port n).stby.getD 0xFF % 256 ∧
        leAt r 9 1 = (s.dev.port n).failCause % 256)) ∧
      (s.dev.portWidth n = 0 → Completes (.portInfo o i) s (fun t => Finishes o i 0x0F04 [] s.dev s t))) ∧
    (s.dev.Ready o i 0x0501 → Completes (.laneInfo o i) s (fun t => ∃ r : List Byte, Finishes o i 0 r s.dev s t ∧ r.length = 32 ∧
      leAt r 0 1 = laneStCode (s.dev.lane n).st ∧ leAt r 1 1 = s.dev.clauseOf (n / 8) % 256 ∧
      leAt r 2 1 = (s.dev.lane n).failCause % 256 ∧
      leAt r 3 1 = b2n (s.dev.lane n).rxpolInv + 2 * b2n (s.dev.fecShown n) + 4 * b2n (s.dev.laneReversed n) ∧
      leAt r 8 8 = s.dev.counter n bLane 0x40 % 2 ^ 64 ∧ leAt r 16 8 = s.dev.counter n bLane 0x48 % 2 ^ 64 ∧
      leAt r 24 8 = s.dev.counter n bLane 0x50 % 2 ^ 64))

/-- R173, R338 to R340, R342, R346: the queries of the queue, regulation, telemetry, fault, repair and firmware groups are answered with what
they name, in the layout of their result, and change nothing else. A CHIPID without an entry and a channel that does not exist are
answered NO_SUCH, REG_TRY without a checked STAGED STAGE_INCOMPLETE, and TELEM_READ past the newest record NO_RECORD. -/
def Obligations.UnitQueries : Prop :=
  ∀ (s : State) (o i n q : Nat), n = leAt (s.dev.par o i) 0 1 → q = leAt (s.dev.par o i) 0 4 →
    (s.dev.Ready o i 0x0703 → s.dev.queueHolds o i false = false → s.dev.mem.sErr = [] → Completes (.queueInfo o i) s (fun t =>
      ∃ r : List Byte, Finishes o i 0 r s.dev s t ∧ r.length = 32 ∧ leAt r 0 4 = (s.dev.queue q).occ % 2 ^ 32 ∧
        leAt r 4 4 = (s.dev.queue q).res % 2 ^ 32 ∧ leAt r 8 4 = (s.dev.queue q).pkts % 2 ^ 32 ∧ leAt r 24 4 = (s.dev.queue q).drops % 2 ^ 32)) ∧
    (s.dev.queueHolds o i false = true → slotOk o i = true → exec (.queueInfo o i) s = .next s) ∧
    (s.dev.Ready o i 0x0801 → Completes (.regCapacity o i) s (fun t => ∃ r : List Byte, Finishes o i 0 r s.dev s t ∧ r.length = 48 ∧
      leAt r 0 2 = s.dev.reg.gmin % 65536 ∧ leAt r 2 1 = s.dev.reg.n % 256 ∧ leAt r 3 1 = s.dev.reg.bind % 256 ∧
      leAt r 4 1 = s.dev.reg.causes % 256 ∧ leAt r 8 4 = (s.dev.reg.rsv.map (·.b)).sum % 2 ^ 32 ∧
      leAt r 12 4 = (s.dev.reg.rsv.map (·.bNow)).sum % 2 ^ 32)) ∧
    (s.dev.Ready o i 0x0802 → ∀ c : Nat, c = (if leAt (s.dev.par o i) 0 8 = 0 then (s.dev.ptn o).chipid else leAt (s.dev.par o i) 0 8) →
      (s.dev.reg.rsv.any (fun e => e.chipid == c) = true → Completes (.regBudgets o i) s (fun t => ∃ r : List Byte, Finishes o i 0 r s.dev s t ∧
        r.length = 16 + 8 * min 8 (s.dev.reg.rsv.filter (fun e => e.chipid == c)).length ∧
        leAt r 0 2 = s.dev.reg.gmin % 65536 ∧ leAt r 8 8 = c % 2 ^ 64)) ∧
      (s.dev.reg.rsv.any (fun e => e.chipid == c) = false → Completes (.regBudgets o i) s (fun t => Finishes o i 0x0F04 [] s.dev s t))) ∧
    (s.dev.Ready o i 0x0803 →
      (s.dev.cfg.checked = false → Completes (.regTry o i) s (fun t => Finishes o i 0x030C [] s.dev s t)) ∧
      (s.dev.cfg.checked = true → Completes (.regTry o i) s (fun t => ∃ (r : List Byte) (g : Nat), g = (s.dev.capacity (imgShare s.dev.cfg.staged.bytes)).1 ∧
        r.length = 12 ∧ leAt r 4 2 = g % 65536 ∧
        Finishes o i (if (s.dev.admission s.dev.cfg.staged.bytes).1 then 0 else 0x0305) r s.dev s t ∧
        (((imgRsvs s.dev.cfg.staged.bytes (s.dev.capacity (imgShare s.dev.cfg.staged.bytes)).2.2).map (·.b)).sum ≤ g →
          (s.dev.admission s.dev.cfg.staged.bytes).1 = true ∧ leAt r 0 4 = 0)))) ∧
    (s.dev.Ready o i 0x0902 → Completes (.telemTemps o i) s (fun t => ∃ r : List Byte, Finishes o i 0 r s.dev s t ∧ r.length = 168 ∧
      leAt r 0 8 = s.dev.dt % 2 ^ 64 ∧ ∀ k : Nat, k < 160 →
        ((s.dev.sensor k).broken = true → leAt r (8 + k) 1 = 0xFF) ∧
        ((s.dev.sensor k).broken = false → (s.dev.layer (sensorLayer k)).suspect = true → leAt r (8 + k) 1 = 0xFE) ∧
        ((s.dev.sensor k).broken = false → (s.dev.layer (sensorLayer k)).suspect = false →
          (leAt r (8 + k) 1 : Int) = max 0 (min 0xFD ((s.dev.sensor k).reading / 16 + 40))))) ∧
    (s.dev.Ready o i 0x0903 → ∀ a m : Nat, a = max (leAt (s.dev.par o i) 4 4) (s.dev.teleNext n - ringSize n) →
      m = min (leAt (s.dev.par o i) 8 1) (s.dev.teleNext n - a) →
      (s.dev.teleNext n ≤ a → Completes (.telemRead o i) s (fun t => Finishes o i 0x0901 [] s.dev s t)) ∧
      (a < s.dev.teleNext n → (∀ e : Nat × TeleRec, e ∈ s.dev.telem.ring → e.2.bad = false) → Completes (.telemRead o i) s (fun t =>
        ∃ r : List Byte, Finishes o i 0 r s.dev s t ∧ (m ≤ 7 → r.length = 32 * m) ∧
          ∀ (j : Nat) (x : TeleRec), j < m → x = tabGet (fun _ => ({} : TeleRec)) s.dev.telem.ring (65536 * n + (a + j) % ringSize n) →
            (r.drop (32 * j)).take 32 = leBytes 4 x.index ++ [byte n, 0, 0, 0] ++ leBytes 8 x.dt ++ padTo 16 x.bytes))) ∧
    (s.dev.Ready o i 0x0A01 → Completes (.faultRead o i) s (fun t => ∃ r : List Byte, Finishes o i 0 r s.dev s t ∧ r.length = 48 ∧
      leAt r 0 1 = faultClass n % 256 ∧ leAt r 1 1 = s.dev.reactOf n ∧ leAt r 2 2 = s.dev.escMs n ∧
      leAt r 4 4 = (s.dev.src n).raises % 2 ^ 32 ∧ leAt r 8 8 = (s.dev.src n).lastDt % 2 ^ 64 ∧
      leAt r 16 1 = b2n (s.dev.src n).esc.isSome ∧ r.drop 18 = (s.dev.src n).detail.bytes)) ∧
    (s.dev.Ready o i 0x0B01 →
      (n < 64 → Completes (.graftInfo o i) s (fun t => ∃ r : List Byte, Finishes o i 0 r s.dev s t ∧ r.length = 16 ∧
        leAt r 0 1 = chStCode (s.dev.ch n).st ∧ leAt r 1 1 = ((List.range 4).filter (fun k => (s.dev.spare n k).v)).length ∧
        leAt r 2 1 = ([4, 5].filter (fun k => (s.dev.spare n k).v)).length ∧
        leAt r 8 4 = (s.dev.evacOf n).done % 2 ^ 32 ∧ leAt r 12 4 = (s.dev.evacOf n).total % 2 ^ 32)) ∧
      (64 ≤ n → Completes (.graftInfo o i) s (fun t => Finishes o i 0x0F04 [] s.dev s t))) ∧
    (s.dev.Ready o i 0x0B05 → Completes (.sdtInfo o i) s (fun t => ∃ r : List Byte, Finishes o i 0 r s.dev s t ∧ r.length = 8 ∧
      leAt r 0 1 = b2n s.dev.graft.sdtValid ∧ leAt r 1 1 = s.dev.graft.sdtOutcome % 256 ∧ leAt r 2 1 = b2n s.dev.graft.longRan ∧
      leAt r 4 4 = s.dev.graft.sdtSeq % 2 ^ 32)) ∧
    (s.dev.Ready o i 0x0D06 → Completes (.fwStatus o i) s (fun t => ∃ r : List Byte, Finishes o i 0 r s.dev s t ∧ r.length = 16 ∧
      leAt r 0 1 = s.dev.imgRec.active % 256 ∧ leAt r 1 1 = b2n s.dev.imgRec.trial ∧ leAt r 3 1 = b2n s.dev.mbox.image ∧
      leAt r 4 2 = (if (s.dev.imgValid s.fuse 0).isSome then s.dev.imgVer 0 % 65536 else 0) ∧
      leAt r 6 2 = (if (s.dev.imgValid s.fuse 1).isSome then s.dev.imgVer 1 % 65536 else 0) ∧
      leAt r 8 8 = s.dev.mbox.confirmBy.getD 0 % 2 ^ 64))

/-! ### System and mode commands -/

/-- R35, R325, R414, R482: a report of the VDD_CORE value in force is taken where it equals the request; a block reset acts on every
instance of its block (the PLLs of the octets, the ports, the channels through self-refresh, the transfer channels to DRAINING), waits for
an octet or channel whose island is stopped (R379), has no effect that shows on SLALOM, and is NO_SUCH for the rest; SYS_CRST is answered and resets the chip 100 µs later. R327, R443: SHUTDOWN waits for the drain; then the shut-down test runs, its record is written where the flash takes it, and the device
is left in RETAIN with every lane OFF, also where the record could not be written: RECORD_NOT_WRITTEN. -/
def Obligations.SystemCommands : Prop :=
  (∀ (s : State) (o i n mv : Nat) (b : BootEnv), n = leAt (s.dev.par o i) 0 1 → mv = leAt (s.dev.par o i) 2 2 →
    (s.dev.Ready o i 0x0103 → n = 1 →
      (mv = s.dev.pin.vreq → Completes (.sysVcoreReport o i) s (fun t => ∃ (m : Dev) (r : List Byte), m.pin = { s.dev.pin with vforce := mv, vwork := mv } ∧
        s.dev.Marks 0 bGlobal 0x30 2 m ∧ s.dev.RegsBut [regKey 0 bGlobal 0x30] m ∧ Dev.Keeps [.pin, .csr] s.dev m ∧
        Finishes o i 0 r m s t ∧ r.length = 16 ∧ leAt r 0 2 = mv ∧ leAt r 2 2 = mv)) ∧
      (mv ≠ s.dev.pin.vreq → Completes (.sysVcoreReport o i) s (fun t => Finishes o i 0x0101 [] s.dev s t))) ∧
    (s.dev.Ready o i 0x0105 →
      (n = 0x18 → Completes (.sysBrst o i) s (fun t => Finishes o i 0 [] s.dev s t)) ∧
      (n = 0x20 → Completes (.sysBrst o i) s (fun t => ∃ (m : Dev), Finishes o i 0 [] m s t ∧ Dev.Keeps [.dram, .fault] s.dev m ∧
        ∀ c : Nat, c < 64 → (s.dev.phyRuns c = true → s.dev.serving c = true → (s.dev.ch c).st ≠ .selfref →
            m.ch c = { s.dev.ch c with sr := some .sre, srAt := s.dev.dt, srxNext := true, srWait := false, gap := none }) ∧
          (s.dev.phyRuns c = false ∨ s.dev.serving c = false ∨ (s.dev.ch c).st = .selfref → m.ch c = s.dev.ch c) ∧
          (s.dev.phyRuns c = false → (1, c) ∈ m.fault.brstWait))) ∧
      (n = 0x30 → Completes (.sysBrst o i) s (fun t => ∃ (m : Dev), Finishes o i 0 [] m s t ∧ Dev.Keeps [.xfer] s.dev m ∧
        ∀ (x : Nat), x < 32 → ((s.dev.xc x).st = .run ∨ (s.dev.xc x).st = .chainWait →
            m.xc x = { s.dev.xc x with 
              st := .draining, code := 1, waitAt := none
              ph := if (s.dev.xc x).ph = .moving ∧ (s.dev.xc x).st = .run then .moving else .stop }) ∧
          ((s.dev.xc x).st ≠ .run → (s.dev.xc x).st ≠ .chainWait → m.xc x = s.dev.xc x))) ∧
      (n = 0x08 → (∀ k : Nat, (s.dev.port k).partner = none) → Completes (.sysBrst o i) s (fun t => (∀ k : Nat, k < 18 → (s.dev.octRuns k = true → (t.dev.oct k).pllLock = false) ∧
          (s.dev.octRuns k = false → (0, k) ∈ t.dev.fault.brstWait)) ∧
        (t.dev.pair o i).st = .done ∧ Keeps (([.lane, .lin, .lout, .oct, .port, .rx, .tx, .ptx, .ptn, .txn, .mem, .qm, .xfer, .therm, .boot, .sel] : List Part) ++ faultParts) s t)) ∧
      (n = 0x09 → (∀ l : Nat, l < 144 → (s.dev.lane l).st ≠ .active) → Completes (.sysBrst o i) s (fun t => ∃ (m : Dev), Finishes o i 0 [] m s t ∧
        (∀ k : Nat, k < 144 → ((m.port k).st = if (s.dev.port k).st = .off then .off else .bond) ∧
          ((s.dev.port k).st ≠ .off → (m.port k).timer = some (s.dev.dt + s.dev.bondNs k)) ∧
          ((s.dev.port k).resume = true → (m.port k).partner = (s.dev.port k).partner)) ∧
        Dev.Keeps (([.port, .rx, .tx, .ptx, .ptn, .txn, .qm] : List Part) ++ faultParts) s.dev m)) ∧
      (n ≠ 0x08 → n ≠ 0x09 → n ≠ 0x18 → n ≠ 0x20 → n ≠ 0x30 → Completes (.sysBrst o i) s (fun t => Finishes o i 0x0F04 [] s.dev s t))) ∧
    (s.dev.Ready o i 0x0106 → Completes (.sysCrst o i) s (fun t => ∃ (m : Dev), m.clk = { s.dev.clk with crstAt := some (s.dev.dt + 100000) } ∧
      Dev.Keeps [.clk] s.dev m ∧ Finishes o i 0 [] m s t)) ∧
    (due s.dev.clk.crstAt s.dev.dt = true → s.dev.therm.shut = false → Completes (.crstApply b) s (fun t =>
      t.dev.pin.resetCause = 2 ∧ t.dev.pin.straps = s.dev.pin.straps ∧ t.dev.clk.mode = .boot ∧ t.dev.clk.crstAt = none ∧
      t.dev.pin.pwrgd = s.dev.pin.pwrgd ∧ (s.dev.clk.ringSettled = false → t.dev.boot.flash = s.dev.boot.flash) ∧
      t.fuse = s.fuse ∧ t.pending = s.pending ∧ Dev.Keeps romParts {} t.dev)) ∧
    (due s.dev.clk.crstAt s.dev.dt = false ∨ s.dev.therm.shut = true → exec (.crstApply b) s = .next s)) ∧
  (∀ (s : State) (o i : Nat) (x : TestRes) (ok : Bool), s.dev.Ready o i 0x0202 → s.dev.clk.mode = .maint ∨ s.dev.clk.mode = .drain →
    s.dev.clk.hold = false → s.dev.RunsAlone o i →
    (s.dev.drained true = true → Completes (.shutdown o i x ok) s (fun t =>
      t.dev.clk.mode = .retain ∧ t.dev.clk.entryDt = s.dev.dt ∧ t.dev.clk.move = none ∧ t.dev.clk.hwStopped = true ∧
      (∀ l : Nat, l < 144 → (t.dev.lane l).st = .off) ∧
      (ok = false → s.dev.Answered o i 0x0203 [] t.dev ∧ t.dev.boot.flash = s.dev.boot.flash) ∧
      (ok = true → bit s.dev.otp.present 21 = true → s.dev.otp.unst = [] → (∀ k : Nat, s.fuse.wordA k = s.fuse.wordB k) → ∃ fail seq : Nat, s.dev.Answered o i 0
        ([byte (b2n (fail != 0)), 1, 0, 0] ++ leBytes 4 seq ++ leBytes 4 fail) t.dev) ∧
      Keeps (([.pin, .clk, .lane, .lin, .lout, .oct, .port, .mem, .dram, .ecc, .graft, .otp, .boot] : List Part) ++ faultParts) s t)) ∧
    (s.dev.drained true = false → Completes (.shutdown o i x ok) s (fun t =>
      ∃ (m : Move), m.ph = .draining ∧ m.tgt = .retain ∧ m.shutdown = true ∧ m.test = x ∧ m.recOk = ok ∧ m.pair = some (8 * o + i) ∧
        t.dev.clk = { s.dev.clk with move := some m } ∧ Keeps [.clk] s t)))

/-- R13, R182, R294, R322, R326, R327, R371 to R377: MODE_SET makes the transitions of the state table and no other, and is answered with
the mode entered and its DT; a mode in force already is answered at once. Entry to SERVICE sets totals afresh where the census was off,
leaving SERVICE stops the transfer channels, entry to MAINT empties every queue, entry to RETAIN stops lanes, ports and Heartwood and sends the
channels to self-refresh. What needs a drain waits for it; WAIT_MS past, the device is where it was, and the answer is MODE_TIMEOUT. -/
def Obligations.ModeTransitions : Prop :=
  ∀ (s : State) (o i : Nat) (tgt : Mode), tgt = modeOf (leAt (s.dev.par o i) 0 1) →
    (s.dev.MaySwitch o i → tgt ≠ .boot →
      (s.dev.clk.mode = tgt → Completes (.modeSet o i) s (fun t =>
        Finishes o i 0 ([byte (modeCode tgt)] ++ List.replicate 7 0 ++ leBytes 8 s.dev.clk.entryDt) s.dev s t)) ∧
      (s.dev.clk.mode ≠ tgt → moveAllowed s.dev.clk.mode tgt = false ∨ (tgt.sleeps = true ∧ s.dev.cfg.st = .pending) →
        Completes (.modeSet o i) s (fun t => Finishes o i 0x0201 [] s.dev s t)) ∧
      (s.dev.clk.mode = .maint ∨ s.dev.clk.mode = .drain → tgt = .service → s.dev.otp.chipid = 0 ∨ s.dev.otp.chipid = 2 ^ 64 - 1 →
        Completes (.modeSet o i) s (fun t => Finishes o i 0x0F06 [] s.dev s t)) ∧
      (s.dev.clk.mode = .maint ∨ s.dev.clk.mode = .drain → tgt = .service → s.dev.otp.chipid ≠ 0 → s.dev.otp.chipid ≠ 2 ^ 64 - 1 →
        Completes (.modeSet o i) s (fun t => s.dev.Entered o i .service t.dev ∧ t.dev.clk.censusOff = false ∧ t.dev.therm.calFirst = true ∧
          (s.dev.clk.censusOff = false → t.dev.qm = s.dev.qm) ∧
          (s.dev.clk.censusOff = true → t.dev.qm.cellFree = t.dev.qm.cellTotal ∧ t.dev.qm.cellQueued = 0 ∧ t.dev.qm.cellInfl = 0 ∧
            t.dev.qm.descFree = t.dev.qm.descTotal ∧ t.dev.qm.descInuse = 0 ∧
            t.dev.qm.cellTotal = s.dev.cellNominal / 64 * ((List.range 64).filter (fun c => !s.dev.retired c)).length) ∧
          Keeps (([.pin, .clk, .oct, .qm, .dram, .therm, .otp, .boot] : List Part) ++ faultParts) s t)) ∧
      (s.dev.clk.mode = .service → tgt = .drain → s.dev.qm.parks = [] → Completes (.modeSet o i) s (fun t =>
        s.dev.Entered o i .drain t.dev ∧
        (∀ x k : Nat, x < 31 → (s.dev.xc x).owner = some k → (s.dev.xc x).st = .run ∨ (s.dev.xc x).st = .chainWait →
          (t.dev.xc x).st = .draining ∧ (t.dev.xc x).code = 3) ∧
        (∀ x : Nat, (s.dev.xc x).st ≠ .run → (s.dev.xc x).st ≠ .chainWait → t.dev.xc x = s.dev.xc x) ∧
        t.dev.otp = { s.dev.otp with win := none } ∧
        (s.dev.otp.win ≠ none → s.dev.pin.vprogUp = true → s.dev.pin.vprogBad = false → s.dev.Raised 11 {} t.dev) ∧
        Keeps (([.pin, .clk, .oct, .xfer, .otp, .boot] : List Part) ++ faultParts) s t)) ∧
      (s.dev.clk.mode = .drain → tgt = .maint → s.dev.drained false = true → Completes (.modeSet o i) s (fun t =>
        s.dev.Entered o i .maint t.dev ∧ t.dev.clk.censusOff = true ∧ t.dev.qm.cellUsed = [] ∧ t.dev.qm.unitUsed = [] ∧
        t.dev.qm.cellFree = s.dev.qm.cellTotal ∧ t.dev.qm.descFree = s.dev.qm.descTotal ∧
        (∀ q : Nat, (t.dev.queue q).occ = 0 ∧ (t.dev.queue q).pkts = 0) ∧
        (∀ (q : Nat) (y : Queue), s.dev.qm.queue = [(q, y)] → (t.dev.queue q).drops = y.drops ∧ (t.dev.queue q).overrun = y.overrun) ∧
        Keeps (([.clk, .oct, .mem, .qm, .boot] : List Part) ++ faultParts) s t)) ∧
      (s.dev.clk.mode = .drain → tgt = .maint → s.dev.drained false = false → Completes (.modeSet o i) s (fun t =>
        ∃ m : Move, m.ph = .draining ∧ m.tgt = .maint ∧ m.pair = some (8 * o + i) ∧ t.dev.clk = { s.dev.clk with move := some m } ∧ Keeps [.clk] s t)) ∧
      (s.dev.clk.mode = .maint ∨ s.dev.clk.mode = .drain → tgt = .retain → s.dev.cfg.st ≠ .pending → s.dev.drained true = true →
        Completes (.modeSet o i) s (fun t => s.dev.Entered o i .retain t.dev ∧ t.dev.clk.hwStopped = true ∧ t.dev.clk.ringOn = false ∧
          t.dev.clk.tbPll = false ∧ t.dev.clk.hwPll = false ∧ (∀ l : Nat, l < 144 → (t.dev.lane l).st = .off) ∧
          (∀ n : Nat, n < 144 → (t.dev.port n).st = if (s.dev.port n).st = .off then .off else if (s.dev.port n).st = .fail then .fail else .hold) ∧
          (∀ c : Nat, c < 64 → s.dev.serving c = true → (s.dev.ch c).st ≠ .selfref → (s.dev.ch c).sr ≠ some .srx → (t.dev.ch c).sr = some .sre) ∧
          Keeps (([.pin, .clk, .lane, .lin, .lout, .oct, .port, .dram, .otp, .boot] : List Part) ++ faultParts) s t))) ∧
    (∀ (m : Move) (p : Nat), s.dev.clk.move = some m → m.pair = some p → o = p / 8 → i = p % 8 → (s.dev.pair o i).st = .running →
      (s.dev.pair o i).drop = false → s.dev.clk.mode ≠ .retain → o < 66 →
      (due m.by_ s.dev.dt = true → m.ph ≠ .entering → Completes .modeTimeout s (fun t =>
        t.dev.clk = { s.dev.clk with move := none } ∧ s.dev.Answered o i 0x0202 [] t.dev ∧ Keeps (([.clk, .boot] : List Part) ++ faultParts) s t)) ∧
      (due m.by_ s.dev.dt = true → m.ph = .entering → (∀ n : Nat, (s.dev.port n).partner = none) → Completes .modeTimeout s (fun t =>
        t.dev.clk.mode = s.dev.clk.mode ∧ t.dev.clk.move = none ∧ s.dev.Answered o i 0x0202 [] t.dev ∧
        Keeps (([.clk, .lane, .lin, .lout, .oct, .port, .rx, .tx, .ptx, .ptn, .txn, .mem, .qm, .dram, .xfer, .therm, .boot, .sel] : List Part) ++ faultParts) s t)) ∧
      (due m.by_ s.dev.dt = false → exec .modeTimeout s = .next s) ∧
      (m.ph = .draining → m.tgt = .maint → m.shutdown = false → s.dev.clk.hold = false → s.dev.cfg.back = false →
        (s.dev.drained false = true → Completes .modeDrainComplete s (fun t => s.dev.Entered o i .maint t.dev ∧
          t.dev.qm.cellUsed = [] ∧ t.dev.qm.cellFree = s.dev.qm.cellTotal ∧ Keeps (([.clk, .oct, .mem, .qm, .dram, .boot] : List Part) ++ faultParts) s t)) ∧
        (s.dev.drained false = false → exec .modeDrainComplete s = .next s))) ∧
    (s.dev.clk.move = none → exec .modeTimeout s = .next s)
/-! ### Configuration generations -/

/-- R329: CFG_BEGIN discards STAGED and opens a session, CFG_WRITE writes bytes of it, CFG_END marks it checked where every check
passes and otherwise answers the first that fails, leaving all as it was but for what the demand reads of the key fuses correct or report
(R454). What the bytes of STAGED hold before they are written is a
free value. While the other owner's session is open the answer is IN_PROGRESS. -/
def Obligations.Staging : Prop :=
  ∀ (s : State) (o i off len : Nat) (p : List Byte), p = s.dev.par o i → s.dev.cfgBusy = false → off = leAt p 0 4 → len = leAt p 4 4 →
    (s.dev.Ready o i 0x0301 →
      (s.dev.sesOther o = false ∨ o = 64 → Completes (.cfgBegin o i) s (fun t => ∃ m : Dev, Finishes o i 0 [] m s t ∧
        m.cfg = { s.dev.cfg with
          staged := { gen := off, length := len, bytes := m.cfg.staged.bytes }, checked := false, session := some o, sesGen := off
          sesLen := len, sesBytes := [] } ∧
        m.cfg.staged.bytes.length = len ∧ m.freeIx = s.dev.freeIx + 1 ∧ Dev.Keeps [.cfg, .free] s.dev m)) ∧
      (s.dev.sesOther o = true → o ≠ 64 → Completes (.cfgBegin o i) s (fun t => Finishes o i 0x0F05 [] s.dev s t))) ∧
    (s.dev.Ready o i 0x0302 →
      (s.dev.cfg.session = some o → off + (p.drop 8).length ≤ s.dev.cfg.staged.bytes.length → Completes (.cfgWrite o i) s (fun t =>
        ∃ m : Dev, Finishes o i 0 [] m s t ∧
        m.cfg = { s.dev.cfg with staged := { s.dev.cfg.staged with present := true, bytes := m.cfg.staged.bytes }, sesBytes := m.cfg.sesBytes } ∧
        m.cfg.staged.bytes.length = s.dev.cfg.staged.bytes.length ∧
        (∀ j : Nat, m.cfg.staged.bytes.getD j 0 = if off ≤ j ∧ j < off + (p.drop 8).length then (p.drop 8).getD (j - off) 0
          else s.dev.cfg.staged.bytes.getD j 0) ∧
        (∀ j : Nat, tabGet (fun _ => (0 : Byte)) m.cfg.sesBytes j = if off ≤ j ∧ j < off + (p.drop 8).length then 1
          else tabGet (fun _ => 0) s.dev.cfg.sesBytes j) ∧ Dev.Keeps [.cfg] s.dev m)) ∧
      (s.dev.cfg.session = none → Completes (.cfgWrite o i) s (fun t => Finishes o i 0x030C [] s.dev s t)) ∧
      (s.dev.sesOther o = true → Completes (.cfgWrite o i) s (fun t => Finishes o i 0x0F05 [] s.dev s t))) ∧
    (s.dev.Ready o i 0x0303 → ∀ (b : List Byte) (c : CfgU), b = s.dev.cfg.staged.bytes → c = s.dev.cfg →
      (s.dev.sesOther o = true → Completes (.cfgEnd o i) s (fun t => Finishes o i 0x0F05 [] s.dev s t)) ∧
      (c.session = none → Completes (.cfgEnd o i) s (fun t => Finishes o i 0x030C [] s.dev s t)) ∧
      (c.session = some o → c.sesBytes.length ≠ c.sesLen → Completes (.cfgEnd o i) s (fun t => Finishes o i 0x030C [] s.dev s t)) ∧
      (c.session = some o → c.sesBytes.length = c.sesLen →
        (crc32 b ≠ off → Completes (.cfgEnd o i) s (fun t => Finishes o i 0x0307 [] s.dev s t)) ∧
        (crc32 b = off → Completes (.cfgEnd o i) s (fun t => ∃ k : Dev, Dev.Keeps (.otp :: faultParts) s.dev k ∧
          (s.dev.imageSigned s.fuse b c.sesLen = false → Finishes o i 0x0308 [] k s t) ∧
          (s.dev.imageSigned s.fuse b c.sesLen = true →
            (leAt b 8 4 ≠ c.sesGen ∨ leAt b 8 4 ≤ c.active.gen → Finishes o i 0x0309 [] k s t) ∧
            (leAt b 8 4 = c.sesGen → c.active.gen < leAt b 8 4 →
              (∀ (st : Nat) (r : List Byte), recordsBad b = some (st, r) → Finishes o i st r k s t) ∧
              (recordsBad b = none → ∃ (m : Dev) (r : List Byte), Finishes o i 0 r m s t ∧ r.length = 4 ∧
                m.cfg = { c with checked := true, session := none, staged := { c.staged with crc := off } } ∧
                leAt r 2 1 = b2n (!hitless s.dev.image b) ∧ Dev.Keeps [.cfg] k m)))))))

/-- R329, R361, R364, R365: a commit that passes its checks puts STAGED in force, moves ACTIVE to PREVIOUS, opens the confirm window from
its DT and is answered with both; one that fails a check changes nothing, and one whose flash write fails raises FS172. A confirm of the
pending generation before its deadline ends the window. A rollback, commanded or made at the deadline (FS170), puts PREVIOUS back in
force. Stated where no cell move is under way, in MAINT, with no partner attached. -/
def Obligations.CommitAndRollback : Prop :=
  ∀ (s : State) (o i g w : Nat) (ok : Bool), g = leAt (s.dev.par o i) 0 4 → s.dev.clk.mode = .maint → s.dev.qm.shrink = none → s.dev.qm.moving = false →
    (∀ n : Nat, (s.dev.port n).partner = none) →
    (s.dev.Ready o i 0x0306 → s.dev.cfg.st ≠ .committing →
      (∀ st : Nat, s.dev.commitRefusal o i = some st → Completes (.cfgCommit o i ok) s (fun t => Finishes o i st [] s.dev s t)) ∧
      (s.dev.commitRefusal o i = none → s.dev.commitTest = none →
        (ok = true → w = (if leAt (s.dev.par o i) 4 2 = 0 then 30 else leAt (s.dev.par o i) 4 2) → Completes (.cfgCommit o i ok) s (fun t =>
          t.dev.cfg.st = .pending ∧ t.dev.cfg.active = { s.dev.cfg.staged with area := s.dev.freeArea } ∧
          t.dev.cfg.previous = (if s.dev.cfg.active.present then s.dev.cfg.active else { present := true }) ∧ t.dev.cfg.staged = {} ∧
          t.dev.cfg.checked = false ∧ t.dev.cfg.owner = o ∧ t.dev.cfg.commitDt = s.dev.dt ∧
          t.dev.cfg.deadline = s.dev.dt + 1000000000 * w ∧
          s.dev.Answered o i 0 (leBytes 4 s.dev.cfg.staged.gen ++ List.replicate 4 0 ++ leBytes 8 (s.dev.dt + 1000000000 * w)) t.dev ∧
          t.dev.csrAt 0 bConfig 0x40 &&& 1 = 1 ∧ s.dev.Counts 0 bConfig 0x80 1 t.dev ∧
          (s.dev.cfg.staged.bytes.length ≤ 0x40000 → ∀ j : Nat, j < s.dev.cfg.staged.bytes.length →
            t.dev.flashAt (areaAt s.dev.freeArea + j) 1 = [s.dev.cfg.staged.bytes.getD j 0]) ∧
          Keeps (([.cfg, .lane, .lin, .lout, .oct, .port, .rx, .tx, .ptx, .ptn, .txn, .mem, .qm, .dram, .ecc, .xfer, .graft, .boot, .sel, .free] : List Part) ++ faultParts) s t)) ∧
        (ok = false → Completes (.cfgCommit o i ok) s (fun t => ∃ m : Dev, Finishes o i 0x0F06 [] m s t ∧
          m.cfg.st = .confirmed ∧ m.cfg.active = s.dev.cfg.active ∧ m.cfg.staged = s.dev.cfg.staged ∧ m.cfg.previous = s.dev.cfg.previous ∧
          s.dev.Raised 172 {} m ∧ Dev.Keeps (.cfg :: faultParts) s.dev m ∧ s.dev.Noted [] [] [172] m))) ∧
      (∀ (st : Nat) (r : List Byte), s.dev.commitRefusal o i = none → s.dev.commitTest = some (st, r) → Completes (.cfgCommit o i ok) s (fun t =>
        ∃ m : Dev, Finishes o i st r m s t ∧ Dev.Keeps [.csr] s.dev m ∧ s.dev.RegsBut [regKey 0 bReg 0x50] m))) ∧
    (s.dev.Ready o i 0x0307 →
      (s.dev.cfg.st = .pending → g = s.dev.cfg.active.gen → (s.dev.pair o i).stamp < s.dev.cfg.deadline → Completes (.cfgConfirm o i) s (fun t =>
        ∃ m : Dev, Finishes o i 0 [] m s t ∧ m.cfg = { s.dev.cfg with st := .confirmed } ∧ s.dev.Marks 0 bConfig 0x40 2 m ∧
          Dev.Keeps (.cfg :: .boot :: faultParts) s.dev m ∧ s.dev.Noted [regKey 0 bConfig 0x40] [] [] m)) ∧
      (s.dev.cfg.st ≠ .pending ∨ g ≠ s.dev.cfg.active.gen ∨ s.dev.cfg.deadline ≤ (s.dev.pair o i).stamp →
        Completes (.cfgConfirm o i) s (fun t => Finishes o i 0x030B [] s.dev s t))) ∧
    (s.dev.Ready o i 0x0308 →
      (s.dev.cfg.st ≠ .rollingBack → s.dev.cfg.st ≠ .committing → s.dev.cfg.previous.present = true → Completes (.cfgRollback o i) s (fun t =>
        t.dev.cfg.st = .confirmed ∧ t.dev.cfg.active = s.dev.rollSlot ∧ t.dev.cfg.previous = {} ∧ t.dev.cfg.staged = s.dev.cfg.staged ∧
        s.dev.Answered o i 0 (leBytes 4 s.dev.rollSlot.gen) t.dev ∧ t.dev.csrAt 0 bConfig 0x40 &&& 4 = 4 ∧
        s.dev.Counts 0 bConfig 0x88 1 t.dev ∧
        Keeps (([.cfg, .lane, .lin, .lout, .oct, .port, .rx, .tx, .ptx, .ptn, .txn, .mem, .qm, .dram, .ecc, .xfer, .graft, .boot, .sel, .free] : List Part) ++ faultParts) s t)) ∧
      (s.dev.cfg.st ≠ .rollingBack → s.dev.cfg.st ≠ .committing → s.dev.cfg.previous.present = false →
        Completes (.cfgRollback o i) s (fun t => Finishes o i 0x030A [] s.dev s t)) ∧
      (s.dev.cfg.st = .committing → Completes (.cfgRollback o i) s (fun t => Finishes o i 0x0F05 [] s.dev s t))) ∧
    (s.dev.autoDue = true → Completes .autoRollback s (fun t =>
      t.dev.cfg.st = .confirmed ∧ t.dev.cfg.active = s.dev.rollSlot ∧ t.dev.cfg.previous = {} ∧ s.dev.Raised 170 {} t.dev ∧
      s.dev.Counts 0 bConfig 0x88 1 t.dev ∧ s.dev.Counts 0 bConfig 0x90 1 t.dev ∧ t.dev.csrAt 0 bConfig 0x40 &&& 12 = 12 ∧
      Keeps (([.cfg, .lane, .lin, .lout, .oct, .port, .rx, .tx, .ptx, .ptn, .txn, .mem, .qm, .dram, .ecc, .xfer, .graft, .boot, .sel, .free] : List Part) ++ faultParts) s t)) ∧
    (s.dev.cfg.st ≠ .rollingBack → s.dev.autoDue = false → exec .autoRollback s = .next s)

/-! ### Partner, port and lane commands -/

/-- R65, R89, R110, R111, R331 to R333: PARTNER_LEAVE takes its own partner to LEAVING, stops its transfer channels and answers its waiting
commands DEPARTING; PARTNER_EVICT takes a partner to RECLAIM with FS081 and is answered once it is FREE; PORT_RETRAIN takes a port that is up
to BOND and its ACTIVE lanes to TRAIN; LANE_PRBS runs its patterns for its time and is then answered with the bits and errors counted. -/
def Obligations.LinkCommands : Prop :=
  ∀ (s : State) (o i n : Nat), n = leAt (s.dev.par o i) 0 1 →
    (s.dev.Ready o i 0x0402 → o < 64 →
      ((s.dev.ptn o).st = .attached → s.dev.qm.parks = [] → (∀ (j : Nat), j < 8 → (s.dev.pair o j).drop = false) →
        Completes (.partnerLeave o i) s (fun t => ∃ m : Dev, Finishes o i 0 [] m s t ∧
          m.ptn o = { s.dev.ptn o with st := .leaving, timer := some (s.dev.dt + 1000000 * s.dev.cfgFld 0 bPartner 0x100 0 16) } ∧
          s.dev.PtnsBut o m ∧
          (∀ x : Nat, x < 31 → (s.dev.xc x).owner = some o → (s.dev.xc x).st = .run ∨ (s.dev.xc x).st = .chainWait →
            (m.xc x).st = .draining ∧ (m.xc x).code = 4) ∧
          (∀ x : Nat, (s.dev.xc x).owner ≠ some o → m.xc x = s.dev.xc x) ∧
          (∀ (j : Nat), j < 8 → ((s.dev.pair o j).st = .posted → s.dev.Answered o j 7 [] m) ∧
            ((s.dev.pair o j).st ≠ .posted → m.pair o j = s.dev.pair o j)) ∧
          (∀ (q : Nat) (j : Nat), q ≠ o → j < 8 → m.pair q j = s.dev.pair q j) ∧ Dev.Keeps [.ptn, .xfer, .mbox] s.dev m)) ∧
      ((s.dev.ptn o).st ≠ .attached → Completes (.partnerLeave o i) s (fun t => Finishes o i 0 [] s.dev s t))) ∧
    (s.dev.Ready o i 0x0403 → o = 64 →
      ((s.dev.pair o i).wait = false → (s.dev.ptn n).st = .free → Completes (.partnerEvict o i) s (fun t => Finishes o i 0x0F04 [] s.dev s t)) ∧
      ((s.dev.pair o i).wait = false → (s.dev.ptn n).st = .reclaim → Completes (.partnerEvict o i) s (fun t =>
        t.dev.pair o i = { s.dev.pair o i with wait := true } ∧ s.dev.PairsBut o i t.dev ∧ Keeps [.mbox] s t)) ∧
      ((s.dev.pair o i).wait = false → n < 64 → s.dev.present n = true → s.dev.NoBond → (∀ m : Nat, (s.dev.port m).partner ≠ some n) →
        Completes (.partnerEvict o i) s (fun t =>
          (t.dev.ptn n).st = .reclaim ∧ (t.dev.ptn n).abrupt = true ∧ s.dev.Raised 81 { kind := 4, inst := n, wide := (s.dev.ptn n).chipid } t.dev ∧
          t.dev.pair o i = { s.dev.pair o i with wait := true } ∧ s.dev.PtnsBut n t.dev ∧
          (∀ (j : Nat), j < 8 → (s.dev.pair n j).st ≠ .running → t.dev.pair n j = {}) ∧ t.fuse = s.fuse ∧ t.pending = s.pending ∧
          Dev.Keeps [.port, .rx, .tx, .ptx, .ptn, .fault, .mbox, .telem, .txn, .mem, .qm, .xfer, .csr, .ctr, .sel] s.dev t.dev)) ∧
      ((s.dev.pair o i).wait = true → (s.dev.ptn n).st ≠ .reclaim → Completes (.partnerEvict o i) s (fun t => Finishes o i 0 [] s.dev s t)) ∧
      ((s.dev.pair o i).wait = true → (s.dev.ptn n).st = .reclaim → exec (.partnerEvict o i) s = .next s)) ∧
    (s.dev.Ready o i 0x0406 →
      (s.dev.portWidth n = 0 → Completes (.portRetrain o i) s (fun t => Finishes o i 0x0F04 [] s.dev s t)) ∧
      (s.dev.portWidth n ≠ 0 → (s.dev.port n).st = .up ∨ (s.dev.port n).st = .restripe → s.dev.NoBond → Completes (.portRetrain o i) s (fun t =>
        ∃ m : Dev, Finishes o i 0 [] m s t ∧ (m.port n).st = .bond ∧ (m.port n).partner = (s.dev.port n).partner ∧
          (∀ l : Nat, n ≤ l → l < n + s.dev.portWidth n → (s.dev.lane l).st = .active → (m.lane l).st = .train ∧ (m.lane l).lsig = 3) ∧
          (∀ l : Nat, l < n ∨ n + s.dev.portWidth n ≤ l → m.lane l = s.dev.lane l) ∧ s.dev.PortsBut n m ∧
          Dev.Keeps [.lane, .lin, .lout, .oct, .port, .csr, .ctr, .therm, .telem] s.dev m)) ∧
      (s.dev.portWidth n ≠ 0 → (s.dev.port n).st = .off → s.dev.NoBond → (∀ (j : Nat), j < s.dev.portWidth n → s.dev.LaneAlone (n + j)) →
        Completes (.portRetrain o i) s (fun t => ∃ m : Dev, Finishes o i 0 [] m s t ∧
          (∀ l : Nat, n ≤ l → l < n + s.dev.portWidth n → (s.dev.lane l).st = .active → (m.lane l).st = .train) ∧
          Dev.Keeps [.lane, .lin, .lout, .oct, .csr, .ctr, .therm, .telem] s.dev m))) ∧
    (s.dev.Ready o i 0x0502 → (s.dev.pair o i).wait = false → n < 144 →
      (s.dev.prbsMay n = true → (s.dev.lane n).job = none → Completes (.lanePrbs o i) s (fun t =>
        (t.dev.lane n).job = some { pair := 8 * o + i, by_ := s.dev.dt + 1000000 * leAt (s.dev.par o i) 4 2, err0 := s.dev.counter n bLane 0x58 } ∧
        (t.dev.lane n).genRun = s.dev.prbsOk n (leAt (s.dev.par o i) 1 1 % 8) ∧ t.dev.pair o i = { s.dev.pair o i with wait := true } ∧
        s.dev.LanesBut n t.dev ∧ s.dev.PairsBut o i t.dev ∧ s.dev.RegsBut [regKey n bLane 0x20] t.dev ∧ Keeps [.lane, .lout, .oct, .mbox, .csr] s t)) ∧
      (s.dev.prbsMay n = false ∨ (s.dev.lane n).job ≠ none → Completes (.lanePrbs o i) s (fun t => Finishes o i 0x0501 [] s.dev s t))) ∧
    (∀ (j : PrbsJob), n < 144 → (s.dev.lane n).job = some j → o = j.pair / 8 → i = j.pair % 8 →
      (j.by_ ≤ s.dev.dt → s.dev.Ready o i 0x0502 → Completes (.lanePrbsEnd n) s (fun t => ∃ (m : Dev) (r : List Byte), Finishes o i 0 r m s t ∧ r.length = 24 ∧
        leAt r 0 1 = b2n ((s.dev.lane n).prbsLock && !j.lost) ∧ leAt r 8 8 = j.bits % 2 ^ 64 ∧
        leAt r 16 8 = (s.dev.counter n bLane 0x58 - j.err0) % 2 ^ 64 ∧ (m.lane n).job = none ∧ (m.lane n).genRun = 0 ∧ (m.lane n).chkRun = 0 ∧
        s.dev.LanesBut n m ∧ s.dev.RegsBut [regKey n bLane 0x20] m ∧ Dev.Keeps [.lane, .lout, .oct, .csr] s.dev m)) ∧
      (s.dev.dt < j.by_ → exec (.lanePrbsEnd n) s = .next s)) ∧
    (n < 144 → (s.dev.lane n).job = none → exec (.lanePrbsEnd n) s = .next s)

/-! ### Table and queue commands -/

/-- R204, R205, R208, R334, R335: a table command of another kind of TD is TABLE_KIND, an update of a read-only table TABLE_RO; any other is
taken by an engine as the operation of its kind, of its own stamp, and waits; the operation ends with the outcome that firmware answers: a hit
gives the result, an insert replaces the result of its key or takes the first free entry and is TABLE_FULL without one, a delete clears the
entry; the command is then answered with it. Outcomes are stated for tables of 16-byte entries in stack SRAM (a bucket is one unit) and for the
first level of a trie there; a scan counts the VALID entries bucket by bucket and answers the sums. -/
def Obligations.TableCommands : Prop :=
  (∀ (s : State) (o i : Nat) (p t : List Byte), p = s.dev.par o i → t = s.dev.td (leAt p 0 1) →
    ((s.dev.pair o i).wait = false →
      (s.dev.Ready o i 0x0601 →
        (tdKind t ≠ 1 → Completes (.tableInsert o i) s (fun t => Finishes o i 0x0602 [] s.dev s t)) ∧
        (tdKind t = 1 → tdRo t = true → Completes (.tableInsert o i) s (fun t => Finishes o i 0x0603 [] s.dev s t)) ∧
        (tdKind t = 1 → tdRo t = false → Completes (.tableInsert o i) s (fun u =>
          s.dev.TableTaken o i .emInsert ((p.drop 4).take (tdKsize t + tdRsize t)) u.dev ∧ Keeps [.txn, .mbox] s u))) ∧
      (s.dev.Ready o i 0x0602 →
        (tdKind t ≠ 1 → Completes (.tableDelete o i) s (fun t => Finishes o i 0x0602 [] s.dev s t)) ∧
        (tdKind t = 1 → tdRo t = true → Completes (.tableDelete o i) s (fun t => Finishes o i 0x0603 [] s.dev s t)) ∧
        (tdKind t = 1 → tdRo t = false → Completes (.tableDelete o i) s (fun u =>
          s.dev.TableTaken o i .emDelete ((p.drop 4).take (tdKsize t)) u.dev ∧ Keeps [.txn, .mbox] s u))) ∧
      (s.dev.Ready o i 0x0603 →
        (tdKind t ≠ 1 → tdKind t ≠ 2 → Completes (.tableLookup o i) s (fun t => Finishes o i 0x0602 [] s.dev s t)) ∧
        (tdKind t = 1 ∨ tdKind t = 2 → Completes (.tableLookup o i) s (fun u =>
          s.dev.TableTaken o i (if tdKind t = 2 then .lpmLookup else .emLookup) ((p.drop 4).take (tdKsize t)) u.dev ∧ Keeps [.txn, .mbox] s u)))) ∧
    (∀ (op : Nat) (c : Instr), (op, c) = (0x0601, .tableInsert o i) ∨ (op, c) = (0x0602, .tableDelete o i) ∨ (op, c) = (0x0603, .tableLookup o i) →
      s.dev.Ready o i op → (s.dev.pair o i).wait = true →
      ((s.dev.pair o i).eng = none → exec c s = .next s) ∧
      (∀ (st : Nat) (res : List Byte), (s.dev.pair o i).eng = some (st, res) → Completes c s (fun t => Finishes o i st res s.dev s t))) ∧
    (s.dev.Ready o i 0x0604 → ∀ (first n j a v : Nat), first = leAt p 4 4 → n = leAt p 8 4 → j = (s.dev.pair o i).scanAt 0 →
      a = tdBase t + 64 * (first + j) →
      v = ((List.range 4).filter (fun k => bit (leAt (s.dev.sramBytes (a + 16 * k) 1) 0 1) 0)).length →
      ((s.dev.pair o i).wait = false → tdKind t ≠ 1 ∨ tdCount t < first + n → Completes (.tableScan o i) s (fun t => Finishes o i 0x0602 [] s.dev s t)) ∧
      ((s.dev.pair o i).wait = true ∨ (tdKind t = 1 ∧ first + n ≤ tdCount t) →
        ((∃ c : Comp, c ∈ s.dev.txn.comps ∧ c.ref = .own (8 * o + i)) → exec (.tableScan o i) s = .next s) ∧
        ((∀ c : Comp, c ∈ s.dev.txn.comps → c.ref ≠ .own (8 * o + i)) → n ≤ j → Completes (.tableScan o i) s (fun u =>
          Finishes o i 0 (leBytes 4 ((s.dev.pair o i).scanAt 1) ++ leBytes 4 ((s.dev.pair o i).scanAt 2) ++ leBytes 4 ((s.dev.pair o i).scanAt 3) ++
            leBytes 4 ((s.dev.pair o i).scanAt 4)) s.dev s u)) ∧
        ((∀ c : Comp, c ∈ s.dev.txn.comps → c.ref ≠ .own (8 * o + i)) → j < n → emEntry t = 16 → tdBase t % 64 = 0 → inSram a = true →
          (∃ (r : Region), s.dev.placeAt a = some (r, a)) → s.dev.earlier s.dev.txn.nextOrd (placeUnit a) = false → s.dev.mem.sErr = [] →
          Completes (.tableScan o i) s (fun u =>
            u.dev.pair o i = { s.dev.pair o i with wait := true, work := [j + 1, (s.dev.pair o i).scanAt 1 + v,
              (s.dev.pair o i).scanAt 2 + b2n (v == 4), (s.dev.pair o i).scanAt 3 + b2n (v == 0), (s.dev.pair o i).scanAt 4] } ∧
            s.dev.PairsBut o i u.dev ∧ Keeps [.mbox] s u))))) ∧
  (∀ (s : State) (id b1 b2 : Nat) (r : Req) (t key res : List Byte) (es : List (Nat × List Byte)), s.dev.req? id = some r → t = r.td →
    key = r.data.take (tdKsize t) → res = slice r.data (tdKsize t) (tdRsize t) → s.dev.mem.sErr = [] → s.dev.injArmed = false →
    (∀ x y : Req, x ∈ s.dev.txn.reqs → y ∈ s.dev.txn.reqs → x.id = y.id → x = y) → r.ctx = true → r.ready = false → r.st = .issued →
    r.begun = true → r.spend = 0 → r.sdata = [] → s.dev.streamBlocked r = false →
    (emEntry t = 16 → emBuckets t key = (b1, b2) → b1 % 64 = 0 → b2 % 64 = 0 → inSram b1 = true → inSram b2 = true →
      (∃ (g : Region), s.dev.placeAt b1 = some (g, b1)) → (∃ (g : Region), s.dev.placeAt b2 = some (g, b2)) →
      s.dev.earlier r.ord (placeUnit b1) = false → s.dev.earlier r.ord (placeUnit b2) = false →
      es = bucketEntries t b1 (s.dev.sramBytes b1 64) ++ (if b1 = b2 then [] else bucketEntries t b2 (s.dev.sramBytes b2 64)) →
      (r.opc = .emLookup →
        (∀ (a : Nat) (e : List Byte), emFind t key es = some (a, e) → Completes (.stepDataReturn id) s (fun u =>
          s.dev.TableEnded r .ok 0 ([1, 0, 0, 0] ++ slice e (4 + tdKsize t) (tdRsize t)) u.dev ∧ s.dev.Counts (r.home / 16) bSlalom 0x88 1 u.dev ∧
          Keeps [.txn, .ctr] s u)) ∧
        (emFind t key es = none → Completes (.stepDataReturn id) s (fun u =>
          s.dev.TableEnded r .ok 0 [0, 0, 0, 0] u.dev ∧ Keeps [.txn, .ctr] s u))) ∧
      (r.opc = .emInsert →
        (∀ (a : Nat) (e : List Byte), emFind t key es = some (a, e) → Completes (.stepDataReturn id) s (fun u =>
          s.dev.TableEnded r .ok 0 [1] u.dev ∧ s.dev.SramStored a (overlay e (4 + tdKsize t) res) u.dev ∧ Keeps [.txn, .mem, .ctr] s u)) ∧
        (∀ (a : Nat) (e : List Byte), emFind t key es = none → es.find? (fun x => !bit (leAt x.2 0 1) 0) = some (a, e) →
          Completes (.stepDataReturn id) s (fun u => s.dev.TableEnded r .ok 0 [0] u.dev ∧
            s.dev.SramStored a (padTo 16 ([1, 0, 0, 0] ++ key ++ res)) u.dev ∧ Keeps [.txn, .mem, .ctr] s u)) ∧
        (emFind t key es = none → (∀ x : Nat × List Byte, x ∈ es → bit (leAt x.2 0 1) 0 = true) → Completes (.stepDataReturn id) s (fun u =>
          s.dev.TableEnded r .tableFull 0x0601 [] u.dev ∧ Keeps [.txn, .ctr] s u))) ∧
      (r.opc = .emDelete →
        (∀ (a : Nat) (e : List Byte), emFind t key es = some (a, e) → Completes (.stepDataReturn id) s (fun u =>
          s.dev.TableEnded r .ok 0 [1] u.dev ∧ s.dev.SramStored a (List.replicate 16 0) u.dev ∧ Keeps [.txn, .mem, .ctr] s u)) ∧
        (emFind t key es = none → Completes (.stepDataReturn id) s (fun u =>
          s.dev.TableEnded r .ok 0 [0] u.dev ∧ Keeps [.txn, .ctr] s u)))) ∧
    (∀ a w : Nat, r.opc = .lpmLookup → r.step = 0 → r.pos = 0 → r.bestV = false → r.best = 0 → r.blen = 0 → r.node = tdBase t →
      a = tdBase t + 8 * keyBits r.data 0 (tdStride t 1) → a % 8 = 0 → inSram a = true →
      (∃ (g : Region), s.dev.placeAt (a / 64 * 64) = some (g, a / 64 * 64)) → s.dev.earlier r.ord (placeUnit (a / 64 * 64)) = false →
      w = leAt (s.dev.sramBytes a 8) 4 4 → bit w 30 = false → Completes (.stepDataReturn id) s (fun u =>
        s.dev.TableEnded r .ok 0 (if bit w 31 then [1, byte (bits w 22 8), 0, 0] ++ leBytes 4 (leAt (s.dev.sramBytes a 8) 0 4) else [0, 0, 0, 0]) u.dev ∧
        s.dev.Counts (r.home / 16) bSlalom 0x90 1 u.dev ∧ Keeps [.txn, .ctr] s u)))

/-- R184, R188, R336, R337: QUEUE_FLUSH empties its queue and returns its cells, QUEUE_CLR_OVR clears and reports OVERRUN, both in their
queue's order; a frozen queue is not flushed. QUEUE_RECOVER empties the frozen queues where what they count is what no other holder has,
and otherwise raises FS001 and is RECOVER_FAILED. Stated where no SRAM error and no armed injection waits, recovery of one frozen
queue where no request is under way. -/
def Obligations.QueueCommands : Prop :=
  ∀ (s : State) (o i q : Nat) (y : Queue), q = leAt (s.dev.par o i) 0 4 → y = s.dev.queue q → s.dev.mem.sErr = [] → s.dev.injArmed = false →
    (s.dev.Ready o i 0x0701 →
      (s.dev.queueHolds o i true = false → y.frozen = false → Completes (.queueFlush o i) s (fun t => ∃ m : Dev,
        Finishes o i 0 (leBytes 4 y.descs.length ++ leBytes 4 y.pkts) m s t ∧
        (m.queue q).occ = 0 ∧ (m.queue q).pkts = 0 ∧ (m.queue q).descs = [] ∧ (m.queue q).drops = y.drops ∧ (m.queue q).overrun = y.overrun ∧
        m.qm.cellFree = s.dev.qm.cellFree + y.descs.length ∧ m.qm.cellQueued = s.dev.qm.cellQueued - y.descs.length ∧
        (∀ p : Nat, p ≠ q → m.queue p = s.dev.queue p) ∧ Dev.Keeps [.qm] s.dev m)) ∧
      (s.dev.queueHolds o i true = false → y.frozen = true → Completes (.queueFlush o i) s (fun t => Finishes o i 0x0702 [] s.dev s t)) ∧
      (s.dev.queueHolds o i true = true → exec (.queueFlush o i) s = .next s)) ∧
    (s.dev.Ready o i 0x0704 →
      (s.dev.queueHolds o i false = false → Completes (.queueClrOvr o i) s (fun t => ∃ m : Dev, Finishes o i 0 [byte (b2n y.overrun)] m s t ∧
        m.queue q = { y with overrun := false } ∧ (∀ p : Nat, p ≠ q → m.queue p = s.dev.queue p) ∧ Dev.Keeps [.qm] s.dev m)) ∧
      (s.dev.queueHolds o i false = true → exec (.queueClrOvr o i) s = .next s)) ∧
    (s.dev.Ready o i 0x0702 → s.dev.txn.reqs = [] → s.dev.qm.opens = [] → s.dev.unitsInUse = [] →
      (s.dev.qm.queue = [] → s.dev.qm.cellUsed = [] → s.dev.qm.unitUsed = [] → Completes (.queueRecover o i) s (fun t =>
        Finishes o i 0 (List.replicate 12 0) s.dev s t)) ∧
      (∀ (k : Nat) (z : Queue), s.dev.qm.queue = [(k, z)] → z.frozen = true →
        (s.dev.qm.cellUsed.length = z.occ → s.dev.qm.unitUsed.length = z.mid.length → Completes (.queueRecover o i) s (fun t => ∃ m : Dev,
          Finishes o i 0 (leBytes 4 1 ++ leBytes 4 z.occ ++ leBytes 4 (4 * z.mid.length)) m s t ∧
          (m.queue k).frozen = false ∧ (m.queue k).occ = 0 ∧ (m.queue k).descs = [] ∧ Dev.Keeps [.qm] s.dev m)) ∧
        (s.dev.qm.cellUsed.length ≠ z.occ → Completes (.queueRecover o i) s (fun t => ∃ m : Dev, Finishes o i 0x0701 [] m s t ∧
          s.dev.Raised 1 { kind := 17, inst := 3, a := 0xFF, c := ofSigned 32 ((s.dev.qm.cellUsed.length : Int) - z.occ) } m ∧
          Dev.Keeps faultParts s.dev m ∧ s.dev.Noted [] [] [1] m))))

/-! ### Faults and telemetry -/

/-- R339 to R341, R417 to R419, R483: TELEM_SNAP takes a snapshot of every counter; FAULT_CLEAR clears a held source and reports whether it
stopped an escalation, which a clear stamped at or after the timer's end does not; FAULT_REACT sets reactions that R419 does not forbid;
FAULT_RAISE raises its source as injected; ERR_CTRL drives ERR_N or releases it, at the end of the minimum pulse where one runs, and does nothing to a pin that
PWRGD or RESET_N holds released (R32). -/
def Obligations.FaultCommands : Prop :=
  ∀ (s : State) (o i n set ms : Nat) (x : Source), n = leAt (s.dev.par o i) 0 1 → x = s.dev.src n →
    (s.dev.Ready o i 0x0901 → s.dev.clk.mode ≠ .boot → Completes (.telemSnap o i) s (fun t => ∃ m : Dev, Finishes o i 0 (leBytes 8 s.dev.dt) m s t ∧
      m.telem.ctrHold = s.dev.ctr ∧ m.telem.snapSeq = (s.dev.telem.snapSeq + 1) % 2 ^ 32 ∧ m.telem.snapDt = s.dev.dt ∧ m.telem.snapSrc = o ∧
      (s.dev.FirstAt 10 2 → m.telem.ring = s.dev.telem.ring ∧ m.telem.next = s.dev.telem.next) ∧ Dev.Keeps [.telem] s.dev m)) ∧
    (s.dev.Ready o i 0x0A02 → n ≠ 45 →
      ((∀ e : Nat, x.esc = some e → (s.dev.pair o i).stamp < e) →
        (x.held = true → Completes (.faultClear o i) s (fun t => ∃ m : Dev, Finishes o i 0 [byte (b2n x.esc.isSome)] m s t ∧
          m.src n = { x with held := false, esc := none, brst := false } ∧ (∀ k : Nat, k ≠ n → m.src k = s.dev.src k) ∧
          m.fault = { s.dev.fault with src := m.fault.src } ∧ Dev.Keeps [.fault] s.dev m)) ∧
        (x.held = false → Completes (.faultClear o i) s (fun t => Finishes o i 0 [0] s.dev s t))) ∧
      (∀ e : Nat, x.esc = some e → e ≤ (s.dev.pair o i).stamp → e ≤ s.dev.dt → x.held = true → bit (s.dev.reactOf n) 2 = false →
        bit (s.dev.reactOf n) 3 = false → Completes (.faultClear o i) s (fun t => ∃ m : Dev, Finishes o i 0 [0] m s t ∧
          m.src n = { x with held := false, esc := none, brst := false } ∧ (∀ k : Nat, k ≠ n → m.src k = s.dev.src k) ∧ Dev.Keeps [.fault] s.dev m))) ∧
    (s.dev.Ready o i 0x0A02 → n = 45 → x.held = true → x.esc = none → Completes (.faultClear o i) s (fun t => ∃ m : Dev, Finishes o i 0 [0] m s t ∧
      (m.src 45).held = false ∧ (∀ k : Nat, k < 227 → (m.dom k).suspended = false ∧ ((s.dev.dom k).suspended = true → (m.dom k).fails = 0)) ∧
      Dev.Keeps [.fault, .therm, .otp] s.dev m)) ∧
    (s.dev.Ready o i 0x0A03 → set = leAt (s.dev.par o i) 1 1 → ms = leAt (s.dev.par o i) 2 2 →
      (reactForbidden n set ms = false → Completes (.faultReact o i) s (fun t => ∃ m : Dev, Finishes o i 0 [] m s t ∧
        m.csrAt 0 bFault (0x400 + 4 * n) = word (set + ms * 65536) ∧ s.dev.RegsBut [regKey 0 bFault (0x400 + 4 * n)] m ∧ Dev.Keeps [.csr] s.dev m)) ∧
      (reactForbidden n set ms = true → Completes (.faultReact o i) s (fun t => Finishes o i 0x0A01 [] s.dev s t))) ∧
    (s.dev.Ready o i 0x0A04 → n ≠ 2 → n ≠ 162 → Completes (.faultRaise o i) s (fun t => ∃ m : Dev, Finishes o i 0 [] m s t ∧
      s.dev.Raised n { detailOf (slice (s.dev.par o i) 2 30) with step := 0, injected := true } m ∧
      Dev.Keeps faultParts s.dev m ∧ s.dev.Noted [] [] [n] m)) ∧
    (s.dev.Ready o i 0x0A05 → s.dev.pinsOn = false → Completes (.errCtrl o i) s (fun t => Finishes o i 0 [byte (b2n s.dev.fault.errLow)] s.dev s t)) ∧
    (s.dev.Ready o i 0x0A05 → s.dev.pinsOn = true →
      (n = 1 → Completes (.errCtrl o i) s (fun t => ∃ m : Dev, Finishes o i 0 [1] m s t ∧
        m.fault = { s.dev.fault with errLow := true, errRel := false } ∧ Dev.Keeps [.fault] s.dev m)) ∧
      (n = 0 → s.dev.fault.errMin = none → Completes (.errCtrl o i) s (fun t => ∃ m : Dev, Finishes o i 0 [0] m s t ∧
        m.fault = { s.dev.fault with errLow := false, errRel := false } ∧ Dev.Keeps [.fault] s.dev m)) ∧
      (∀ e : Nat, n = 0 → s.dev.fault.errMin = some e → e ≤ s.dev.dt → Completes (.errCtrl o i) s (fun t => ∃ m : Dev, Finishes o i 0 [0] m s t ∧
        m.fault = { s.dev.fault with errLow := false, errRel := false, errMin := none } ∧ Dev.Keeps [.fault] s.dev m)) ∧
      (∀ e : Nat, n = 0 → s.dev.fault.errMin = some e → s.dev.dt < e → Completes (.errCtrl o i) s (fun t => ∃ m : Dev,
        Finishes o i 0 [byte (b2n s.dev.fault.errLow)] m s t ∧
        m.fault = { s.dev.fault with errRel := s.dev.fault.errLow } ∧ Dev.Keeps [.fault] s.dev m)))

/-- R302, R414, R416 to R419, R426 to R428, R475: what the collector does at its timers and for writes of its registers. An escalation takes a
block reset once, stated for FS121, which waits where the channel's island is stopped (R379), then CRST 10 µs later; a write of HELD_n clears, one of REACT_n that is forbidden sets REACT_REJ; the
minimum pulse of ERR_N ends; a checker injection is taken in its mode; a read of a log entry's last word frees it; a census check counts,
and a law that fails raises FS001 and takes a snapshot. A partner is answered DENIED, and its read frees nothing. -/
def Obligations.FaultCollector : Prop :=
  ∀ (s : State) (p : Path) (n k j : Nat) (v : Word) (b : BootEnv) (x : Source), n < 256 → x = s.dev.src n →
    (x.held = true → due x.esc s.dev.dt = true → s.dev.clearAhead n = false →
      (bit (s.dev.reactOf n) 2 = false ∨ x.brst = true → bit (s.dev.reactOf n) 3 = false → Completes (.escalationExpiry n) s (fun t =>
        t.dev.src n = { x with esc := none } ∧ (∀ q : Nat, q ≠ n → t.dev.src q = s.dev.src q) ∧ Keeps [.fault] s t)) ∧
      (n = 121 → bit (s.dev.reactOf n) 2 = true → x.brst = false → s.dev.escMs n ≠ 0 → s.dev.serving x.detail.inst = true →
        s.dev.phyRuns x.detail.inst = true → (s.dev.ch x.detail.inst).st ≠ .selfref → Completes (.escalationExpiry n) s (fun t =>
          (t.dev.src n).brst = true ∧ (t.dev.src n).esc = some (s.dev.dt + 1000000 * s.dev.escMs n) ∧ (t.dev.src n).held = true ∧
          (t.dev.ch x.detail.inst).sr = some .sre ∧ (t.dev.ch x.detail.inst).srxNext = true ∧ s.dev.ChansBut x.detail.inst t.dev ∧
          s.dev.Counts 0 bFault 0x88 1 t.dev ∧ Keeps (.dram :: faultParts) s t)) ∧
      (n = 121 → bit (s.dev.reactOf n) 2 = true → x.brst = false → s.dev.escMs n ≠ 0 → s.dev.phyRuns x.detail.inst = false →
        Completes (.escalationExpiry n) s (fun t =>
          (t.dev.src n).brst = true ∧ (1, x.detail.inst) ∈ t.dev.fault.brstWait ∧ s.dev.Counts 0 bFault 0x88 1 t.dev ∧ Keeps faultParts s t)) ∧
      (n ≠ 2 → n ≠ 162 → bit (s.dev.reactOf n) 2 = false ∨ x.brst = true → bit (s.dev.reactOf n) 3 = true → s.dev.fault.crst = none →
        Completes (.escalationExpiry n) s (fun t =>
          t.dev.fault.crst = some (s.dev.dt + 10000, n) ∧ (t.dev.src n).esc = none ∧ (t.dev.src n).held = true ∧ Keeps faultParts s t))) ∧
    (x.held = false ∨ due x.esc s.dev.dt = false ∨ s.dev.clearAhead n = true → exec (.escalationExpiry n) s = .next s) ∧
    (s.dev.FullPath p →
      (k < 8 → j < 32 → n = 32 * k + j → v = word (2 ^ j) → n ≠ 45 → due x.esc s.dev.dt = false → Completes (.heldClearWrite p k v) s (fun t =>
        t.dev.src n = (if x.held then { x with held := false, esc := none, brst := false } else x) ∧ (∀ q : Nat, q ≠ n → t.dev.src q = s.dev.src q) ∧
        s.dev.Accessed .ok 0 t.dev ∧ Keeps [.fault, .mgmt] s t)) ∧
      (reactForbidden n (bits v.toNat 0 5) (bits v.toNat 16 16) = false → Completes (.reactWrite p n v) s (fun t =>
        t.dev.csrAt 0 bFault (0x400 + 4 * n) = word (bits v.toNat 0 5 + bits v.toNat 16 16 * 65536) ∧
        s.dev.RegsBut [regKey 0 bFault (0x400 + 4 * n)] t.dev ∧ s.dev.Accessed .ok 0 t.dev ∧ Keeps [.csr, .mgmt] s t)) ∧
      (reactForbidden n (bits v.toNat 0 5) (bits v.toNat 16 16) = true → Completes (.reactWrite p n v) s (fun t =>
        s.dev.Marks 0 bFault 0x44 4 t.dev ∧ s.dev.RegsBut [regKey 0 bFault 0x44] t.dev ∧ s.dev.Accessed .ok 0 t.dev ∧ Keeps [.csr, .mgmt] s t)) ∧
      (s.dev.pinsOn = false → Completes (.errDriveWrite p v) s (fun t => s.dev.Accessed .ok 0 t.dev ∧ Keeps [.mgmt] s t)) ∧
      (s.dev.pinsOn = true → bit v.toNat 0 = true → Completes (.errDriveWrite p v) s (fun t =>
        t.dev.fault = { s.dev.fault with errLow := true, errRel := false } ∧ s.dev.Accessed .ok 0 t.dev ∧ Keeps [.fault, .mgmt] s t)) ∧
      (∀ e : Nat, s.dev.pinsOn = true → bit v.toNat 0 = false → s.dev.fault.errMin = some e → s.dev.dt < e → Completes (.errDriveWrite p v) s (fun t =>
        t.dev.fault = { s.dev.fault with errRel := s.dev.fault.errLow } ∧ s.dev.Accessed .ok 0 t.dev ∧ Keeps [.fault, .mgmt] s t)) ∧
      (bits v.toNat 0 2 = 2 → bit v.toNat 31 = true → s.dev.otp.lc = .manufacture → (s.dev.clk.mode = .maint → Completes (.chkInjArm p v) s (fun t =>
          t.dev.fault = { s.dev.fault with injLock := true } ∧ s.dev.Marks 0 bFault 0x44 8 t.dev ∧
          s.dev.RegsBut [regKey 0 bFault 0x44, regKey 0 bFault 0x50] t.dev ∧ s.dev.Accessed .ok 0 t.dev ∧ Keeps [.fault, .csr, .mgmt] s t)) ∧
        (s.dev.clk.mode ≠ .maint → Completes (.chkInjArm p v) s (fun t => s.dev.Accessed .ok 0 t.dev ∧ Keeps [.mgmt] s t))) ∧
      (k < 32 → Completes (.faultLogRead p k) s (fun t =>
        t.dev.logAt k = { s.dev.logAt k with unread := false } ∧ (∀ q : Nat, q ≠ k → t.dev.logAt q = s.dev.logAt q) ∧
        t.dev.fault = { s.dev.fault with log := t.dev.fault.log } ∧ Keeps [.fault, .latch, .mgmt] s t))) ∧
    (j < 64 → (∀ (c : Instr), c = .reactWrite (.partner j) n v ∨ c = .errDriveWrite (.partner j) v ∨ c = .chkInjArm (.partner j) v →
        Completes c s (fun t => s.dev.Accessed .denied 0 t.dev ∧ Keeps [.mgmt] s t)) ∧
      (k < 32 → Completes (.faultLogRead (.partner j) k) s (fun t => Keeps [.latch, .mgmt] s t))) ∧
    (due s.dev.fault.errMin s.dev.dt = true → Completes .errPulseEnd s (fun t => t.dev.fault = { s.dev.fault with
      errMin := none, errLow := s.dev.fault.errLow && !s.dev.fault.errRel, errRel := false } ∧ Keeps [.fault] s t)) ∧
    (due s.dev.fault.errMin s.dev.dt = false → exec .errPulseEnd s = .next s) ∧
    (1 ≤ k → k ≤ 5 → j < 4 → ∀ (c : Nat), c < 64 → s.dev.censusOn = true →
      (s.dev.fault.injLaw = none → s.dev.lawDiff k c j = 0 → Completes (.censusCheck k c j) s (fun t =>
        s.dev.Counts 0 bFault 0x98 1 t.dev ∧ s.dev.CtrsBut [regKey 0 bFault 0x98] t.dev ∧ Keeps [.ctr] s t)) ∧
      (s.dev.fault.injLaw = none → s.dev.lawDiff k c j ≠ 0 → Completes (.censusCheck k c j) s (fun t =>
        s.dev.Raised 1 { kind := 17, inst := k, a := if k ≤ 2 then c else 0xFF, b := if k ≤ 2 then j else 0, c := ofSigned 32 (s.dev.lawDiff k c j) } t.dev ∧
        t.dev.telem.snapSrc = 101 ∧ t.dev.telem.snapDt = s.dev.dt ∧ Keeps faultParts s t ∧ s.dev.Noted [] [regKey 0 bFault 0x98] [1] t.dev)) ∧
      (s.dev.fault.injLaw = some k → Completes (.censusCheck k c j) s (fun t =>
        t.dev.fault.injLaw = none ∧ (t.dev.src 1).detail.injected = true ∧ (t.dev.src 1).lastDt = s.dev.dt ∧ t.dev.telem.snapSrc = 101 ∧
        Keeps faultParts s t ∧ s.dev.Noted [] [regKey 0 bFault 0x98] [1] t.dev))) ∧
    (∀ (c : Nat), s.dev.censusOn = false → 1 ≤ k → k ≤ 5 → c < 64 → j < 4 → exec (.censusCheck k c j) s = .next s) ∧
    (∀ e : Nat, s.dev.fault.crst = some (e, n) → s.dev.therm.shut = false →
      (e ≤ s.dev.dt → Completes (.faultCrstDelay b) s (fun t =>
        t.dev.pin.resetCause = 3 ∧ t.dev.pin.resetSource = n ∧ t.dev.pin.straps = s.dev.pin.straps ∧ t.dev.clk.mode = .boot ∧
        t.dev.fault.crst = none ∧ t.fuse = s.fuse ∧ t.pending = s.pending ∧ Dev.Keeps romParts {} t.dev)) ∧
      (s.dev.dt < e → exec (.faultCrstDelay b) s = .next s)) ∧
    (s.dev.fault.crst = none → exec (.faultCrstDelay b) s = .next s)

/-! ### Repair commands -/

/-- R342, R343, R433, R434, R437, R442, R455, R464: GRAFT_LINK places a role on the lowest free spare of its kind, or is answered
NO_SPARE, and with HOW 1 burns the entry where mode, life cycle and VPROG permit it; CHANNEL_RETIRE refuses in its order, and otherwise
degrades its channel, from which the queue manager's cells then move; SELFTEST_RUN answers the tests that failed, grafts a failing link, and burns no column without the window. -/
def Obligations.RepairCommands : Prop :=
  ∀ (s : State) (o i c l n k : Nat) (v : Word) (miss : List BurnMiss), c = leAt (s.dev.par o i) 0 1 → l = leAt (s.dev.par o i) 1 1 →
    (s.dev.Ready o i 0x0B02 →
      (64 ≤ c ∨ s.dev.retired c = true ∨ (s.dev.ch c).failed = true → Completes (.graftLink o i miss) s (fun t => Finishes o i 0x0F04 [] s.dev s t)) ∧
      (c < 64 → l < 48 → s.dev.retired c = false → (s.dev.ch c).failed = false →
        (leAt (s.dev.par o i) 2 1 = 0 →
          (s.dev.freeSpare c l = some n → Completes (.graftLink o i miss) s (fun t => ∃ m : Dev, Finishes o i 0 [byte (52 + n)] m s t ∧
            m.spare c n = { link := l, v := true, fused := false } ∧
            (∀ (x : Nat), s.dev.carrier c l = some x → m.spare c x = { s.dev.spare c x with link := 0x3F }) ∧
            (∀ (b : Nat) (x : Nat), x < 8 → b ≠ c ∨ (x ≠ n ∧ s.dev.carrier c l ≠ some x) → m.spare b x = s.dev.spare b x) ∧
            ((s.dev.ch c).markA ≠ some l → (s.dev.ch c).markB ≠ some l → m.ch c = s.dev.ch c) ∧ s.dev.ChansBut c m ∧
            ((s.dev.ch c).markA = some l → (m.ch c).markA = (s.dev.ch c).markB ∧ (m.ch c).markB = none ∧ (m.ch c).markFull = false) ∧
            m.graft = { s.dev.graft with spare := m.graft.spare, repairBy := some (s.dev.graft.repairBy.getD (s.dev.dt + 100000000)) } ∧
            s.dev.Raised 180 { kind := 5, inst := c, a := l } m ∧ s.dev.Marks 0 bGraft 0x320 1 m ∧ s.dev.Counts 0 bGraft 0x380 1 m ∧
            m.ecc = { s.dev.ecc with markWin := tabSet (fun _ => []) s.dev.ecc.markWin (64 * c + l) [] } ∧
            Dev.Keeps (.graft :: .dram :: .ecc :: faultParts) s.dev m ∧ s.dev.Noted [regKey 0 bGraft 0x320] [regKey 0 bGraft 0x380] [180] m)) ∧
          (s.dev.freeSpare c l = none → 36 ≤ l → Completes (.graftLink o i miss) s (fun t => ∃ m : Dev, Finishes o i 0x0B01 [] m s t ∧
            (m.ch c).failed = true ∧ s.dev.ChansBut c m ∧ s.dev.Raised 187 { kind := 5, inst := c, a := l } m ∧
            s.dev.Marks 0 bGraft 0x320 0x40 m ∧ Dev.Keeps (.graft :: .dram :: .mem :: faultParts) s.dev m ∧
            s.dev.Noted [regKey 0 bGraft 0x320] [] [187] m)) ∧
          (s.dev.freeSpare c l = none → l < 36 → (s.dev.ch c).marks.length = 2 →
            Completes (.graftLink o i miss) s (fun t => Finishes o i 0x0B01 [] s.dev s t)) ∧
          (s.dev.freeSpare c l = none → l < 36 → (s.dev.ch c).marks.length = 1 → l ∉ (s.dev.ch c).marks →
            Completes (.graftLink o i miss) s (fun t => ∃ m : Dev, Finishes o i 0x0B01 [] m s t ∧ l ∈ (m.ch c).marks ∧ s.dev.ChansBut c m ∧
              s.dev.Raised 134 { kind := 5, inst := c, a := l } m ∧ s.dev.Marks 0 bEcc 0x40 8 m ∧
              Dev.Keeps (.dram :: faultParts) s.dev m ∧ s.dev.Noted [regKey 0 bEcc 0x40] [] [134] m))) ∧
        (leAt (s.dev.par o i) 2 1 = 1 →
          (s.dev.clk.mode ≠ .maint → Completes (.graftLink o i miss) s (fun t => Finishes o i 0x0F02 [] s.dev s t)) ∧
          (s.dev.clk.mode = .maint → s.dev.otp.lc = .field ∨ s.dev.otp.lc = .ended →
            Completes (.graftLink o i miss) s (fun t => Finishes o i 0x0F03 [] s.dev s t)) ∧
          (s.dev.clk.mode = .maint → s.dev.otp.lc = .manufacture ∨ s.dev.otp.lc = .provision ∨ s.dev.otp.lc = .return →
            (s.dev.mayBurn = false → Completes (.graftLink o i miss) s (fun t => Finishes o i 0x0C05 [] s.dev s t)) ∧
            (s.dev.mayBurn = true → s.dev.carrier c l = none → s.dev.freeSpare c l = none →
              Completes (.graftLink o i miss) s (fun t => Finishes o i 0x0B01 [] s.dev s t)) ∧
            (s.dev.mayBurn = true → s.dev.carrier c l = some n → s.dev.emptyEntry s.fuse = none →
              Completes (.graftLink o i miss) s (fun t => Finishes o i 0x0C04 [] s.dev s t)) ∧
            (s.dev.mayBurn = true → s.dev.emptyEntry s.fuse = some k → s.dev.TakesBurn s.fuse miss k (linkEntry c l n) →
              s.dev.carrier c l = some n ∨ (s.dev.carrier c l = none ∧ s.dev.freeSpare c l = some n) →
              Completes (.graftLink o i miss) s (fun t => ∃ m : Dev, Burns o i 0 [byte (52 + n)] t.fuse m s t ∧
                s.fuse.Holds (fun j => if j = k then some (linkEntry c l n) else none) t.fuse ∧
                m.spare c n = { link := l, v := true, fused := true } ∧ (∀ (b : Nat) (x : Nat), x < 8 → b ≠ c ∨ x ≠ n → m.spare b x = s.dev.spare b x) ∧
                s.dev.Counts 0 bOtp 0x98 1 m ∧ Dev.Keeps (.graft :: .dram :: .ecc :: faultParts) s.dev m)))))) ∧
    (s.dev.Ready o i 0x0B03 →
      (64 ≤ c → Completes (.channelRetire o i) s (fun t => Finishes o i 0x0F04 [] s.dev s t)) ∧
      (c < 64 → (s.dev.retired c = true → Completes (.channelRetire o i) s (fun t => Finishes o i 0x0B03 [] s.dev s t)) ∧
        (s.dev.retired c = false → s.dev.chQuar c = true → Completes (.channelRetire o i) s (fun t => Finishes o i 0x0F05 [] s.dev s t)) ∧
        (s.dev.retired c = false → s.dev.chQuar c = false → s.dev.reserveHolds c = false →
          Completes (.channelRetire o i) s (fun t => Finishes o i 0x0B02 [] s.dev s t)) ∧
        (s.dev.retired c = false → s.dev.chQuar c = false → s.dev.reserveHolds c = true → Completes (.channelRetire o i) s (fun t =>
          ∃ m : Dev, Finishes o i 0 (leBytes 4 (s.dev.evacBlocks c).length) m s t ∧
          m.ch c = (if (s.dev.ch c).st = .active then { s.dev.ch c with st := .degraded } else { s.dev.ch c with wasDegraded := true }) ∧
          m.evacOf c = { s.dev.evacOf c with want := true, trig := none, moveDone := false, total := (s.dev.evacOf c).done + (s.dev.evacBlocks c).length } ∧
          (∀ b : Nat, b ≠ c → m.evacOf b = s.dev.evacOf b) ∧ m.movesPending = true ∧ s.dev.ChansBut c m ∧
          Dev.Keeps [.dram, .graft] s.dev m)))) ∧
    (s.dev.Ready o i 0x0B04 → ∀ (x : TestRes) (set : Nat), set = leAt (s.dev.par o i) 0 4 →
      (bit set 6 = false → bit set 7 = false → x.links = [] → x.trunk = [] → Completes (.selftestRun o i x miss) s (fun t => ∃ m : Dev,
        Finishes o i 0 (leBytes 4 (x.fail &&& set) ++ padTo 16 x.detail) m s t ∧ m.graft = { s.dev.graft with sdtFail := x.fail &&& set } ∧
        (x.fail &&& set ≠ 0 → s.dev.Raised 184 {} m) ∧ (bit set 8 = false → Dev.Keeps (.graft :: faultParts) s.dev m) ∧
        (bit set 8 = true → x.fail &&& set = 0 → (∀ a : Nat, m.sramByte a = 0) ∧ m.telem.ring = []) ∧ Dev.Keeps (.graft :: .mem :: faultParts) s.dev m)) ∧
      (set = 128 → x.fail = 0 → x.rows = [] → x.cols = [v.toNat] → s.dev.mayBurn = false → Completes (.selftestRun o i x miss) s (fun t => ∃ m : Dev,
        Finishes o i 0 (leBytes 4 128 ++ padTo 16 x.detail) m s t ∧ m.mem.blkValid = [] ∧ (∀ a : Nat, inSram a = true → m.byteAt a = s.dev.byteAt a) ∧
        m.graft = { s.dev.graft with sdtFail := 128 } ∧ s.dev.Raised 184 {} m ∧ Dev.Keeps (.graft :: .mem :: faultParts) s.dev m)) ∧
      (set = 1 → x.fail = 0 → x.links = [(c, l)] → x.trunk = [] → c < 64 → l < 48 → s.dev.serving c = true → s.dev.carrier c l = none →
        s.dev.freeSpare c l = some n → Completes (.selftestRun o i x miss) s (fun t => ∃ m : Dev,
          Finishes o i 0 (leBytes 4 0 ++ padTo 16 x.detail) m s t ∧ m.spare c n = { link := l, v := true, fused := false } ∧
          (∀ b y : Nat, y < 8 → b ≠ c ∨ y ≠ n → m.spare b y = s.dev.spare b y) ∧ s.dev.Raised 180 { kind := 5, inst := c, a := l } m ∧
          m.graft.sdtFail = 0 ∧ Dev.Keeps (.graft :: .dram :: .ecc :: faultParts) s.dev m)))

/-! ### One-time-programmable memory -/

/-- R344, R345, R454, R461 to R467: what each OTP command answers, and what it leaves of shadows, fuses and life-cycle state. The judgement
of an LC_ADVANCE signature is Config's (log 3), so both of its outcomes stand in the conclusion; the check reads the key slots it tries. -/
def Obligations.OtpCommands : Prop :=
  ∀ (s : State) (o i r w n k : Nat) (p : List Byte) (miss : List BurnMiss) (v : Nat → Word),
    p = s.dev.par o i → r = leAt p 0 1 → w = leAt p 1 1 → n = leAt p 2 1 → r < 32 → k = 64 * r + w →
    (s.dev.Ready o i 0x0C01 →
      (bit s.dev.otp.present r = false → Completes (.otpRead o i) s (fun t => Finishes o i 0x0C01 [] s.dev s t)) ∧
      (bit s.dev.otp.present r = true → bit s.dev.otp.rlock r = true ∨ r = 21 ∨ r = 22 ∨ r = 31 →
        Completes (.otpRead o i) s (fun t => Finishes o i 0x0C03 [] s.dev s t)) ∧
      (bit s.dev.otp.present r = true → bit s.dev.otp.rlock r = false → r ≠ 21 → r ≠ 22 → r ≠ 31 → w + n ≤ 64 →
        ((∀ j : Nat, j < n → s.dev.shadow (k + j) = some (v j)) → shadowUsed r = true → Completes (.otpRead o i) s (fun t =>
          Finishes o i 0 ((List.range n).flatMap (fun j => leBytes 4 (v j).toNat)) s.dev s t)) ∧
        ((∀ j : Nat, j < n → s.dev.shadow (k + j) = none ∧ otpJudge (s.dev.otpSense s.fuse (k + j)) = .good (v j)) →
          Completes (.otpRead o i) s (fun t => ∃ m : Dev, Finishes o i 0 ((List.range n).flatMap (fun j => leBytes 4 (v j).toNat)) m s t ∧
            s.dev.Counts 0 bOtp 0x80 n m ∧ s.dev.CtrsBut [regKey 0 bOtp 0x80] m ∧ Dev.Keeps [.ctr] s.dev m)) ∧
        (n = 1 → s.dev.shadow k = none → otpJudge (s.dev.otpSense s.fuse k) = .marginal → Completes (.otpRead o i) s (fun t =>
          ∃ m : Dev, Finishes o i 0x0C02 [] m s t ∧ bit m.otp.present r = false ∧ bit m.otp.marginal r = true ∧
          s.dev.Raised 191 { kind := 16, inst := r, a := w } m ∧ s.dev.Marks 0 bOtp 0x40 2 m ∧
          Dev.Keeps (.otp :: faultParts) s.dev m ∧ s.dev.Noted [regKey 0 bOtp 0x40] [regKey 0 bOtp 0x80] [191] m)))) ∧
    (s.dev.Ready o i 0x0C02 →
      (bit s.dev.otp.wlock r = true → Completes (.otpShadow o i) s (fun t => Finishes o i 0x0C04 [] s.dev s t)) ∧
      (bit s.dev.otp.wlock r = false → Completes (.otpShadow o i) s (fun t => ∃ m : Dev, Finishes o i 0 [] m s t ∧
        (∀ j : Nat, j < n → m.shadow (k + j) = some (word (leAt p (4 + 4 * j) 4))) ∧
        (∀ q : Nat, q < k ∨ k + n ≤ q → m.shadow q = s.dev.shadow q) ∧ m.otp = { s.dev.otp with shadow := m.otp.shadow } ∧
        (r ≠ 3 ∨ bit s.dev.otp.present 3 = false → Dev.Keeps [.otp] s.dev m) ∧
        (r = 3 → bit s.dev.otp.present 3 = true → (∀ l : Nat, w ≤ l → l < w + n → l < 21 → m.coef l = coefOfWord (word (leAt p (4 + 4 * (l - w)) 4))) ∧
          m.therm = { s.dev.therm with coef := m.therm.coef } ∧ Dev.Keeps [.otp, .therm] s.dev m)))) ∧
    (s.dev.Ready o i 0x0C03 →
      (s.dev.mayBurn = false → Completes (.otpProgram o i miss) s (fun t => Finishes o i 0x0C05 [0, 0] s.dev s t)) ∧
      (s.dev.mayBurn = true → bit s.dev.otp.wlock r = true → Completes (.otpProgram o i miss) s (fun t => Finishes o i 0x0C04 [] s.dev s t)) ∧
      (s.dev.mayBurn = true → bit s.dev.otp.wlock r = false → w + n ≤ 64 →
        (∀ j : Nat, j < n → s.dev.shadow (k + j) = some (v j) ∧ s.dev.TakesBurn s.fuse miss (k + j) (v j)) →
        Completes (.otpProgram o i miss) s (fun t => ∃ m : Dev, Burns o i 0 [byte n, byte n] t.fuse m s t ∧
          s.fuse.Holds (fun q => if k ≤ q ∧ q < k + n then some (v (q - k)) else none) t.fuse ∧
          s.dev.Counts 0 bOtp 0x98 n m ∧ s.dev.Counts 0 bOtp 0x80 n m ∧ s.dev.CtrsBut [regKey 0 bOtp 0x98, regKey 0 bOtp 0x80] m ∧
          Dev.Keeps [.ctr] s.dev m)) ∧
      (s.dev.mayBurn = true → bit s.dev.otp.wlock r = false → n = 1 → w < 64 →
        s.dev.shadow k = none ∨ (∃ x : Word, s.dev.shadow k = some x ∧ (s.fuse.wordA k ||| s.fuse.wordB k) &&& ~~~x ≠ 0) →
        Completes (.otpProgram o i miss) s (fun t => ∃ m : Dev, Finishes o i 0x0C06 [0, 0] m s t ∧
          s.dev.Raised 193 { kind := 16, inst := r, a := w } m ∧ s.dev.Marks 0 bOtp 0x40 8 m ∧ Dev.Keeps faultParts s.dev m)) ∧
      (s.dev.mayBurn = true → bit s.dev.otp.wlock r = false → n = 1 → w < 64 → s.dev.shadow k = some (v 0) →
        (s.fuse.wordA k ||| s.fuse.wordB k) &&& ~~~(v 0) = 0 →
        otpJudge (s.dev.otpSense (s.fuse.program miss k (v 0)) k) ≠ .good (v 0) →
        Completes (.otpProgram o i miss) s (fun t => ∃ m : Dev, Burns o i 0x0C06 [1, 0] (s.fuse.program miss k (v 0)) m s t ∧
          s.dev.Raised 193 { kind := 16, inst := r, a := w } m ∧ Dev.Keeps (.otp :: faultParts) s.dev m))) ∧
    (s.dev.Ready o i 0x0C04 →
      ((bit w 0 = true → bit s.fuse.wlock r = true) → (bit w 1 = true → bit s.fuse.rlock r = true) →
        Completes (.otpLock o i miss) s (fun t => Finishes o i 0 [] s.dev s t)) ∧
      ((bit w 0 = true ∧ bit s.fuse.wlock r = false) ∨ (bit w 1 = true ∧ bit s.fuse.rlock r = false) →
        (s.dev.otpSumOk s.fuse r = false → Completes (.otpLock o i miss) s (fun t => Finishes o i 0x0C07 [] s.dev s t)) ∧
        (s.dev.otpSumOk s.fuse r = true → s.dev.mayBurn = false → Completes (.otpLock o i miss) s (fun t => Finishes o i 0x0C05 [] s.dev s t)) ∧
        (s.dev.otpSumOk s.fuse r = true → s.dev.mayBurn = true → missOf miss (2048 + r) = (0, 0) →
          Completes (.otpLock o i miss) s (fun t => ∃ m : Dev, Burns o i 0 [] { s.fuse with
              wlA := s.fuse.wlA ||| (if bit w 0 then 2 ^ r else 0), wlB := s.fuse.wlB ||| (if bit w 0 then 2 ^ r else 0)
              rlA := s.fuse.rlA ||| (if bit w 1 then 2 ^ r else 0), rlB := s.fuse.rlB ||| (if bit w 1 then 2 ^ r else 0) } m s t ∧
            m.otp = { s.dev.otp with wlock := t.fuse.wlock, rlock := t.fuse.rlock } ∧ Dev.Keeps [.otp] s.dev m)))) ∧
    (s.dev.Ready o i 0x0C05 → ∀ x : LcSt, lcCode x = r →
      (lcAllowed s.dev.otp.lc x = false ∨ s.dev.otp.lcAbsent = true →
        Completes (.lcAdvance o i miss) s (fun t => Finishes o i 0x0C08 [] s.dev s t)) ∧
      (lcAllowed s.dev.otp.lc x = true → s.dev.otp.lcAbsent = false → s.dev.keySlot s.fuse w 2 = none →
        Completes (.lcAdvance o i miss) s (fun t => ∃ m : Dev, Finishes o i 0x0C09 [] m s t ∧ Dev.Keeps (.otp :: faultParts) s.dev m)) ∧
      (∀ (j : Nat) (g : Bool), lcAllowed s.dev.otp.lc x = true → s.dev.otp.lcAbsent = false → s.dev.keySlot s.fuse w 2 = some j →
        g = Config.lcSigOk (s.dev.keyDigest s.fuse j) (slice p 8 96)
          (Config.sha384 (leBytes 8 s.dev.otp.chipid ++ [byte (lcCode s.dev.otp.lc), byte r])) →
        (s.dev.mayBurn = false → Completes (.lcAdvance o i miss) s (fun t => ∃ m : Dev,
          Finishes o i (if g then 0x0C05 else 0x0C09) [] m s t ∧ Dev.Keeps (.otp :: faultParts) s.dev m)) ∧
        (s.dev.mayBurn = true → x ≠ .ended → s.dev.TakesBurn s.fuse miss (63 + r) (word (lcMark (r - 1))) →
          Completes (.lcAdvance o i miss) s (fun t => if g then
            ∃ m : Dev, Burns o i 0 [byte r] t.fuse m s t ∧ s.fuse.Holds (fun q => if q = 63 + r then some (word (lcMark (r - 1))) else none) t.fuse ∧
              m.otp = { s.dev.otp with
                lc := x, lcTorn := m.otp.lcTorn, present := m.otp.present, marginal := m.otp.marginal, onecopy := m.otp.onecopy
                lastWord := m.otp.lastWord, lastRegion := m.otp.lastRegion } ∧
              (m.otp.lcTorn = true ↔ ∃ j : Nat, j < 4 ∧ (m.otpVal t.fuse (64 + j)).toNat ≠ 0 ∧ (m.otpVal t.fuse (64 + j)).toNat ≠ lcMark j) ∧
              s.dev.Counts 0 bOtp 0x98 1 m ∧ Dev.Keeps (.otp :: faultParts) s.dev m
            else ∃ m : Dev, Finishes o i 0x0C09 [] m s t ∧ Dev.Keeps (.otp :: faultParts) s.dev m)) ∧
        (s.dev.mayBurn = true → x = .ended → miss = [] → s.dev.TakesBurn s.fuse [] 67 (word (lcMark 3)) →
          Completes (.lcAdvance o i miss) s (fun t => if g then
            ∃ m : Dev, Burns o i 0 [4] t.fuse m s t ∧ m.otp.lc = .ended ∧ bit m.otp.present 21 = false ∧ bit m.otp.present 22 = false ∧
              s.fuse.Holds (fun q => if q = 67 then some (word (lcMark 3))
                else if q / 64 = 21 ∨ q / 64 = 22 then (if q % 64 = 63 then none else some 0xFFFFFFFF) else none) t.fuse ∧
              (m.src 192).lastDt = s.dev.dt ∧ bit (m.csrAt 0 bOtp 0x40).toNat 2 = true ∧ Dev.Keeps (.otp :: faultParts) s.dev m
            else ∃ m : Dev, Finishes o i 0x0C09 [] m s t ∧ Dev.Keeps (.otp :: faultParts) s.dev m))))

/-- R456, R457, R460: a sweep starts on a mark and visits present regions' words, one sense at a time, until none is left. A sense
that is not good raises its source, a marginal one ends the region's presence, and at the last word of a locked region the checksum is
judged. The programming window closes at its time, with FS011 where VPROG is still up. A row whose conditions do not hold leaves the state as it is (log 5). -/
def Obligations.OtpController : Prop :=
  ∀ (s : State) (w q : Nat) (r : OtpSense) (x : Word), w < 2048 → q = w / 64 →
    (s.dev.otp.sweepNext = true → s.dev.otp.sweep = none → Completes .otpSweepStart s (fun t =>
      t.dev.otp = { s.dev.otp with sweepNext := false, sweep := some (s.dev.sweepFrom 0), sweepAt := some s.dev.dt } ∧ Keeps [.otp] s t)) ∧
    (s.dev.otp.sweepNext = false ∨ s.dev.otp.sweep ≠ none → exec .otpSweepStart s = .next s) ∧
    (bit s.dev.otp.present q = false → exec (.otpWordRead w r) s = .next s) ∧
    (bit s.dev.otp.present q = true →
      (otpJudge r = .good x → s.dev.otp.sweep ≠ some w → Completes (.otpWordRead w r) s (fun t =>
        tabGet (fun _ => 0) t.dev.otp.unst w = 0 ∧ (∀ k : Nat, k ≠ w → tabGet (fun _ => 0) t.dev.otp.unst k = tabGet (fun _ => 0) s.dev.otp.unst k) ∧
        t.dev.otp = { s.dev.otp with unst := t.dev.otp.unst } ∧ s.dev.Counts 0 bOtp 0x80 1 t.dev ∧
        s.dev.CtrsBut [regKey 0 bOtp 0x80] t.dev ∧ Keeps [.otp, .ctr] s t)) ∧
      (otpJudge r = .good x → s.dev.otp.sweep = some w → w % 64 ≠ 63 → Completes (.otpWordRead w r) s (fun t =>
        t.dev.otp.sweep = some (s.dev.sweepFrom (w + 1)) ∧ t.dev.otp.wlock = s.fuse.wlock ∧ t.dev.otp.rlock = s.fuse.rlock ∧
        t.dev.otp.present = s.dev.otp.present ∧ s.dev.Counts 0 bOtp 0x80 1 t.dev ∧ Keeps [.otp, .ctr] s t)) ∧
      (otpJudge r = .good x → s.dev.otp.sweep = some w → w % 64 = 63 → tabGet (fun _ => 0) s.dev.otp.unst w = 0 →
        bit s.fuse.wlock q = true ∨ bit s.fuse.rlock q = true → s.dev.otpSumOk s.fuse q = false → bit s.dev.otp.marginal q = false →
        Completes (.otpWordRead w r) s (fun t => bit t.dev.otp.present q = false ∧ bit t.dev.otp.sealed q = true ∧
          s.dev.Raised 192 { kind := 16, inst := q, a := 63 } t.dev ∧ s.dev.Marks 0 bOtp 0x40 4 t.dev ∧ Keeps (.otp :: faultParts) s t)) ∧
      (otpJudge r = .one x → s.dev.otp.sweep ≠ some w → Completes (.otpWordRead w r) s (fun t =>
        bit t.dev.otp.onecopy q = true ∧ t.dev.otp.present = s.dev.otp.present ∧ s.dev.Counts 0 bOtp 0x88 1 t.dev ∧
        s.dev.Raised 190 { kind := 16, inst := q, a := w % 64 } t.dev ∧ s.dev.Marks 0 bOtp 0x40 1 t.dev ∧ Keeps (.otp :: faultParts) s t ∧
        s.dev.Noted [regKey 0 bOtp 0x40] [regKey 0 bOtp 0x80, regKey 0 bOtp 0x88] [190] t.dev)) ∧
      (otpJudge r = .marginal → s.dev.otp.sweep ≠ some w → Completes (.otpWordRead w r) s (fun t =>
        bit t.dev.otp.present q = false ∧ bit t.dev.otp.marginal q = true ∧ t.dev.otp.lastRegion = q ∧ t.dev.otp.lastWord = w % 64 ∧
        s.dev.Raised 191 { kind := 16, inst := q, a := w % 64 } t.dev ∧ s.dev.Marks 0 bOtp 0x40 2 t.dev ∧ Keeps (.otp :: faultParts) s t ∧
        s.dev.Noted [regKey 0 bOtp 0x40] [regKey 0 bOtp 0x80] [191] t.dev))) ∧
    (∀ k : Nat, s.dev.otp.sweep = some k →
      (2048 ≤ s.dev.sweepFrom k → Completes .otpSweepEnd s (fun t =>
        t.dev.otp = { s.dev.otp with sweep := none } ∧ s.dev.Counts 0 bOtp 0x90 1 t.dev ∧ s.dev.CtrsBut [regKey 0 bOtp 0x90] t.dev ∧
        s.dev.Marks 0 bOtp 0x40 32 t.dev ∧ s.dev.RegsBut [regKey 0 bOtp 0x40] t.dev ∧ Keeps [.otp, .ctr, .csr] s t)) ∧
      (s.dev.sweepFrom k < 2048 → exec .otpSweepEnd s = .next s)) ∧
    (s.dev.otp.sweep = none → exec .otpSweepEnd s = .next s) ∧
    (due s.dev.otp.win s.dev.dt = true →
      (s.dev.leavesVprog = false → Completes .progWindowExpiry s (fun t => t.dev.otp = { s.dev.otp with win := none } ∧ Keeps [.otp] s t)) ∧
      (s.dev.leavesVprog = true → Completes .progWindowExpiry s (fun t =>
        s.dev.VprogLeft t.dev ∧ Keeps (.otp :: .pin :: faultParts) s t ∧ s.dev.Noted [] [] [11] t.dev))) ∧
    (due s.dev.otp.win s.dev.dt = false → exec .progWindowExpiry s = .next s)

/-- R471: a write of PROG_CTRL by a partner or outside MAINT is ignored, and so is one whose PROG_S lies outside 1 to 60. Otherwise PROG_S is
taken; the window opens for PROG_S seconds where none is open, keeps its end where one is, and closes by OPEN 0, with FS011 where VPROG is still up (R37). -/
def Obligations.ProgrammingWindow : Prop :=
  ∀ (s : State) (p : Path) (v : Word) (z : Nat), z = fld v 8 8 → pathOk p = true →
    (s.dev.mayWrite p = true → s.dev.clk.mode = .maint → 1 ≤ z → z ≤ 60 →
      (s.dev.otp.win = none → Completes (.progWindowOpen p v) s (fun t =>
        t.dev.otp = { s.dev.otp with win := some (s.dev.dt + 1000000000 * z) } ∧ t.dev.csrAt 0 bOtp 0x14 = word (256 * z) ∧
        s.dev.RegsBut [regKey 0 bOtp 0x14] t.dev ∧ Keeps [.otp, .csr] s t)) ∧
      (s.dev.otp.win ≠ none → Completes (.progWindowOpen p v) s (fun t =>
        t.dev.csrAt 0 bOtp 0x14 = word (256 * z) ∧ s.dev.RegsBut [regKey 0 bOtp 0x14] t.dev ∧ Keeps [.csr] s t)) ∧
      (s.dev.leavesVprog = false → Completes (.progWindowClose p v) s (fun t =>
        t.dev.otp = { s.dev.otp with win := none } ∧ t.dev.csrAt 0 bOtp 0x14 = word (256 * z) ∧
        s.dev.RegsBut [regKey 0 bOtp 0x14] t.dev ∧ Keeps [.otp, .csr] s t)) ∧
      (s.dev.leavesVprog = true → Completes (.progWindowClose p v) s (fun t =>
        s.dev.VprogLeft t.dev ∧ t.dev.csrAt 0 bOtp 0x14 = word (256 * z) ∧ Keeps (.otp :: .pin :: faultParts) s t ∧
        s.dev.Noted [regKey 0 bOtp 0x14] [] [11] t.dev))) ∧
    (s.dev.mayWrite p = false ∨ s.dev.clk.mode ≠ .maint ∨ z = 0 ∨ 60 < z →
      exec (.progWindowOpen p v) s = .next s ∧ exec (.progWindowClose p v) s = .next s) ∧
    (s.dev.PathOpen p → pathIx p < 64 ∨ s.dev.clk.mode ≠ .maint ∨ z = 0 ∨ 60 < z → Completes (.registerWrite p 0x040014 v) s (fun t =>
      s.dev.Accessed .ok 0 t.dev ∧ Keeps [.mgmt] s t)) ∧
    (s.dev.PathOpen p → 64 ≤ pathIx p → s.dev.clk.mode = .maint → 1 ≤ z → z ≤ 60 → bit v.toNat 0 = false → s.dev.leavesVprog = true →
      Completes (.registerWrite p 0x040014 v) s (fun t => s.dev.VprogLeft t.dev ∧ t.dev.csrAt 0 bOtp 0x14 = word (256 * z) ∧
        s.dev.Accessed .ok 0 t.dev ∧ Keeps (.otp :: .pin :: .mgmt :: faultParts) s t ∧ s.dev.Noted [regKey 0 bOtp 0x14] [] [11] t.dev)) ∧
    (s.dev.PathOpen p → 64 ≤ pathIx p → s.dev.clk.mode = .maint → 1 ≤ z → z ≤ 60 → bit v.toNat 0 = true ∨ s.dev.leavesVprog = false →
      Completes (.registerWrite p 0x040014 v) s (fun t =>
      t.dev.otp.win = (if bit v.toNat 0 then some (s.dev.otp.win.getD (s.dev.dt + 1000000000 * z)) else none) ∧
      t.dev.csrAt 0 bOtp 0x14 = word (256 * z) ∧ s.dev.Accessed .ok 0 t.dev ∧ Keeps [.otp, .csr, .mgmt] s t))

/-! ### Firmware update -/

/-- R313, R315, R316, R346, R347: FW_BEGIN erases the slot not ACTIVE and opens a session; FW_WRITE writes it; FW_VERIFY judges the image,
which is Config's (log 3), so both of its outcomes stand in the conclusion, and reads the key slots it tries (R454); FW_ACTIVATE waits for running commands and switches, or is
refused with its reason; FW_CONFIRM ends the trial, and without it the revert at the deadline brings the old image back with FS165. -/
def Obligations.FirmwareUpdate : Prop :=
  ∀ (s : State) (o i n off len : Nat) (p : List Byte) (u : MboxU) (ok : Bool), p = s.dev.par o i → u = s.dev.mbox → n = s.dev.updSlot →
    (s.dev.Ready o i 0x0D01 →
      (u.trial = true ∨ (s.dev.updOther o = true ∧ o ≠ 64) → Completes (.fwBegin o i) s (fun t => Finishes o i 0x0F05 [] s.dev s t)) ∧
      (u.trial = false → s.dev.updOther o = false ∨ o = 64 → Completes (.fwBegin o i) s (fun t => ∃ m : Dev, Finishes o i 0 [byte n] m s t ∧
        m.mbox = { u with updOpen := some o, updLen := leAt p 0 4, updBytes := [], updOk := false } ∧
        (∀ a : Nat, slotAt n ≤ a → a < slotAt n + 0x71000 → m.flashAt a 1 = [0xFF]) ∧
        (∀ a : Nat, a < slotAt n ∨ slotAt n + 0x71000 ≤ a → m.flashAt a 1 = s.dev.flashAt a 1) ∧
        m.boot = { s.dev.boot with flash := m.boot.flash } ∧ Dev.Keeps [.boot, .mbox] s.dev m))) ∧
    (s.dev.Ready o i 0x0D02 → off = leAt p 0 4 → len = (p.drop 8).length →
      (s.dev.updOther o = true → Completes (.fwWrite o i) s (fun t => Finishes o i 0x0F05 [] s.dev s t)) ∧
      (u.updOpen = none → Completes (.fwWrite o i) s (fun t => Finishes o i 0x0D03 [] s.dev s t)) ∧
      (u.updOpen = some o → Completes (.fwWrite o i) s (fun t => ∃ m : Dev, Finishes o i 0 [] m s t ∧
        (∀ j : Nat, j < len → m.flashAt (slotAt n + off + j) 1 = [(p.drop 8).getD j 0]) ∧
        (∀ a : Nat, a < slotAt n + off ∨ slotAt n + off + len ≤ a → m.flashAt a 1 = s.dev.flashAt a 1) ∧
        m.boot = { s.dev.boot with flash := m.boot.flash } ∧ m.mbox = { u with updOk := false, updBytes := m.mbox.updBytes } ∧
        (∀ j : Nat, tabGet (fun _ => (0 : Byte)) m.mbox.updBytes j = if off ≤ j ∧ j < off + len then 1 else tabGet (fun _ => 0) u.updBytes j) ∧
        Dev.Keeps [.boot, .mbox] s.dev m))) ∧
    (s.dev.Ready o i 0x0D03 →
      (s.dev.updOther o = true → Completes (.fwVerify o i) s (fun t => Finishes o i 0x0F05 [] s.dev s t)) ∧
      (u.updOpen = none ∨ (u.updOpen = some o ∧ u.updBytes.length ≠ u.updLen) →
        Completes (.fwVerify o i) s (fun t => Finishes o i 0x0D03 [] s.dev s t)) ∧
      (u.updOpen = some o → u.updBytes.length = u.updLen → Completes (.fwVerify o i) s (fun t =>
        (∀ k : Nat, s.dev.imgValid s.fuse n = some k → ∃ m : Dev, m.mbox.updOk = true ∧ m.mbox.updOpen = u.updOpen ∧ m.mbox.updBytes = u.updBytes ∧
          Dev.Keeps (.otp :: faultParts) s.dev m ∧ s.dev.Noted [regKey 0 bOtp 0x40] [regKey 0 bOtp 0x80, regKey 0 bOtp 0x88] [190, 191] m ∧
          Finishes o i 0 (leBytes 2 (s.dev.imgVer n) ++ leBytes 2 (s.dev.imgHandoff n) ++ [byte k]) m s t) ∧
        (s.dev.imgValid s.fuse n = none → ∃ m : Dev, Finishes o i 0x0D01 [] m s t ∧ s.dev.Raised 163 { kind := 15, inst := n } m ∧
          Dev.Keeps (.otp :: faultParts) s.dev m ∧
          s.dev.Noted [regKey 0 bOtp 0x40] [regKey 0 bOtp 0x80, regKey 0 bOtp 0x88] [163, 190, 191] m)))) ∧
    (s.dev.Ready o i 0x0D04 →
      (u.act = .none → u.updOpen = none ∨ u.updOk = false → Completes (.fwActivate o i) s (fun t => Finishes o i 0x0D03 [] s.dev s t)) ∧
      (u.act = .none → u.updOpen ≠ none → u.updOk = true → Completes (.fwActivate o i) s (fun t =>
        t.dev.mbox = { u with act := .waiting, actPair := 8 * o + i, actBy := some (s.dev.dt + 100000000), fwState := 2, wdog := none } ∧
        Keeps [.mbox] s t)) ∧
      (u.act ≠ .none → exec (.fwActivate o i) s = .next s) ∧
      (u.act = .waiting → u.actPair = 8 * o + i → u.fwState = 2 → s.dev.actQuiet = true →
        (ok = true → Completes (.activationSwitch ok) s (fun t => ∃ m : Dev,
          Finishes o i 0 (leBytes 2 u.ver ++ leBytes 2 (s.dev.imgVer n)) m s t ∧
          m.mbox.act = .none ∧ m.mbox.actBy = none ∧ m.mbox.fwState = 1 ∧ m.mbox.image = (n == 1) ∧ m.mbox.ver = s.dev.imgVer n ∧
          m.mbox.oldVer = u.ver ∧ m.mbox.trial = true ∧ m.mbox.actOwner = o ∧ m.mbox.updOpen = none ∧ m.mbox.updOk = false ∧
          m.mbox.confirmBy = some (s.dev.dt + 1000000000 * s.dev.cfgFld 0 bMbox 0x10 12 20) ∧
          m.mbox.wdog = some (s.dev.dt + 1000000 * s.dev.cfgFld 0 bMbox 0x10 0 10) ∧
          s.dev.ImgRecord { active := n, trial := true } m ∧ Dev.Keeps (.boot :: faultParts) s.dev m ∧ s.dev.Noted [] [] [] m)) ∧
        (ok = false → Completes (.activationSwitch ok) s (fun t => ∃ m : Dev, Finishes o i 0x0D02 [2] m s t ∧
          m.mbox.act = .none ∧ m.mbox.fwState = 1 ∧ m.mbox.image = u.image ∧ m.mbox.ver = u.ver ∧ m.mbox.trial = u.trial ∧
          m.mbox.updOpen = u.updOpen ∧ Dev.Keeps faultParts s.dev m ∧ s.dev.Noted [] [] [] m))) ∧
      (u.act = .waiting → u.actPair = 8 * o + i → u.fwState = 2 → s.dev.actQuiet = false → due u.actBy s.dev.dt = true →
        Completes .activationWaitTimeout s (fun t => ∃ m : Dev, Finishes o i 0x0D02 [1] m s t ∧
          m.mbox.act = .none ∧ m.mbox.fwState = 1 ∧ m.mbox.image = u.image ∧ m.mbox.ver = u.ver ∧ m.mbox.trial = u.trial ∧
          Dev.Keeps faultParts s.dev m ∧ s.dev.Noted [] [] [] m))) ∧
    (u.act = .none ∨ u.act = .reverting ∨ s.dev.actQuiet = false → exec (.activationSwitch ok) s = .next s) ∧
    (u.act = .none ∨ s.dev.actQuiet = true ∨ due u.actBy s.dev.dt = false → exec .activationWaitTimeout s = .next s) ∧
    (u.act = .reverting → s.dev.actQuiet = false → due u.actBy s.dev.dt = true → Completes .activationWaitTimeout s (fun t =>
      t.dev.mbox.act = .none ∧ t.dev.mbox.image = u.image ∧ t.dev.mbox.ver = u.ver ∧ t.dev.mbox.trial = u.trial ∧
      Keeps faultParts s t ∧ s.dev.Noted [] [] [] t.dev)) ∧
    (s.dev.Ready o i 0x0D05 →
      (∀ d : Nat, u.trial = true → leAt p 0 2 = u.ver → u.confirmBy = some d →
        ((s.dev.pair o i).stamp < d → Completes (.fwConfirm o i) s (fun t => ∃ m : Dev, Finishes o i 0 [] m s t ∧
          m.mbox.trial = false ∧ m.mbox.confirmBy = none ∧ m.mbox.image = u.image ∧ m.mbox.ver = u.ver ∧
          s.dev.ImgRecord { active := s.dev.imgRec.active } m ∧ Dev.Keeps (.boot :: faultParts) s.dev m ∧ s.dev.Noted [] [] [] m)) ∧
        (d ≤ (s.dev.pair o i).stamp → Completes (.fwConfirm o i) s (fun t => Finishes o i 0x0D04 [] s.dev s t))) ∧
      (u.trial = false ∨ leAt p 0 2 ≠ u.ver → Completes (.fwConfirm o i) s (fun t => Finishes o i 0x0D04 [] s.dev s t))) ∧
    (∀ d : Nat, u.act = .none → u.trial = true → u.fwState = 1 → u.confirmBy = some d → s.dev.fwConfirmAhead = false → s.dev.exclAhead d = false →
      (d ≤ s.dev.dt → s.dev.actQuiet = true → ok = true → Completes (.fwRevert ok) s (fun t =>
        t.dev.mbox.trial = false ∧ t.dev.mbox.confirmBy = none ∧ t.dev.mbox.image = (n == 1) ∧ t.dev.mbox.ver = u.oldVer ∧
        t.dev.mbox.fwState = 1 ∧ s.dev.ImgRecord { active := n } t.dev ∧ s.dev.Raised 165 {} t.dev ∧
        Keeps (.boot :: faultParts) s t ∧ s.dev.Noted [] [] [165] t.dev)) ∧
      (d ≤ s.dev.dt → s.dev.actQuiet = false → Completes (.fwRevert ok) s (fun t =>
        t.dev.mbox = { u with act := .reverting, actBy := some (s.dev.dt + 100000000), fwState := 2, wdog := none } ∧ Keeps [.mbox] s t)) ∧
      (s.dev.dt < d → exec (.fwRevert ok) s = .next s)) ∧
    (∀ d : Nat, u.act = .none → u.confirmBy = some d → s.dev.fwConfirmAhead = true ∨ s.dev.exclAhead d = true → exec (.fwRevert ok) s = .next s) ∧
    (u.act = .reverting → s.dev.actQuiet = true → (ok = true → Completes (.fwRevert ok) s (fun t =>
        t.dev.mbox.trial = false ∧ t.dev.mbox.image = (n == 1) ∧ t.dev.mbox.ver = u.oldVer ∧ t.dev.mbox.act = .none ∧
        s.dev.ImgRecord { active := n } t.dev ∧ s.dev.Raised 165 {} t.dev ∧ Keeps (.boot :: faultParts) s t)) ∧
      (ok = false → Completes (.fwRevert ok) s (fun t => t.dev.mbox.act = .none ∧ t.dev.mbox.image = u.image ∧ t.dev.mbox.ver = u.ver ∧
        Keeps faultParts s t ∧ s.dev.Noted [] [] [] t.dev)))

/-! ### Register access -/

/-- R8, R253, R254, R473, R475, R476, R478, R483: what an access by a path does. A select write sets the caller's copy; a write of a stored
register sets RW fields within their ranges and clears W1C bits written 1; reserved locations ignore writes, and a partner's write is refused or ignored; a read of a _LO register latches its high half for the path; an RC field and a log
entry are cleared by a read of any path but a partner, and an event of the same DT comes after the read (R9); SNAP_GO takes a snapshot; an injection is armed in MAINT and SERVICE only. -/
def Obligations.RegisterAccess : Prop :=
  ∀ (s : State) (p : Path) (x b off a n j k : Nat) (v : Word), x = pathIx p → s.dev.PathOpen p → a = b * 0x10000 + off → off % 4 = 0 → b < 256 →
    (hasSelect b = true → Completes (.selectWrite p b v) s (fun t =>
      tabGet (fun _ => 0) t.dev.sel (x * 256 + b) = v.toNat % 2 ^ selWidth b ∧
      (∀ q : Nat, q ≠ x * 256 + b → tabGet (fun _ => 0) t.dev.sel q = tabGet (fun _ => 0) s.dev.sel q) ∧
      s.dev.Accessed .ok 0 t.dev ∧ Keeps [.sel, .mgmt] s t)) ∧
    (hasSelect b = false → exec (.selectWrite p b v) s = .next s) ∧
    (off < 0x4000 → implemented b off = false →
      Completes (.registerWrite p a v) s (fun t => s.dev.Accessed .ok 0 t.dev ∧ Keeps [.mgmt] s t)) ∧
    (off < 0x4000 → implemented b off = true → x < 64 → partnerMay b off = false → ∀ y : Status, y = (if partnerIgnored b off then Status.ok else .denied) →
      ∀ (c : Instr), c = .registerWrite p a v ∨ c = .setAliasWrite p a v ∨ c = .clearAliasWrite p a v ∨ c = .toggleAliasWrite p a v →
        Completes c s (fun t => s.dev.Accessed y 0 t.dev ∧ Keeps [.mgmt] s t)) ∧
    (off < 0x4000 → implemented b off = true → b ∈ plainBlocks → off ≠ 0 ∨ hasSelect b = false → s.dev.mayWrite p = true →
      Completes (.registerWrite p a v) s (fun t => s.dev.RegWritten (instOf b off (s.dev.selOf p b)) b off v.toNat t.dev ∧
        s.dev.Accessed .ok 0 t.dev ∧ Keeps [.csr, .mgmt] s t)) ∧
    (isLo b off = true → implemented b off = true →
      (s.dev.latchOf x b = none → Completes (.loReadLatch p a) s (fun t =>
        s.dev.Accessed .ok (s.dev.regShows x b off) t.dev ∧ t.dev.latchOf x b = some (off, s.dev.regShows x b (off + 4)) ∧
        (∀ (q : Nat) (c : Nat), (q, c) ≠ (x, b) → c < 256 → t.dev.latchOf q c = s.dev.latchOf q c) ∧ Keeps [.latch, .mgmt] s t)) ∧
      (∀ h : Nat, s.dev.latchOf x b = some (off, h) → Completes (.loReadLatch p (a + 4)) s (fun t =>
        s.dev.Accessed .ok h t.dev ∧ t.dev.latchOf x b = none ∧ Keeps [.latch, .mgmt] s t))) ∧
    (s.dev.latchOf x bPartner = none → k = s.dev.selOf p bPartner → Completes (.rcFieldRead p 0x0A0054) s (fun t =>
      ∃ (z : Nat) (rest : Nat), s.dev.RcReads k bPartner 0x54 24 8 (s.dev.ptAudit2 k) z rest ∧ s.dev.Accessed .ok z t.dev ∧ s.dev.PtnsBut k t.dev ∧
      t.dev.ptn k = (if x < 64 then s.dev.ptn k else { s.dev.ptn k with rspDrop := rest }) ∧
      t.dev.csr = s.dev.csr ∧ t.dev.evt = s.dev.evt ∧ Keeps [.ptn, .csr, .latch, .mgmt] s t)) ∧
    (s.dev.latchOf x bSlalom = none → k = s.dev.selOf p bSlalom →
      Completes (.rcFieldRead p 0x180010) s (fun t =>
        ∃ (z : Nat) (rest : Nat), s.dev.RcReads k bSlalom 0x10 24 8 (s.dev.rdSlalom k 0x10) z rest ∧ s.dev.Accessed .ok z t.dev ∧
        (∀ q : Nat, q ≠ k → t.dev.eng q = s.dev.eng q) ∧
        t.dev.eng k = (if x < 64 then s.dev.eng k else { s.dev.eng k with roundMax := rest }) ∧
        t.dev.csr = s.dev.csr ∧ t.dev.evt = s.dev.evt ∧ Keeps [.sla, .csr, .latch, .mgmt] s t) ∧
      (j < 16 → Completes (.rcFieldRead p (0x180020 + 4 * j)) s (fun t =>
        ∃ (z : Nat) (rest : Nat), s.dev.RcReads k bSlalom (0x20 + 4 * j) 8 7 (s.dev.rdSlalom k (0x20 + 4 * j)) z rest ∧ s.dev.Accessed .ok z t.dev ∧
        tabGet (fun _ => 0) t.dev.sla.peak (16 * k + j) = (if x < 64 then tabGet (fun _ => 0) s.dev.sla.peak (16 * k + j) else rest) ∧
        (∀ q : Nat, q ≠ 16 * k + j → tabGet (fun _ => 0) t.dev.sla.peak q = tabGet (fun _ => 0) s.dev.sla.peak q) ∧
        t.dev.sla = { s.dev.sla with peak := t.dev.sla.peak } ∧ t.dev.csr = s.dev.csr ∧ t.dev.evt = s.dev.evt ∧
        Keeps [.sla, .csr, .latch, .mgmt] s t))) ∧
    (n < 64 → Completes (.elogEntryRead p n) s (fun t =>
      t.dev.elogAt n = (if x < 64 then s.dev.elogAt n else { s.dev.elogAt n with unread := false }) ∧
      (∀ q : Nat, q ≠ n → t.dev.elogAt q = s.dev.elogAt q) ∧ t.dev.ecc = { s.dev.ecc with elog := t.dev.ecc.elog } ∧ Keeps [.ecc, .latch, .mgmt] s t)) ∧
    (bit v.toNat 0 = true → s.dev.clk.mode ≠ .boot → Completes (.snapGo p v) s (fun t =>
      t.dev.telem.ctrHold = s.dev.ctr ∧ t.dev.telem.snapSeq = (s.dev.telem.snapSeq + 1) % 2 ^ 32 ∧ t.dev.telem.snapDt = s.dev.dt ∧
      t.dev.telem.snapSrc = x ∧ (s.dev.FirstAt 10 2 → t.dev.telem.ring = s.dev.telem.ring ∧ t.dev.telem.next = s.dev.telem.next) ∧
      Keeps [.telem] s t)) ∧
    (bit v.toNat 0 = false ∨ s.dev.clk.mode = .boot → exec (.snapGo p v) s = .next s) ∧
    (s.dev.mayWrite p = true → s.dev.clk.mode = .maint ∨ s.dev.clk.mode = .service →
      Completes (.injArm p v) s (fun t => t.dev.csrAt 0 bEcc 0x30 = word ((v.toNat ||| 1) &&& 0xFF3F) ∧
        s.dev.RegsBut [regKey 0 bEcc 0x30] t.dev ∧ s.dev.Accessed .ok 0 t.dev ∧ Keeps [.csr, .mgmt] s t) ∧
      Completes (.injDisarm p v) s (fun t => t.dev.csrAt 0 bEcc 0x30 = word (clearBits v.toNat 1 &&& 0xFF3F) ∧
        s.dev.RegsBut [regKey 0 bEcc 0x30] t.dev ∧ s.dev.Accessed .ok 0 t.dev ∧ Keeps [.csr, .mgmt] s t)) ∧
    (x < 64 ∨ (s.dev.clk.mode ≠ .maint ∧ s.dev.clk.mode ≠ .service) → ∀ (c : Instr), c = .injArm p v ∨ c = .injDisarm p v →
      Completes c s (fun t => s.dev.Accessed .ok 0 t.dev ∧ Keeps [.mgmt] s t))

/-- R477: a write through the set, clear or toggle view of a register is the write of the register, by the same path, with its RW fields at
the new value; a register without RW fields is left as it is, and the answer is that of a plain write. A read of an alias address
returns zero and has no side effect. -/
def Obligations.AliasViews : Prop :=
  ∀ (s : State) (p : Path) (a b off m old x k : Nat) (v : Word), pathOk p = true → a = b * 0x10000 + off → b < 256 → off < 0x4000 →
    off % 4 = 0 → m = rwMask b off → old = s.dev.regShows (pathIx p) b off &&& m → x = v.toNat &&& m →
    (m ≠ 0 →
      Completes (.setAliasWrite p a v) s (fun t => exec (.registerWrite p a (word (old ||| x))) s = .next t) ∧
      Completes (.clearAliasWrite p a v) s (fun t => exec (.registerWrite p a (word (clearBits old x))) s = .next t) ∧
      Completes (.toggleAliasWrite p a v) s (fun t => exec (.registerWrite p a (word (old ^^^ x))) s = .next t)) ∧
    (m = 0 → ∀ c : Instr, c = .setAliasWrite p a v ∨ c = .clearAliasWrite p a v ∨ c = .toggleAliasWrite p a v → Completes c s (fun t =>
      (∃ u : State, exec (.registerWrite p a v) s = .next u ∧ t.dev.mgmt.accStatus = u.dev.mgmt.accStatus) ∧ Keeps [.mgmt] s t)) ∧
    (s.dev.PathOpen p → 1 ≤ k → k < 4 → Completes (.rcFieldRead p (a + 0x4000 * k)) s (fun t =>
      s.dev.Accessed .ok 0 t.dev ∧ Keeps [.mgmt] s t))

/-- R348, R349: the CSR commands reach registers by their owner's path, in ascending order, up to the first access that fails; accesses made
before it stay made. CSR_RMW writes (old AND NOT MASK) OR (VALUE AND MASK) and answers the old value. -/
def Obligations.CsrCommands : Prop :=
  ∀ (s : State) (o i a n b off k : Nat) (p : List Byte), p = s.dev.par o i → a = leAt p 0 5 → n = leAt p 8 1 → off % 4 = 0 → off < 0x4000 → b < 256 →
    (s.dev.Ready o i 0x0E01 →
      (1 ≤ n → a < csrBase ∨ csrBase + 0x1000000 ≤ a → Completes (.cmdCsrRead o i) s (fun t => Finishes o i 0x0E01 [] s.dev s t)) ∧
      (1 ≤ n → a = csrBase + b * 0x10000 + off → o = 65 → s.dev.otp.lc = .ended →
        Completes (.cmdCsrRead o i) s (fun t => Finishes o i 0x0E02 [] s.dev s t)) ∧
      (a = csrBase + 0x030400 + 4 * k → k + n ≤ 256 → o ≠ 65 ∨ s.dev.otp.lc ≠ .ended → s.dev.latchOf o bFault = none →
        Completes (.cmdCsrRead o i) s (fun t => ∃ m : Dev,
          Finishes o i 0 ((List.range n).flatMap (fun j => leBytes 4 (s.dev.reactOf (k + j) + 256 * faultClass (k + j) + 65536 * s.dev.escMs (k + j)))) m s t ∧
          Dev.Keeps [.latch] s.dev m))) ∧
    (s.dev.Ready o i 0x0E02 →
      (1 ≤ n → a < csrBase ∨ csrBase + 0x1000000 ≤ a → Completes (.cmdCsrWrite o i) s (fun t => Finishes o i 0x0E01 [] s.dev s t)) ∧
      (1 ≤ n → a = csrBase + b * 0x10000 + off → (o = 65 ∧ s.dev.otp.lc = .ended) ∨
        (o < 64 ∧ implemented b off = true ∧ partnerMay b off = false ∧ partnerIgnored b off = false) →
        Completes (.cmdCsrWrite o i) s (fun t => Finishes o i 0x0E02 [] s.dev s t)) ∧
      (n = 2 → a = csrBase + 0x0A0000 → o < 64 → Completes (.cmdCsrWrite o i) s (fun t => ∃ m : Dev, Finishes o i 0x0E02 [] m s t ∧
        tabGet (fun _ => 0) m.sel (o * 256 + bPartner) = leAt p 12 4 % 64 ∧
        (∀ q : Nat, q ≠ o * 256 + bPartner → tabGet (fun _ => 0) m.sel q = tabGet (fun _ => 0) s.dev.sel q) ∧ Dev.Keeps [.sel] s.dev m)) ∧
      (n = 1 → a = csrBase + b * 0x10000 + off → o = 64 ∨ (o = 65 ∧ s.dev.otp.lc ≠ .ended) → implemented b off = true → b ∈ plainBlocks →
        off ≠ 0 ∨ hasSelect b = false → Completes (.cmdCsrWrite o i) s (fun t => ∃ m : Dev, Finishes o i 0 [] m s t ∧
          s.dev.RegWritten (instOf b off (tabGet (fun _ => 0) s.dev.sel (o * 256 + b))) b off (leAt p 12 4) m ∧ Dev.Keeps [.csr] s.dev m))) ∧
    (s.dev.Ready o i 0x0E03 →
      (a < csrBase ∨ csrBase + 0x1000000 ≤ a → Completes (.csrRmw o i) s (fun t => Finishes o i 0x0E01 [] s.dev s t)) ∧
      (a = csrBase + b * 0x10000 + off → implemented b off = true → b = bThermal ∨ b = bReg → s.dev.latchOf o b = none →
        (o < 64 → Completes (.csrRmw o i) s (fun t => ∃ m : Dev, Finishes o i 0x0E02 [] m s t ∧ Dev.Keeps [.latch] s.dev m)) ∧
        (o = 64 ∨ (o = 65 ∧ s.dev.otp.lc ≠ .ended) → ∀ old : Nat, old = s.dev.regShows o b off → Completes (.csrRmw o i) s (fun t => ∃ m : Dev,
          Finishes o i 0 (leBytes 4 old) m s t ∧
          s.dev.RegWritten 0 b off (clearBits old (leAt p 8 4) ||| (leAt p 12 4 &&& leAt p 8 4)) m ∧ Dev.Keeps [.csr, .latch] s.dev m))))

/-! ### Start-up -/

/-- R38, R300, R309, R313, R314, R403, R490 to R492: FIRMWARE_START runs the image chosen and brings the device to MAINT, or restarts
firmware after a reset of Heartwood; the boot list posts one entry at a time to slot 0 of mailbox 65, an opcode outside its set is
answered NOT_PERMITTED, and the first answer that is not OK ends it; a hold for REFCLK, flash or heat ends when its check passes. Whether
an image is valid is Config's (log 3). -/
def Obligations.BootSequence : Prop :=
  ∀ (s : State) (b : BootEnv) (khz n : Nat) (ok : Bool) (img : List Byte) (rest : List (List Byte)) (u : BootU), u = s.dev.boot →
    (s.dev.clk.mode = .boot → s.dev.pin.bootHold = 0 → s.dev.therm.shut = false → s.dev.clk.dtRun = true → s.dev.clk.refOk = true →
      u.chosen = some n → Completes .firmwareStart s (fun t =>
        t.dev.clk = { s.dev.clk with mode := .maint, entryDt := s.dev.dt, gateNow := (s.dev.csrAt 0 bClock 0x30).toNat } ∧
        t.dev.mbox.fwState = 1 ∧ t.dev.mbox.image = (n == 1) ∧ t.dev.mbox.ver = s.dev.imgVer n ∧ t.dev.mbox.confirmBy = none ∧
        t.dev.boot.ready = true ∧ t.dev.boot.chosen = none ∧
        (∀ c : Nat, c < 64 → (t.dev.ch c).trainAt = s.dev.dt ∧ (t.dev.ch c).lastGap = s.dev.dt) ∧
        Keeps (([.clk, .cfg, .lane, .lin, .lout, .oct, .port, .rx, .tx, .ptx, .ptn, .txn, .mem, .qm, .dram, .ecc, .xfer, .graft, .otp, .boot, .sel,
          .free] : List Part) ++ faultParts) s t)) ∧
    (s.dev.clk.mode = .boot → s.dev.pin.bootHold ≠ 0 ∨ s.dev.therm.shut = true ∨ s.dev.clk.dtRun = false ∨ s.dev.clk.refOk = false ∨
      u.chosen = none → exec .firmwareStart s = .next s) ∧
    (s.dev.clk.mode ≠ .boot → s.dev.mbox.fwState = 3 → Completes .firmwareStart s (fun t =>
      t.dev.mbox = { s.dev.mbox with fwState := 1, wdog := some (s.dev.dt + 1000000 * s.dev.cfgFld 0 bMbox 0x10 0 10) } ∧ Keeps [.mbox] s t)) ∧
    (s.dev.clk.mode ≠ .boot → s.dev.mbox.fwState ≠ 3 → exec .firmwareStart s = .next s) ∧
    (u.ready = false ∨ s.dev.fwUp = false ∨ (u.listWait = true ∧ u.listStat = none) → exec .bootListEntry s = .next s) ∧
    (u.ready = true → s.dev.fwUp = true →
      (∀ x : Nat, u.listWait = true → u.listStat = some x → x ≠ 0 → Completes .bootListEntry s (fun t =>
        t.dev.boot = { u with list := [], listWait := false, listStat := none } ∧ Keeps [.boot] s t)) ∧
      (u.listWait = false ∨ u.listStat = some 0 → u.list = [] → Completes .bootListEntry s (fun t =>
        t.dev.boot = { u with listWait := false, listStat := none } ∧ Keeps [.boot] s t)) ∧
      (u.list = img :: rest → cmdHeaderOk img = true →
        (u.listWait = false ∧ (s.dev.pair 65 0).st = .free) ∨ (u.listWait = true ∧ u.listStat = some 0 ∧
          ((s.dev.pair 65 0).st = .free ∨ (s.dev.pair 65 0).st = .done)) →
        (listAllows (cmdOpcode img) = true → Completes .bootListEntry s (fun t =>
          t.dev.pair 65 0 = { st := .posted, cmd := img, stamp := s.dev.dt, ord := s.dev.txn.nextOrd } ∧ s.dev.PairsBut 65 0 t.dev ∧
          t.dev.boot = { u with list := rest, listWait := true, listStat := none } ∧
          t.dev.txn = { s.dev.txn with nextOrd := s.dev.txn.nextOrd + 1 } ∧ Keeps [.mbox, .txn, .boot] s t)) ∧
        (listAllows (cmdOpcode img) = false → Completes .bootListEntry s (fun t =>
          (t.dev.pair 65 0).st = .done ∧
          (t.dev.pair 65 0).resp = rspImage (cmdOpcode img) (cmdSeq img) (cmdSlot img) 8 s.dev.dt [] ∧ s.dev.PairsBut 65 0 t.dev ∧
          t.dev.boot = { u with list := rest, listWait := true, listStat := some 8 } ∧ Keeps [.mbox, .txn, .boot] s t)))) ∧
    (s.dev.pin.bootHold ≠ 1 → exec (.refclkRecheck khz b) s = .next s) ∧
    (s.dev.pin.bootHold = 1 →
      (refclkOf khz = 0 → Completes (.refclkRecheck khz b) s (fun t => t = s)) ∧
      (refclkOf khz ≠ 0 → b.flashOk = false → Completes (.refclkRecheck khz b) s (fun t =>
        t.dev.pin = { s.dev.pin with bootHold := 3 } ∧ t.dev.clk = { s.dev.clk with refclk := refclkOf khz } ∧ Keeps [.pin, .clk] s t)) ∧
      (refclkOf khz ≠ 0 → b.flashOk = true → Completes (.refclkRecheck khz b) s (fun t =>
        (t.dev.pin.bootHold = 5 ∨ t.dev.pin.bootHold = 4 ∨ (t.dev.pin.bootHold = 0 ∧ t.dev.boot.chosen ≠ none)) ∧
        t.dev.clk = { s.dev.clk with refclk := refclkOf khz } ∧ Keeps (([.pin, .clk, .therm, .graft, .otp, .boot] : List Part) ++ faultParts) s t))) ∧
    (s.dev.pin.bootHold ≠ 3 ∨ ok = false → exec (.flashRetry ok b) s = .next s) ∧
    (s.dev.pin.bootHold = 3 → ok = true → Completes (.flashRetry ok b) s (fun t =>
      (s.dev.heatLimit ≤ b.temp → t.dev.pin.bootHold = 5) ∧
      (b.temp < s.dev.heatLimit → t.dev.pin.bootHold = 4 ∨ (t.dev.pin.bootHold = 0 ∧ t.dev.boot.chosen ≠ none)) ∧
      t.dev.otp.wlock = s.fuse.wlock ∧ t.dev.otp.rlock = s.fuse.rlock ∧ t.dev.pin = { s.dev.pin with bootHold := t.dev.pin.bootHold } ∧
      Keeps (([.pin, .therm, .graft, .otp, .boot] : List Part) ++ faultParts) s t)) ∧
    (s.dev.pin.bootHold ≠ 5 → exec (.heatRecheck b) s = .next s) ∧
    (s.dev.pin.bootHold = 5 →
      (s.dev.heatLimit ≤ b.temp → Completes (.heatRecheck b) s (fun t => t = s)) ∧
      (b.temp < s.dev.heatLimit → Completes (.heatRecheck b) s (fun t =>
        (t.dev.pin.bootHold = 4 ∨ (t.dev.pin.bootHold = 0 ∧ t.dev.boot.chosen ≠ none)) ∧
        t.dev.pin = { s.dev.pin with bootHold := t.dev.pin.bootHold } ∧ Keeps (([.pin, .graft, .boot] : List Part) ++ faultParts) s t)))

/-! ### Management port and JTAG -/

/-- R474, R479, R480: a write frame writes its words, one with a wrong PEC is discarded and marked, trailing bytes are discarded and marked,
and an access outside the CSR range is not made and is marked; a read frame returns the values, each with its PEC where asked; the CCCs
act on the dynamic address and return what they name; CSR_ACC makes an access with JTAG's rights; TRST_N low clears JTAG's selects. That
ADDR and data are what the PEC of a write covers, and that a GET is refused without a dynamic address, is the model's reading; the bytes
of GETSTATUS are free values. -/
def Obligations.ManagementPort : Prop :=
  ∀ (s : State) (a b off k n da : Nat) (v : Word) (pe : Bool) (tail body frame : List Byte) (x : ClkU) (m : MgmtU), x = s.dev.clk →
    m = s.dev.mgmt → a = csrBase + b * 0x10000 + off → b < 256 → off < 0x4000 → off % 4 = 0 →
    (s.dev.mgAlive = false → ∀ c : Instr, c = .mgmtWriteFrame frame ∨ c = .mgmtReadFrame frame n ∨ c = .entdaa da ∨ c = .setdasa da ∨ c = .setnewda da ∨
        c = .rstdaa ∨ c = .getpid ∨ c = .getbcr ∨ c = .getdcr ∨ c = .getstatus ∨ c = .enec ∨ c = .disec →
      Completes c s (fun t => t.dev.mgmt = { m with nak := true, out := [] } ∧ Keeps [.mgmt] s t)) ∧
    (s.dev.mgAlive = true →
      (body = leBytes 5 a ++ leBytes 4 v.toNat → frame = [byte (1 + 128 * b2n pe)] ++ body ++ (if pe then [byte (pec body)] else []) →
        implemented b off = true → b ∈ plainBlocks → off ≠ 0 ∨ hasSelect b = false → Completes (.mgmtWriteFrame frame) s (fun t =>
          s.dev.RegWritten (instOf b off (s.dev.selOf .mgmt b)) b off v.toNat t.dev ∧
          t.dev.mgmt = { m with nak := false, out := [], accStatus := 0, accValue := 0 } ∧
          t.dev.clk = { x with mgIdleAt := s.dev.dt, mgStopped := false } ∧ Keeps [.csr, .clk, .mgmt] s t)) ∧
      (body = leBytes 5 a ++ leBytes 4 v.toNat → frame = [0x81] ++ body ++ [byte k] → k < 256 → k ≠ pec body →
        Completes (.mgmtWriteFrame frame) s (fun t => s.dev.Marks 0 bGlobal 0x50 0x10000 t.dev ∧ s.dev.RegsBut [regKey 0 bGlobal 0x50] t.dev ∧
          t.dev.mgmt = { m with nak := false, out := [] } ∧ t.dev.clk = { x with mgIdleAt := s.dev.dt, mgStopped := false } ∧
          Keeps [.csr, .clk, .mgmt] s t)) ∧
      (1 ≤ tail.length → tail.length < 4 → frame = [1] ++ leBytes 5 a ++ tail → Completes (.mgmtWriteFrame frame) s (fun t =>
        s.dev.Marks 0 bGlobal 0x50 0x20000 t.dev ∧ s.dev.RegsBut [regKey 0 bGlobal 0x50] t.dev ∧
        t.dev.mgmt = { m with nak := false, out := [] } ∧ t.dev.clk = { x with mgIdleAt := s.dev.dt, mgStopped := false } ∧
        Keeps [.csr, .clk, .mgmt] s t)) ∧
      (k < csrBase → frame = [1] ++ leBytes 5 k ++ leBytes 4 v.toNat → Completes (.mgmtWriteFrame frame) s (fun t =>
        s.dev.Marks 0 bGlobal 0x50 0x40000 t.dev ∧ s.dev.RegsBut [regKey 0 bGlobal 0x50] t.dev ∧
        t.dev.mgmt = { m with nak := false, out := [] } ∧ t.dev.clk = { x with mgIdleAt := s.dev.dt, mgStopped := false } ∧
        Keeps [.csr, .clk, .mgmt] s t)) ∧
      (frame = [byte (128 * b2n pe)] ++ leBytes 5 (csrBase + 0x030400 + 4 * k) → k + n ≤ 256 → s.dev.latchOf 64 bFault = none →
        Completes (.mgmtReadFrame frame n) s (fun t => t.dev.mgmt.nak = false ∧ t.dev.mgmt.dyn = m.dyn ∧
          t.dev.mgmt.out = (List.range n).flatMap (fun j => let w := leBytes 4 (s.dev.regShows 64 bFault (0x400 + 4 * (k + j)))
            w ++ (if pe then [byte (pec (leBytes 5 (csrBase + 0x030400 + 4 * k) ++ w))] else [])) ∧
          t.dev.clk = { x with mgIdleAt := s.dev.dt, mgStopped := false } ∧ Keeps [.latch, .clk, .mgmt] s t)) ∧
      (frame = [0] ++ leBytes 5 k → k < csrBase → 1 ≤ n → Completes (.mgmtReadFrame frame n) s (fun t =>
        t.dev.mgmt = { m with nak := false, out := List.replicate (4 * n) 0xFF } ∧ s.dev.Marks 0 bGlobal 0x50 0x40000 t.dev ∧
        s.dev.RegsBut [regKey 0 bGlobal 0x50] t.dev ∧ t.dev.clk = { x with mgIdleAt := s.dev.dt, mgStopped := false } ∧
        Keeps [.csr, .clk, .mgmt] s t)) ∧
      (frame.length ≠ 6 → Completes (.mgmtReadFrame frame n) s (fun t => s.dev.Marks 0 bGlobal 0x50 0x20000 t.dev ∧
        t.dev.mgmt = { m with nak := true, out := [] } ∧ Keeps [.csr, .clk, .mgmt] s t)) ∧
      (∀ (c : Instr) (good : Bool) (out : List Byte) (d : Option Nat),
        (c = .entdaa da ∧ good = (m.dyn.isNone && bit s.dev.otp.present 0) ∧ out = s.dev.provId ++ [0, 0] ∧ d = some (da % 128)) ∨
        (c = .setdasa da ∧ good = m.dyn.isNone ∧ out = [] ∧ d = some (da % 128)) ∨
        (c = .setnewda da ∧ good = m.dyn.isSome ∧ out = [] ∧ d = some (da % 128)) ∨ (c = .rstdaa ∧ good = true ∧ out = [] ∧ d = none) ∨
        (c = .getpid ∧ good = m.dyn.isSome ∧ out = s.dev.provId ∧ d = m.dyn) ∨
        ((c = .getbcr ∨ c = .getdcr) ∧ good = m.dyn.isSome ∧ out = [0] ∧ d = m.dyn) ∨
        ((c = .enec ∨ c = .disec) ∧ good = true ∧ out = [] ∧ d = m.dyn) →
        Completes c s (fun t =>
          t.dev.mgmt = (if good then { m with nak := false, out := out, dyn := d } else { m with nak := true, out := [] }) ∧
          t.dev.clk = { x with mgIdleAt := s.dev.dt, mgStopped := false } ∧ Keeps [.clk, .mgmt] s t)) ∧
      (m.dyn.isSome = true → Completes .getstatus s (fun t => t.dev.mgmt.nak = false ∧ t.dev.mgmt.out.length = 2 ∧ t.dev.mgmt.dyn = m.dyn ∧
        t.dev.freeIx = s.dev.freeIx + 1 ∧ Keeps [.clk, .mgmt, .free] s t))) ∧
    (s.dev.pin.pwrgd = true → s.dev.pin.cold = false →
      (s.dev.otp.lc ≠ .ended → implemented b off = true → b ∈ plainBlocks → off ≠ 0 ∨ hasSelect b = false → Completes (.csrAcc a v true) s (fun t =>
        s.dev.RegWritten (instOf b off (s.dev.selOf .jtag b)) b off v.toNat t.dev ∧ t.dev.pin = { s.dev.pin with trstN := true } ∧
        t.dev.mgmt = { m with jStatus := 0, accStatus := 0, accValue := 0 } ∧ Keeps [.csr, .pin, .mgmt] s t)) ∧
      (s.dev.otp.lc ≠ .ended → k < 256 → s.dev.latchOf 65 bFault = none → Completes (.csrAcc (csrBase + 0x030400 + 4 * k) v false) s (fun t =>
        t.dev.mgmt.jData = word (s.dev.regShows 65 bFault (0x400 + 4 * k)) ∧ t.dev.mgmt.jStatus = 0 ∧
        t.dev.pin = { s.dev.pin with trstN := true } ∧ Keeps [.latch, .pin, .mgmt] s t)) ∧
      (s.dev.otp.lc = .ended → ∀ wr : Bool, Completes (.csrAcc a v wr) s (fun t =>
        t.dev.mgmt.jStatus = Status.denied.code ∧ t.dev.pin = { s.dev.pin with trstN := true } ∧ Keeps [.pin, .mgmt] s t)) ∧
      (k < csrBase → ∀ wr : Bool, Completes (.csrAcc k v wr) s (fun t =>
        t.dev.mgmt.jStatus = Status.addr.code ∧ t.dev.pin = { s.dev.pin with trstN := true } ∧ Keeps [.pin, .mgmt] s t))) ∧
    (s.dev.pin.pwrgd = false ∨ s.dev.pin.cold = true → ∀ wr : Bool, exec (.csrAcc a v wr) s = .next s) ∧
    Completes .trstNLow s (fun t => t.dev.pin = { s.dev.pin with trstN := false } ∧
      (∀ q : Nat, q < 256 → tabGet (fun _ => 0) t.dev.sel (65 * 256 + q) = 0) ∧
      (∀ q : Nat, q / 256 ≠ 65 → tabGet (fun _ => 0) t.dev.sel q = tabGet (fun _ => 0) s.dev.sel q) ∧ Keeps [.sel, .pin] s t)
end

