-- ==== Sys2Proof/Laws/Tab.lean ====
section
/-!
SUPPORT. Sparse tables: read after write, and that every operation keeps the canonical form.
-/
namespace Sys2Proof.Machine

variable {α : Type}

theorem tabGet_cons (d : Nat → α) (p : Nat × α) (t : Tab α) (k : Nat) :
    tabGet d (p :: t) k = if p.1 = k then p.2 else tabGet d t k := rfl

theorem tabGet_filter_of_keep (d : Nat → α) (f : Nat × α → Bool) (t : Tab α) (k : Nat) (h : ∀ v, f (k, v) = true) :
    tabGet d (t.filter f) k = tabGet d t k := by
  induction t with
  | nil => rfl
  | cons p t ih =>
    obtain ⟨j, v⟩ := p
    by_cases hj : j = k
    · subst hj; simp [List.filter, h, tabGet_cons]
    · by_cases hf : f (j, v) = true <;> simp [List.filter, hf, tabGet_cons, hj, ih]

theorem tabGet_tabDel_self (d : Nat → α) (t : Tab α) (k : Nat) : tabGet d (tabDel t k) k = d k := by
  induction t with
  | nil => rfl
  | cons p t ih =>
    obtain ⟨j, v⟩ := p
    by_cases hj : j = k
    · subst hj; simpa [tabDel, List.filter] using ih
    · have : (j != k) = true := by simp [hj]
      simp only [tabDel, List.filter, this, tabGet_cons, hj, if_false]
      simpa [tabDel] using ih

theorem tabGet_tabDel_ne (d : Nat → α) (t : Tab α) {k j : Nat} (h : j ≠ k) : tabGet d (tabDel t k) j = tabGet d t j :=
  tabGet_filter_of_keep d _ t j (fun _ => by simp [h])

theorem tabGet_tabIns_self (d : Nat → α) (t : Tab α) (k : Nat) (v : α) : tabGet d (tabIns t k v) k = v := by
  induction t with
  | nil => simp [tabIns, tabGet_cons]
  | cons p t ih =>
    by_cases hp : p.1 < k
    · simp only [tabIns, hp, if_true, tabGet_cons, Nat.ne_of_lt hp, if_false]; exact ih
    · simp [tabIns, hp, tabGet_cons]

theorem tabGet_tabIns_ne (d : Nat → α) (t : Tab α) {k j : Nat} (v : α) (h : j ≠ k) :
    tabGet d (tabIns t k v) j = tabGet d t j := by
  induction t with
  | nil => simp [tabIns, tabGet_cons, Ne.symm h]
  | cons p t ih =>
    by_cases hp : p.1 < k
    · simp only [tabIns, hp, if_true, tabGet_cons]; rw [ih]
    · simp [tabIns, hp, tabGet_cons, Ne.symm h]

variable [DecidableEq α]

/-- A key reads as what was last written there. -/
@[simp] theorem tabGet_tabSet_self (d : Nat → α) (t : Tab α) (k : Nat) (v : α) : tabGet d (tabSet d t k v) k = v := by
  unfold tabSet
  split
  · rename_i h; rw [tabGet_tabDel_self, h]
  · exact tabGet_tabIns_self _ _ _ _

/-- A write leaves every other key as it was. -/
theorem tabGet_tabSet_ne (d : Nat → α) (t : Tab α) {k j : Nat} (v : α) (h : j ≠ k) :
    tabGet d (tabSet d t k v) j = tabGet d t j := by
  unfold tabSet
  split
  · exact tabGet_tabDel_ne d t h
  · rw [tabGet_tabIns_ne d _ v h, tabGet_tabDel_ne d t h]

@[simp] theorem tabGet_tabMod_self (d : Nat → α) (t : Tab α) (k : Nat) (f : α → α) :
    tabGet d (tabMod d t k f) k = f (tabGet d t k) := tabGet_tabSet_self _ _ _ _

theorem tabGet_tabMod_ne (d : Nat → α) (t : Tab α) {k j : Nat} (f : α → α) (h : j ≠ k) :
    tabGet d (tabMod d t k f) j = tabGet d t j := tabGet_tabSet_ne _ _ _ h

/-! ### The canonical form -/

theorem tabWfFrom_mono (d : Nat → α) {lo lo' : Nat} (h : lo' ≤ lo) : ∀ {t : Tab α}, tabWfFrom d lo t = true → tabWfFrom d lo' t = true
  | [], _ => rfl
  | p :: t, hw => by
    simp only [tabWfFrom, Bool.and_eq_true, decide_eq_true_eq] at hw ⊢
    exact ⟨⟨Nat.le_trans h hw.1.1, hw.1.2⟩, hw.2⟩

theorem tabWfFrom_filter (d : Nat → α) (f : Nat × α → Bool) : ∀ {t : Tab α} {lo : Nat},
    tabWfFrom d lo t = true → tabWfFrom d lo (t.filter f) = true
  | [], _, _ => rfl
  | p :: t, lo, hw => by
    simp only [tabWfFrom, Bool.and_eq_true, decide_eq_true_eq] at hw
    by_cases hf : f p = true
    · simp only [List.filter, hf, tabWfFrom, Bool.and_eq_true, decide_eq_true_eq]
      exact ⟨hw.1, tabWfFrom_filter d f hw.2⟩
    · simp only [List.filter, hf]
      exact tabWfFrom_mono d (Nat.le_succ_of_le hw.1.1) (tabWfFrom_filter d f hw.2)

theorem tabWf_filter (d : Nat → α) (f : Nat × α → Bool) {t : Tab α} (h : tabWf d t = true) : tabWf d (t.filter f) = true :=
  tabWfFrom_filter d f h

theorem tabWf_tabDel (d : Nat → α) {t : Tab α} (k : Nat) (h : tabWf d t = true) : tabWf d (tabDel t k) = true :=
  tabWf_filter d _ h

theorem tabWfFrom_tabIns (d : Nat → α) (k : Nat) (v : α) (hv : v ≠ d k) : ∀ {t : Tab α} {lo : Nat}, lo ≤ k →
    tabWfFrom d lo t = true → (∀ p ∈ t, p.1 ≠ k) → tabWfFrom d lo (tabIns t k v) = true
  | [], lo, hlo, _, _ => by simp [tabIns, tabWfFrom, hlo, hv]
  | p :: t, lo, hlo, hw, hn => by
    simp only [tabWfFrom, Bool.and_eq_true, decide_eq_true_eq] at hw
    by_cases hp : p.1 < k
    · simp only [tabIns, hp, if_true, tabWfFrom, Bool.and_eq_true, decide_eq_true_eq]
      exact ⟨hw.1, tabWfFrom_tabIns d k v hv hp hw.2 (fun q hq => hn q (List.mem_cons_of_mem _ hq))⟩
    · have hk : k < p.1 := Nat.lt_of_le_of_ne (Nat.le_of_not_lt hp) (Ne.symm (hn p List.mem_cons_self))
      simp only [tabIns, hp, if_false, tabWfFrom, Bool.and_eq_true, decide_eq_true_eq]
      exact ⟨⟨hlo, hv⟩, ⟨hk, hw.1.2⟩, hw.2⟩

/-- A write keeps the canonical form. -/
theorem tabWf_tabSet (d : Nat → α) {t : Tab α} (k : Nat) (v : α) (h : tabWf d t = true) : tabWf d (tabSet d t k v) = true := by
  unfold tabSet
  split
  · exact tabWf_tabDel d k h
  · rename_i hv
    refine tabWfFrom_tabIns d k v hv (Nat.zero_le k) (tabWf_tabDel d k h) ?_
    intro p hp
    have := (List.mem_filter.mp hp).2
    simpa using this

theorem tabWf_tabMod (d : Nat → α) {t : Tab α} (k : Nat) (f : α → α) (h : tabWf d t = true) : tabWf d (tabMod d t k f) = true :=
  tabWf_tabSet d k _ h

theorem tabWf_foldl {β : Type} (d : Nat → α) (k : β → Nat) (v : β → α) : ∀ (l : List β) {t : Tab α}, tabWf d t = true →
    tabWf d (l.foldl (fun a x => tabSet d a (k x) (v x)) t) = true
  | [], _, h => h
  | x :: l, _, h => tabWf_foldl d k v l (tabWf_tabSet d (k x) (v x) h)

end Sys2Proof.Machine
end

