-- ==== Sys2Proof/Laws/State.lean ====
section
/-!
SUPPORT. What each named update leaves as it was, one lemma a field, and what it makes of its own field. Generated from the list of
updates in Machine/Ops.lean.
-/
namespace Sys2Proof.Machine

/-! modFault -/
@[simp] theorem Dev.modFault_fault (d : Dev) (f : FaultU → FaultU) : (d.modFault f).fault = f d.fault := rfl
@[simp] theorem Dev.modFault_pin (d : Dev) (f : FaultU → FaultU) : (d.modFault f).pin = d.pin := rfl
@[simp] theorem Dev.modFault_clk (d : Dev) (f : FaultU → FaultU) : (d.modFault f).clk = d.clk := rfl
@[simp] theorem Dev.modFault_cfg (d : Dev) (f : FaultU → FaultU) : (d.modFault f).cfg = d.cfg := rfl
@[simp] theorem Dev.modFault_link (d : Dev) (f : FaultU → FaultU) : (d.modFault f).link = d.link := rfl
@[simp] theorem Dev.modFault_mbox (d : Dev) (f : FaultU → FaultU) : (d.modFault f).mbox = d.mbox := rfl
@[simp] theorem Dev.modFault_telem (d : Dev) (f : FaultU → FaultU) : (d.modFault f).telem = d.telem := rfl
@[simp] theorem Dev.modFault_txn (d : Dev) (f : FaultU → FaultU) : (d.modFault f).txn = d.txn := rfl
@[simp] theorem Dev.modFault_mem (d : Dev) (f : FaultU → FaultU) : (d.modFault f).mem = d.mem := rfl
@[simp] theorem Dev.modFault_qm (d : Dev) (f : FaultU → FaultU) : (d.modFault f).qm = d.qm := rfl
@[simp] theorem Dev.modFault_sla (d : Dev) (f : FaultU → FaultU) : (d.modFault f).sla = d.sla := rfl
@[simp] theorem Dev.modFault_dram (d : Dev) (f : FaultU → FaultU) : (d.modFault f).dram = d.dram := rfl
@[simp] theorem Dev.modFault_ecc (d : Dev) (f : FaultU → FaultU) : (d.modFault f).ecc = d.ecc := rfl
@[simp] theorem Dev.modFault_reg (d : Dev) (f : FaultU → FaultU) : (d.modFault f).reg = d.reg := rfl
@[simp] theorem Dev.modFault_xfer (d : Dev) (f : FaultU → FaultU) : (d.modFault f).xfer = d.xfer := rfl
@[simp] theorem Dev.modFault_therm (d : Dev) (f : FaultU → FaultU) : (d.modFault f).therm = d.therm := rfl
@[simp] theorem Dev.modFault_graft (d : Dev) (f : FaultU → FaultU) : (d.modFault f).graft = d.graft := rfl
@[simp] theorem Dev.modFault_otp (d : Dev) (f : FaultU → FaultU) : (d.modFault f).otp = d.otp := rfl
@[simp] theorem Dev.modFault_mgmt (d : Dev) (f : FaultU → FaultU) : (d.modFault f).mgmt = d.mgmt := rfl
@[simp] theorem Dev.modFault_boot (d : Dev) (f : FaultU → FaultU) : (d.modFault f).boot = d.boot := rfl
@[simp] theorem Dev.modFault_csr (d : Dev) (f : FaultU → FaultU) : (d.modFault f).csr = d.csr := rfl
@[simp] theorem Dev.modFault_evt (d : Dev) (f : FaultU → FaultU) : (d.modFault f).evt = d.evt := rfl
@[simp] theorem Dev.modFault_rcv (d : Dev) (f : FaultU → FaultU) : (d.modFault f).rcv = d.rcv := rfl
@[simp] theorem Dev.modFault_ctr (d : Dev) (f : FaultU → FaultU) : (d.modFault f).ctr = d.ctr := rfl
@[simp] theorem Dev.modFault_sel (d : Dev) (f : FaultU → FaultU) : (d.modFault f).sel = d.sel := rfl
@[simp] theorem Dev.modFault_latch (d : Dev) (f : FaultU → FaultU) : (d.modFault f).latch = d.latch := rfl
@[simp] theorem Dev.modFault_freeIx (d : Dev) (f : FaultU → FaultU) : (d.modFault f).freeIx = d.freeIx := rfl
@[simp] theorem Dev.modFault_dt (d : Dev) (f : FaultU → FaultU) : (d.modFault f).dt = d.dt := rfl
/-! modMbox -/
@[simp] theorem Dev.modMbox_mbox (d : Dev) (f : MboxU → MboxU) : (d.modMbox f).mbox = f d.mbox := rfl
@[simp] theorem Dev.modMbox_pin (d : Dev) (f : MboxU → MboxU) : (d.modMbox f).pin = d.pin := rfl
@[simp] theorem Dev.modMbox_clk (d : Dev) (f : MboxU → MboxU) : (d.modMbox f).clk = d.clk := rfl
@[simp] theorem Dev.modMbox_cfg (d : Dev) (f : MboxU → MboxU) : (d.modMbox f).cfg = d.cfg := rfl
@[simp] theorem Dev.modMbox_link (d : Dev) (f : MboxU → MboxU) : (d.modMbox f).link = d.link := rfl
@[simp] theorem Dev.modMbox_fault (d : Dev) (f : MboxU → MboxU) : (d.modMbox f).fault = d.fault := rfl
@[simp] theorem Dev.modMbox_telem (d : Dev) (f : MboxU → MboxU) : (d.modMbox f).telem = d.telem := rfl
@[simp] theorem Dev.modMbox_txn (d : Dev) (f : MboxU → MboxU) : (d.modMbox f).txn = d.txn := rfl
@[simp] theorem Dev.modMbox_mem (d : Dev) (f : MboxU → MboxU) : (d.modMbox f).mem = d.mem := rfl
@[simp] theorem Dev.modMbox_qm (d : Dev) (f : MboxU → MboxU) : (d.modMbox f).qm = d.qm := rfl
@[simp] theorem Dev.modMbox_sla (d : Dev) (f : MboxU → MboxU) : (d.modMbox f).sla = d.sla := rfl
@[simp] theorem Dev.modMbox_dram (d : Dev) (f : MboxU → MboxU) : (d.modMbox f).dram = d.dram := rfl
@[simp] theorem Dev.modMbox_ecc (d : Dev) (f : MboxU → MboxU) : (d.modMbox f).ecc = d.ecc := rfl
@[simp] theorem Dev.modMbox_reg (d : Dev) (f : MboxU → MboxU) : (d.modMbox f).reg = d.reg := rfl
@[simp] theorem Dev.modMbox_xfer (d : Dev) (f : MboxU → MboxU) : (d.modMbox f).xfer = d.xfer := rfl
@[simp] theorem Dev.modMbox_therm (d : Dev) (f : MboxU → MboxU) : (d.modMbox f).therm = d.therm := rfl
@[simp] theorem Dev.modMbox_graft (d : Dev) (f : MboxU → MboxU) : (d.modMbox f).graft = d.graft := rfl
@[simp] theorem Dev.modMbox_otp (d : Dev) (f : MboxU → MboxU) : (d.modMbox f).otp = d.otp := rfl
@[simp] theorem Dev.modMbox_mgmt (d : Dev) (f : MboxU → MboxU) : (d.modMbox f).mgmt = d.mgmt := rfl
@[simp] theorem Dev.modMbox_boot (d : Dev) (f : MboxU → MboxU) : (d.modMbox f).boot = d.boot := rfl
@[simp] theorem Dev.modMbox_csr (d : Dev) (f : MboxU → MboxU) : (d.modMbox f).csr = d.csr := rfl
@[simp] theorem Dev.modMbox_evt (d : Dev) (f : MboxU → MboxU) : (d.modMbox f).evt = d.evt := rfl
@[simp] theorem Dev.modMbox_rcv (d : Dev) (f : MboxU → MboxU) : (d.modMbox f).rcv = d.rcv := rfl
@[simp] theorem Dev.modMbox_ctr (d : Dev) (f : MboxU → MboxU) : (d.modMbox f).ctr = d.ctr := rfl
@[simp] theorem Dev.modMbox_sel (d : Dev) (f : MboxU → MboxU) : (d.modMbox f).sel = d.sel := rfl
@[simp] theorem Dev.modMbox_latch (d : Dev) (f : MboxU → MboxU) : (d.modMbox f).latch = d.latch := rfl
@[simp] theorem Dev.modMbox_freeIx (d : Dev) (f : MboxU → MboxU) : (d.modMbox f).freeIx = d.freeIx := rfl
@[simp] theorem Dev.modMbox_dt (d : Dev) (f : MboxU → MboxU) : (d.modMbox f).dt = d.dt := rfl
/-! modClk -/
@[simp] theorem Dev.modClk_clk (d : Dev) (f : ClkU → ClkU) : (d.modClk f).clk = f d.clk := rfl
@[simp] theorem Dev.modClk_pin (d : Dev) (f : ClkU → ClkU) : (d.modClk f).pin = d.pin := rfl
@[simp] theorem Dev.modClk_cfg (d : Dev) (f : ClkU → ClkU) : (d.modClk f).cfg = d.cfg := rfl
@[simp] theorem Dev.modClk_link (d : Dev) (f : ClkU → ClkU) : (d.modClk f).link = d.link := rfl
@[simp] theorem Dev.modClk_fault (d : Dev) (f : ClkU → ClkU) : (d.modClk f).fault = d.fault := rfl
@[simp] theorem Dev.modClk_mbox (d : Dev) (f : ClkU → ClkU) : (d.modClk f).mbox = d.mbox := rfl
@[simp] theorem Dev.modClk_telem (d : Dev) (f : ClkU → ClkU) : (d.modClk f).telem = d.telem := rfl
@[simp] theorem Dev.modClk_txn (d : Dev) (f : ClkU → ClkU) : (d.modClk f).txn = d.txn := rfl
@[simp] theorem Dev.modClk_mem (d : Dev) (f : ClkU → ClkU) : (d.modClk f).mem = d.mem := rfl
@[simp] theorem Dev.modClk_qm (d : Dev) (f : ClkU → ClkU) : (d.modClk f).qm = d.qm := rfl
@[simp] theorem Dev.modClk_sla (d : Dev) (f : ClkU → ClkU) : (d.modClk f).sla = d.sla := rfl
@[simp] theorem Dev.modClk_dram (d : Dev) (f : ClkU → ClkU) : (d.modClk f).dram = d.dram := rfl
@[simp] theorem Dev.modClk_ecc (d : Dev) (f : ClkU → ClkU) : (d.modClk f).ecc = d.ecc := rfl
@[simp] theorem Dev.modClk_reg (d : Dev) (f : ClkU → ClkU) : (d.modClk f).reg = d.reg := rfl
@[simp] theorem Dev.modClk_xfer (d : Dev) (f : ClkU → ClkU) : (d.modClk f).xfer = d.xfer := rfl
@[simp] theorem Dev.modClk_therm (d : Dev) (f : ClkU → ClkU) : (d.modClk f).therm = d.therm := rfl
@[simp] theorem Dev.modClk_graft (d : Dev) (f : ClkU → ClkU) : (d.modClk f).graft = d.graft := rfl
@[simp] theorem Dev.modClk_otp (d : Dev) (f : ClkU → ClkU) : (d.modClk f).otp = d.otp := rfl
@[simp] theorem Dev.modClk_mgmt (d : Dev) (f : ClkU → ClkU) : (d.modClk f).mgmt = d.mgmt := rfl
@[simp] theorem Dev.modClk_boot (d : Dev) (f : ClkU → ClkU) : (d.modClk f).boot = d.boot := rfl
@[simp] theorem Dev.modClk_csr (d : Dev) (f : ClkU → ClkU) : (d.modClk f).csr = d.csr := rfl
@[simp] theorem Dev.modClk_evt (d : Dev) (f : ClkU → ClkU) : (d.modClk f).evt = d.evt := rfl
@[simp] theorem Dev.modClk_rcv (d : Dev) (f : ClkU → ClkU) : (d.modClk f).rcv = d.rcv := rfl
@[simp] theorem Dev.modClk_ctr (d : Dev) (f : ClkU → ClkU) : (d.modClk f).ctr = d.ctr := rfl
@[simp] theorem Dev.modClk_sel (d : Dev) (f : ClkU → ClkU) : (d.modClk f).sel = d.sel := rfl
@[simp] theorem Dev.modClk_latch (d : Dev) (f : ClkU → ClkU) : (d.modClk f).latch = d.latch := rfl
@[simp] theorem Dev.modClk_freeIx (d : Dev) (f : ClkU → ClkU) : (d.modClk f).freeIx = d.freeIx := rfl
/-! modPin -/
@[simp] theorem Dev.modPin_pin (d : Dev) (f : PinU → PinU) : (d.modPin f).pin = f d.pin := rfl
@[simp] theorem Dev.modPin_clk (d : Dev) (f : PinU → PinU) : (d.modPin f).clk = d.clk := rfl
@[simp] theorem Dev.modPin_cfg (d : Dev) (f : PinU → PinU) : (d.modPin f).cfg = d.cfg := rfl
@[simp] theorem Dev.modPin_link (d : Dev) (f : PinU → PinU) : (d.modPin f).link = d.link := rfl
@[simp] theorem Dev.modPin_fault (d : Dev) (f : PinU → PinU) : (d.modPin f).fault = d.fault := rfl
@[simp] theorem Dev.modPin_mbox (d : Dev) (f : PinU → PinU) : (d.modPin f).mbox = d.mbox := rfl
@[simp] theorem Dev.modPin_telem (d : Dev) (f : PinU → PinU) : (d.modPin f).telem = d.telem := rfl
@[simp] theorem Dev.modPin_txn (d : Dev) (f : PinU → PinU) : (d.modPin f).txn = d.txn := rfl
@[simp] theorem Dev.modPin_mem (d : Dev) (f : PinU → PinU) : (d.modPin f).mem = d.mem := rfl
@[simp] theorem Dev.modPin_qm (d : Dev) (f : PinU → PinU) : (d.modPin f).qm = d.qm := rfl
@[simp] theorem Dev.modPin_sla (d : Dev) (f : PinU → PinU) : (d.modPin f).sla = d.sla := rfl
@[simp] theorem Dev.modPin_dram (d : Dev) (f : PinU → PinU) : (d.modPin f).dram = d.dram := rfl
@[simp] theorem Dev.modPin_ecc (d : Dev) (f : PinU → PinU) : (d.modPin f).ecc = d.ecc := rfl
@[simp] theorem Dev.modPin_reg (d : Dev) (f : PinU → PinU) : (d.modPin f).reg = d.reg := rfl
@[simp] theorem Dev.modPin_xfer (d : Dev) (f : PinU → PinU) : (d.modPin f).xfer = d.xfer := rfl
@[simp] theorem Dev.modPin_therm (d : Dev) (f : PinU → PinU) : (d.modPin f).therm = d.therm := rfl
@[simp] theorem Dev.modPin_graft (d : Dev) (f : PinU → PinU) : (d.modPin f).graft = d.graft := rfl
@[simp] theorem Dev.modPin_otp (d : Dev) (f : PinU → PinU) : (d.modPin f).otp = d.otp := rfl
@[simp] theorem Dev.modPin_mgmt (d : Dev) (f : PinU → PinU) : (d.modPin f).mgmt = d.mgmt := rfl
@[simp] theorem Dev.modPin_boot (d : Dev) (f : PinU → PinU) : (d.modPin f).boot = d.boot := rfl
@[simp] theorem Dev.modPin_csr (d : Dev) (f : PinU → PinU) : (d.modPin f).csr = d.csr := rfl
@[simp] theorem Dev.modPin_evt (d : Dev) (f : PinU → PinU) : (d.modPin f).evt = d.evt := rfl
@[simp] theorem Dev.modPin_rcv (d : Dev) (f : PinU → PinU) : (d.modPin f).rcv = d.rcv := rfl
@[simp] theorem Dev.modPin_ctr (d : Dev) (f : PinU → PinU) : (d.modPin f).ctr = d.ctr := rfl
@[simp] theorem Dev.modPin_sel (d : Dev) (f : PinU → PinU) : (d.modPin f).sel = d.sel := rfl
@[simp] theorem Dev.modPin_latch (d : Dev) (f : PinU → PinU) : (d.modPin f).latch = d.latch := rfl
@[simp] theorem Dev.modPin_freeIx (d : Dev) (f : PinU → PinU) : (d.modPin f).freeIx = d.freeIx := rfl
@[simp] theorem Dev.modPin_dt (d : Dev) (f : PinU → PinU) : (d.modPin f).dt = d.dt := rfl
/-! modCfg -/
@[simp] theorem Dev.modCfg_cfg (d : Dev) (f : CfgU → CfgU) : (d.modCfg f).cfg = f d.cfg := rfl
@[simp] theorem Dev.modCfg_pin (d : Dev) (f : CfgU → CfgU) : (d.modCfg f).pin = d.pin := rfl
@[simp] theorem Dev.modCfg_clk (d : Dev) (f : CfgU → CfgU) : (d.modCfg f).clk = d.clk := rfl
@[simp] theorem Dev.modCfg_link (d : Dev) (f : CfgU → CfgU) : (d.modCfg f).link = d.link := rfl
@[simp] theorem Dev.modCfg_fault (d : Dev) (f : CfgU → CfgU) : (d.modCfg f).fault = d.fault := rfl
@[simp] theorem Dev.modCfg_mbox (d : Dev) (f : CfgU → CfgU) : (d.modCfg f).mbox = d.mbox := rfl
@[simp] theorem Dev.modCfg_telem (d : Dev) (f : CfgU → CfgU) : (d.modCfg f).telem = d.telem := rfl
@[simp] theorem Dev.modCfg_txn (d : Dev) (f : CfgU → CfgU) : (d.modCfg f).txn = d.txn := rfl
@[simp] theorem Dev.modCfg_mem (d : Dev) (f : CfgU → CfgU) : (d.modCfg f).mem = d.mem := rfl
@[simp] theorem Dev.modCfg_qm (d : Dev) (f : CfgU → CfgU) : (d.modCfg f).qm = d.qm := rfl
@[simp] theorem Dev.modCfg_sla (d : Dev) (f : CfgU → CfgU) : (d.modCfg f).sla = d.sla := rfl
@[simp] theorem Dev.modCfg_dram (d : Dev) (f : CfgU → CfgU) : (d.modCfg f).dram = d.dram := rfl
@[simp] theorem Dev.modCfg_ecc (d : Dev) (f : CfgU → CfgU) : (d.modCfg f).ecc = d.ecc := rfl
@[simp] theorem Dev.modCfg_reg (d : Dev) (f : CfgU → CfgU) : (d.modCfg f).reg = d.reg := rfl
@[simp] theorem Dev.modCfg_xfer (d : Dev) (f : CfgU → CfgU) : (d.modCfg f).xfer = d.xfer := rfl
@[simp] theorem Dev.modCfg_therm (d : Dev) (f : CfgU → CfgU) : (d.modCfg f).therm = d.therm := rfl
@[simp] theorem Dev.modCfg_graft (d : Dev) (f : CfgU → CfgU) : (d.modCfg f).graft = d.graft := rfl
@[simp] theorem Dev.modCfg_otp (d : Dev) (f : CfgU → CfgU) : (d.modCfg f).otp = d.otp := rfl
@[simp] theorem Dev.modCfg_mgmt (d : Dev) (f : CfgU → CfgU) : (d.modCfg f).mgmt = d.mgmt := rfl
@[simp] theorem Dev.modCfg_boot (d : Dev) (f : CfgU → CfgU) : (d.modCfg f).boot = d.boot := rfl
@[simp] theorem Dev.modCfg_csr (d : Dev) (f : CfgU → CfgU) : (d.modCfg f).csr = d.csr := rfl
@[simp] theorem Dev.modCfg_evt (d : Dev) (f : CfgU → CfgU) : (d.modCfg f).evt = d.evt := rfl
@[simp] theorem Dev.modCfg_rcv (d : Dev) (f : CfgU → CfgU) : (d.modCfg f).rcv = d.rcv := rfl
@[simp] theorem Dev.modCfg_ctr (d : Dev) (f : CfgU → CfgU) : (d.modCfg f).ctr = d.ctr := rfl
@[simp] theorem Dev.modCfg_sel (d : Dev) (f : CfgU → CfgU) : (d.modCfg f).sel = d.sel := rfl
@[simp] theorem Dev.modCfg_latch (d : Dev) (f : CfgU → CfgU) : (d.modCfg f).latch = d.latch := rfl
@[simp] theorem Dev.modCfg_freeIx (d : Dev) (f : CfgU → CfgU) : (d.modCfg f).freeIx = d.freeIx := rfl
@[simp] theorem Dev.modCfg_dt (d : Dev) (f : CfgU → CfgU) : (d.modCfg f).dt = d.dt := rfl
/-! modTxn -/
@[simp] theorem Dev.modTxn_txn (d : Dev) (f : TxnU → TxnU) : (d.modTxn f).txn = f d.txn := rfl
@[simp] theorem Dev.modTxn_pin (d : Dev) (f : TxnU → TxnU) : (d.modTxn f).pin = d.pin := rfl
@[simp] theorem Dev.modTxn_clk (d : Dev) (f : TxnU → TxnU) : (d.modTxn f).clk = d.clk := rfl
@[simp] theorem Dev.modTxn_cfg (d : Dev) (f : TxnU → TxnU) : (d.modTxn f).cfg = d.cfg := rfl
@[simp] theorem Dev.modTxn_link (d : Dev) (f : TxnU → TxnU) : (d.modTxn f).link = d.link := rfl
@[simp] theorem Dev.modTxn_fault (d : Dev) (f : TxnU → TxnU) : (d.modTxn f).fault = d.fault := rfl
@[simp] theorem Dev.modTxn_mbox (d : Dev) (f : TxnU → TxnU) : (d.modTxn f).mbox = d.mbox := rfl
@[simp] theorem Dev.modTxn_telem (d : Dev) (f : TxnU → TxnU) : (d.modTxn f).telem = d.telem := rfl
@[simp] theorem Dev.modTxn_mem (d : Dev) (f : TxnU → TxnU) : (d.modTxn f).mem = d.mem := rfl
@[simp] theorem Dev.modTxn_qm (d : Dev) (f : TxnU → TxnU) : (d.modTxn f).qm = d.qm := rfl
@[simp] theorem Dev.modTxn_sla (d : Dev) (f : TxnU → TxnU) : (d.modTxn f).sla = d.sla := rfl
@[simp] theorem Dev.modTxn_dram (d : Dev) (f : TxnU → TxnU) : (d.modTxn f).dram = d.dram := rfl
@[simp] theorem Dev.modTxn_ecc (d : Dev) (f : TxnU → TxnU) : (d.modTxn f).ecc = d.ecc := rfl
@[simp] theorem Dev.modTxn_reg (d : Dev) (f : TxnU → TxnU) : (d.modTxn f).reg = d.reg := rfl
@[simp] theorem Dev.modTxn_xfer (d : Dev) (f : TxnU → TxnU) : (d.modTxn f).xfer = d.xfer := rfl
@[simp] theorem Dev.modTxn_therm (d : Dev) (f : TxnU → TxnU) : (d.modTxn f).therm = d.therm := rfl
@[simp] theorem Dev.modTxn_graft (d : Dev) (f : TxnU → TxnU) : (d.modTxn f).graft = d.graft := rfl
@[simp] theorem Dev.modTxn_otp (d : Dev) (f : TxnU → TxnU) : (d.modTxn f).otp = d.otp := rfl
@[simp] theorem Dev.modTxn_mgmt (d : Dev) (f : TxnU → TxnU) : (d.modTxn f).mgmt = d.mgmt := rfl
@[simp] theorem Dev.modTxn_boot (d : Dev) (f : TxnU → TxnU) : (d.modTxn f).boot = d.boot := rfl
@[simp] theorem Dev.modTxn_csr (d : Dev) (f : TxnU → TxnU) : (d.modTxn f).csr = d.csr := rfl
@[simp] theorem Dev.modTxn_evt (d : Dev) (f : TxnU → TxnU) : (d.modTxn f).evt = d.evt := rfl
@[simp] theorem Dev.modTxn_rcv (d : Dev) (f : TxnU → TxnU) : (d.modTxn f).rcv = d.rcv := rfl
@[simp] theorem Dev.modTxn_ctr (d : Dev) (f : TxnU → TxnU) : (d.modTxn f).ctr = d.ctr := rfl
@[simp] theorem Dev.modTxn_sel (d : Dev) (f : TxnU → TxnU) : (d.modTxn f).sel = d.sel := rfl
@[simp] theorem Dev.modTxn_latch (d : Dev) (f : TxnU → TxnU) : (d.modTxn f).latch = d.latch := rfl
@[simp] theorem Dev.modTxn_freeIx (d : Dev) (f : TxnU → TxnU) : (d.modTxn f).freeIx = d.freeIx := rfl
@[simp] theorem Dev.modTxn_dt (d : Dev) (f : TxnU → TxnU) : (d.modTxn f).dt = d.dt := rfl
/-! modMem -/
@[simp] theorem Dev.modMem_mem (d : Dev) (f : MemU → MemU) : (d.modMem f).mem = f d.mem := rfl
@[simp] theorem Dev.modMem_pin (d : Dev) (f : MemU → MemU) : (d.modMem f).pin = d.pin := rfl
@[simp] theorem Dev.modMem_clk (d : Dev) (f : MemU → MemU) : (d.modMem f).clk = d.clk := rfl
@[simp] theorem Dev.modMem_cfg (d : Dev) (f : MemU → MemU) : (d.modMem f).cfg = d.cfg := rfl
@[simp] theorem Dev.modMem_link (d : Dev) (f : MemU → MemU) : (d.modMem f).link = d.link := rfl
@[simp] theorem Dev.modMem_fault (d : Dev) (f : MemU → MemU) : (d.modMem f).fault = d.fault := rfl
@[simp] theorem Dev.modMem_mbox (d : Dev) (f : MemU → MemU) : (d.modMem f).mbox = d.mbox := rfl
@[simp] theorem Dev.modMem_telem (d : Dev) (f : MemU → MemU) : (d.modMem f).telem = d.telem := rfl
@[simp] theorem Dev.modMem_txn (d : Dev) (f : MemU → MemU) : (d.modMem f).txn = d.txn := rfl
@[simp] theorem Dev.modMem_qm (d : Dev) (f : MemU → MemU) : (d.modMem f).qm = d.qm := rfl
@[simp] theorem Dev.modMem_sla (d : Dev) (f : MemU → MemU) : (d.modMem f).sla = d.sla := rfl
@[simp] theorem Dev.modMem_dram (d : Dev) (f : MemU → MemU) : (d.modMem f).dram = d.dram := rfl
@[simp] theorem Dev.modMem_ecc (d : Dev) (f : MemU → MemU) : (d.modMem f).ecc = d.ecc := rfl
@[simp] theorem Dev.modMem_reg (d : Dev) (f : MemU → MemU) : (d.modMem f).reg = d.reg := rfl
@[simp] theorem Dev.modMem_xfer (d : Dev) (f : MemU → MemU) : (d.modMem f).xfer = d.xfer := rfl
@[simp] theorem Dev.modMem_therm (d : Dev) (f : MemU → MemU) : (d.modMem f).therm = d.therm := rfl
@[simp] theorem Dev.modMem_graft (d : Dev) (f : MemU → MemU) : (d.modMem f).graft = d.graft := rfl
@[simp] theorem Dev.modMem_otp (d : Dev) (f : MemU → MemU) : (d.modMem f).otp = d.otp := rfl
@[simp] theorem Dev.modMem_mgmt (d : Dev) (f : MemU → MemU) : (d.modMem f).mgmt = d.mgmt := rfl
@[simp] theorem Dev.modMem_boot (d : Dev) (f : MemU → MemU) : (d.modMem f).boot = d.boot := rfl
@[simp] theorem Dev.modMem_csr (d : Dev) (f : MemU → MemU) : (d.modMem f).csr = d.csr := rfl
@[simp] theorem Dev.modMem_evt (d : Dev) (f : MemU → MemU) : (d.modMem f).evt = d.evt := rfl
@[simp] theorem Dev.modMem_rcv (d : Dev) (f : MemU → MemU) : (d.modMem f).rcv = d.rcv := rfl
@[simp] theorem Dev.modMem_ctr (d : Dev) (f : MemU → MemU) : (d.modMem f).ctr = d.ctr := rfl
@[simp] theorem Dev.modMem_sel (d : Dev) (f : MemU → MemU) : (d.modMem f).sel = d.sel := rfl
@[simp] theorem Dev.modMem_latch (d : Dev) (f : MemU → MemU) : (d.modMem f).latch = d.latch := rfl
@[simp] theorem Dev.modMem_freeIx (d : Dev) (f : MemU → MemU) : (d.modMem f).freeIx = d.freeIx := rfl
@[simp] theorem Dev.modMem_dt (d : Dev) (f : MemU → MemU) : (d.modMem f).dt = d.dt := rfl
/-! modQm -/
@[simp] theorem Dev.modQm_qm (d : Dev) (f : QmU → QmU) : (d.modQm f).qm = f d.qm := rfl
@[simp] theorem Dev.modQm_pin (d : Dev) (f : QmU → QmU) : (d.modQm f).pin = d.pin := rfl
@[simp] theorem Dev.modQm_clk (d : Dev) (f : QmU → QmU) : (d.modQm f).clk = d.clk := rfl
@[simp] theorem Dev.modQm_cfg (d : Dev) (f : QmU → QmU) : (d.modQm f).cfg = d.cfg := rfl
@[simp] theorem Dev.modQm_link (d : Dev) (f : QmU → QmU) : (d.modQm f).link = d.link := rfl
@[simp] theorem Dev.modQm_fault (d : Dev) (f : QmU → QmU) : (d.modQm f).fault = d.fault := rfl
@[simp] theorem Dev.modQm_mbox (d : Dev) (f : QmU → QmU) : (d.modQm f).mbox = d.mbox := rfl
@[simp] theorem Dev.modQm_telem (d : Dev) (f : QmU → QmU) : (d.modQm f).telem = d.telem := rfl
@[simp] theorem Dev.modQm_txn (d : Dev) (f : QmU → QmU) : (d.modQm f).txn = d.txn := rfl
@[simp] theorem Dev.modQm_mem (d : Dev) (f : QmU → QmU) : (d.modQm f).mem = d.mem := rfl
@[simp] theorem Dev.modQm_sla (d : Dev) (f : QmU → QmU) : (d.modQm f).sla = d.sla := rfl
@[simp] theorem Dev.modQm_dram (d : Dev) (f : QmU → QmU) : (d.modQm f).dram = d.dram := rfl
@[simp] theorem Dev.modQm_ecc (d : Dev) (f : QmU → QmU) : (d.modQm f).ecc = d.ecc := rfl
@[simp] theorem Dev.modQm_reg (d : Dev) (f : QmU → QmU) : (d.modQm f).reg = d.reg := rfl
@[simp] theorem Dev.modQm_xfer (d : Dev) (f : QmU → QmU) : (d.modQm f).xfer = d.xfer := rfl
@[simp] theorem Dev.modQm_therm (d : Dev) (f : QmU → QmU) : (d.modQm f).therm = d.therm := rfl
@[simp] theorem Dev.modQm_graft (d : Dev) (f : QmU → QmU) : (d.modQm f).graft = d.graft := rfl
@[simp] theorem Dev.modQm_otp (d : Dev) (f : QmU → QmU) : (d.modQm f).otp = d.otp := rfl
@[simp] theorem Dev.modQm_mgmt (d : Dev) (f : QmU → QmU) : (d.modQm f).mgmt = d.mgmt := rfl
@[simp] theorem Dev.modQm_boot (d : Dev) (f : QmU → QmU) : (d.modQm f).boot = d.boot := rfl
@[simp] theorem Dev.modQm_csr (d : Dev) (f : QmU → QmU) : (d.modQm f).csr = d.csr := rfl
@[simp] theorem Dev.modQm_evt (d : Dev) (f : QmU → QmU) : (d.modQm f).evt = d.evt := rfl
@[simp] theorem Dev.modQm_rcv (d : Dev) (f : QmU → QmU) : (d.modQm f).rcv = d.rcv := rfl
@[simp] theorem Dev.modQm_ctr (d : Dev) (f : QmU → QmU) : (d.modQm f).ctr = d.ctr := rfl
@[simp] theorem Dev.modQm_sel (d : Dev) (f : QmU → QmU) : (d.modQm f).sel = d.sel := rfl
@[simp] theorem Dev.modQm_latch (d : Dev) (f : QmU → QmU) : (d.modQm f).latch = d.latch := rfl
@[simp] theorem Dev.modQm_freeIx (d : Dev) (f : QmU → QmU) : (d.modQm f).freeIx = d.freeIx := rfl
@[simp] theorem Dev.modQm_dt (d : Dev) (f : QmU → QmU) : (d.modQm f).dt = d.dt := rfl
/-! modEcc -/
@[simp] theorem Dev.modEcc_ecc (d : Dev) (f : EccU → EccU) : (d.modEcc f).ecc = f d.ecc := rfl
@[simp] theorem Dev.modEcc_pin (d : Dev) (f : EccU → EccU) : (d.modEcc f).pin = d.pin := rfl
@[simp] theorem Dev.modEcc_clk (d : Dev) (f : EccU → EccU) : (d.modEcc f).clk = d.clk := rfl
@[simp] theorem Dev.modEcc_cfg (d : Dev) (f : EccU → EccU) : (d.modEcc f).cfg = d.cfg := rfl
@[simp] theorem Dev.modEcc_link (d : Dev) (f : EccU → EccU) : (d.modEcc f).link = d.link := rfl
@[simp] theorem Dev.modEcc_fault (d : Dev) (f : EccU → EccU) : (d.modEcc f).fault = d.fault := rfl
@[simp] theorem Dev.modEcc_mbox (d : Dev) (f : EccU → EccU) : (d.modEcc f).mbox = d.mbox := rfl
@[simp] theorem Dev.modEcc_telem (d : Dev) (f : EccU → EccU) : (d.modEcc f).telem = d.telem := rfl
@[simp] theorem Dev.modEcc_txn (d : Dev) (f : EccU → EccU) : (d.modEcc f).txn = d.txn := rfl
@[simp] theorem Dev.modEcc_mem (d : Dev) (f : EccU → EccU) : (d.modEcc f).mem = d.mem := rfl
@[simp] theorem Dev.modEcc_qm (d : Dev) (f : EccU → EccU) : (d.modEcc f).qm = d.qm := rfl
@[simp] theorem Dev.modEcc_sla (d : Dev) (f : EccU → EccU) : (d.modEcc f).sla = d.sla := rfl
@[simp] theorem Dev.modEcc_dram (d : Dev) (f : EccU → EccU) : (d.modEcc f).dram = d.dram := rfl
@[simp] theorem Dev.modEcc_reg (d : Dev) (f : EccU → EccU) : (d.modEcc f).reg = d.reg := rfl
@[simp] theorem Dev.modEcc_xfer (d : Dev) (f : EccU → EccU) : (d.modEcc f).xfer = d.xfer := rfl
@[simp] theorem Dev.modEcc_therm (d : Dev) (f : EccU → EccU) : (d.modEcc f).therm = d.therm := rfl
@[simp] theorem Dev.modEcc_graft (d : Dev) (f : EccU → EccU) : (d.modEcc f).graft = d.graft := rfl
@[simp] theorem Dev.modEcc_otp (d : Dev) (f : EccU → EccU) : (d.modEcc f).otp = d.otp := rfl
@[simp] theorem Dev.modEcc_mgmt (d : Dev) (f : EccU → EccU) : (d.modEcc f).mgmt = d.mgmt := rfl
@[simp] theorem Dev.modEcc_boot (d : Dev) (f : EccU → EccU) : (d.modEcc f).boot = d.boot := rfl
@[simp] theorem Dev.modEcc_csr (d : Dev) (f : EccU → EccU) : (d.modEcc f).csr = d.csr := rfl
@[simp] theorem Dev.modEcc_evt (d : Dev) (f : EccU → EccU) : (d.modEcc f).evt = d.evt := rfl
@[simp] theorem Dev.modEcc_rcv (d : Dev) (f : EccU → EccU) : (d.modEcc f).rcv = d.rcv := rfl
@[simp] theorem Dev.modEcc_ctr (d : Dev) (f : EccU → EccU) : (d.modEcc f).ctr = d.ctr := rfl
@[simp] theorem Dev.modEcc_sel (d : Dev) (f : EccU → EccU) : (d.modEcc f).sel = d.sel := rfl
@[simp] theorem Dev.modEcc_latch (d : Dev) (f : EccU → EccU) : (d.modEcc f).latch = d.latch := rfl
@[simp] theorem Dev.modEcc_freeIx (d : Dev) (f : EccU → EccU) : (d.modEcc f).freeIx = d.freeIx := rfl
@[simp] theorem Dev.modEcc_dt (d : Dev) (f : EccU → EccU) : (d.modEcc f).dt = d.dt := rfl
/-! modReg -/
@[simp] theorem Dev.modReg_reg (d : Dev) (f : RegU → RegU) : (d.modReg f).reg = f d.reg := rfl
@[simp] theorem Dev.modReg_pin (d : Dev) (f : RegU → RegU) : (d.modReg f).pin = d.pin := rfl
@[simp] theorem Dev.modReg_clk (d : Dev) (f : RegU → RegU) : (d.modReg f).clk = d.clk := rfl
@[simp] theorem Dev.modReg_cfg (d : Dev) (f : RegU → RegU) : (d.modReg f).cfg = d.cfg := rfl
@[simp] theorem Dev.modReg_link (d : Dev) (f : RegU → RegU) : (d.modReg f).link = d.link := rfl
@[simp] theorem Dev.modReg_fault (d : Dev) (f : RegU → RegU) : (d.modReg f).fault = d.fault := rfl
@[simp] theorem Dev.modReg_mbox (d : Dev) (f : RegU → RegU) : (d.modReg f).mbox = d.mbox := rfl
@[simp] theorem Dev.modReg_telem (d : Dev) (f : RegU → RegU) : (d.modReg f).telem = d.telem := rfl
@[simp] theorem Dev.modReg_txn (d : Dev) (f : RegU → RegU) : (d.modReg f).txn = d.txn := rfl
@[simp] theorem Dev.modReg_mem (d : Dev) (f : RegU → RegU) : (d.modReg f).mem = d.mem := rfl
@[simp] theorem Dev.modReg_qm (d : Dev) (f : RegU → RegU) : (d.modReg f).qm = d.qm := rfl
@[simp] theorem Dev.modReg_sla (d : Dev) (f : RegU → RegU) : (d.modReg f).sla = d.sla := rfl
@[simp] theorem Dev.modReg_dram (d : Dev) (f : RegU → RegU) : (d.modReg f).dram = d.dram := rfl
@[simp] theorem Dev.modReg_ecc (d : Dev) (f : RegU → RegU) : (d.modReg f).ecc = d.ecc := rfl
@[simp] theorem Dev.modReg_xfer (d : Dev) (f : RegU → RegU) : (d.modReg f).xfer = d.xfer := rfl
@[simp] theorem Dev.modReg_therm (d : Dev) (f : RegU → RegU) : (d.modReg f).therm = d.therm := rfl
@[simp] theorem Dev.modReg_graft (d : Dev) (f : RegU → RegU) : (d.modReg f).graft = d.graft := rfl
@[simp] theorem Dev.modReg_otp (d : Dev) (f : RegU → RegU) : (d.modReg f).otp = d.otp := rfl
@[simp] theorem Dev.modReg_mgmt (d : Dev) (f : RegU → RegU) : (d.modReg f).mgmt = d.mgmt := rfl
@[simp] theorem Dev.modReg_boot (d : Dev) (f : RegU → RegU) : (d.modReg f).boot = d.boot := rfl
@[simp] theorem Dev.modReg_csr (d : Dev) (f : RegU → RegU) : (d.modReg f).csr = d.csr := rfl
@[simp] theorem Dev.modReg_evt (d : Dev) (f : RegU → RegU) : (d.modReg f).evt = d.evt := rfl
@[simp] theorem Dev.modReg_rcv (d : Dev) (f : RegU → RegU) : (d.modReg f).rcv = d.rcv := rfl
@[simp] theorem Dev.modReg_ctr (d : Dev) (f : RegU → RegU) : (d.modReg f).ctr = d.ctr := rfl
@[simp] theorem Dev.modReg_sel (d : Dev) (f : RegU → RegU) : (d.modReg f).sel = d.sel := rfl
@[simp] theorem Dev.modReg_latch (d : Dev) (f : RegU → RegU) : (d.modReg f).latch = d.latch := rfl
@[simp] theorem Dev.modReg_freeIx (d : Dev) (f : RegU → RegU) : (d.modReg f).freeIx = d.freeIx := rfl
@[simp] theorem Dev.modReg_dt (d : Dev) (f : RegU → RegU) : (d.modReg f).dt = d.dt := rfl
/-! modTherm -/
@[simp] theorem Dev.modTherm_therm (d : Dev) (f : ThermU → ThermU) : (d.modTherm f).therm = f d.therm := rfl
@[simp] theorem Dev.modTherm_pin (d : Dev) (f : ThermU → ThermU) : (d.modTherm f).pin = d.pin := rfl
@[simp] theorem Dev.modTherm_clk (d : Dev) (f : ThermU → ThermU) : (d.modTherm f).clk = d.clk := rfl
@[simp] theorem Dev.modTherm_cfg (d : Dev) (f : ThermU → ThermU) : (d.modTherm f).cfg = d.cfg := rfl
@[simp] theorem Dev.modTherm_link (d : Dev) (f : ThermU → ThermU) : (d.modTherm f).link = d.link := rfl
@[simp] theorem Dev.modTherm_fault (d : Dev) (f : ThermU → ThermU) : (d.modTherm f).fault = d.fault := rfl
@[simp] theorem Dev.modTherm_mbox (d : Dev) (f : ThermU → ThermU) : (d.modTherm f).mbox = d.mbox := rfl
@[simp] theorem Dev.modTherm_telem (d : Dev) (f : ThermU → ThermU) : (d.modTherm f).telem = d.telem := rfl
@[simp] theorem Dev.modTherm_txn (d : Dev) (f : ThermU → ThermU) : (d.modTherm f).txn = d.txn := rfl
@[simp] theorem Dev.modTherm_mem (d : Dev) (f : ThermU → ThermU) : (d.modTherm f).mem = d.mem := rfl
@[simp] theorem Dev.modTherm_qm (d : Dev) (f : ThermU → ThermU) : (d.modTherm f).qm = d.qm := rfl
@[simp] theorem Dev.modTherm_sla (d : Dev) (f : ThermU → ThermU) : (d.modTherm f).sla = d.sla := rfl
@[simp] theorem Dev.modTherm_dram (d : Dev) (f : ThermU → ThermU) : (d.modTherm f).dram = d.dram := rfl
@[simp] theorem Dev.modTherm_ecc (d : Dev) (f : ThermU → ThermU) : (d.modTherm f).ecc = d.ecc := rfl
@[simp] theorem Dev.modTherm_reg (d : Dev) (f : ThermU → ThermU) : (d.modTherm f).reg = d.reg := rfl
@[simp] theorem Dev.modTherm_xfer (d : Dev) (f : ThermU → ThermU) : (d.modTherm f).xfer = d.xfer := rfl
@[simp] theorem Dev.modTherm_graft (d : Dev) (f : ThermU → ThermU) : (d.modTherm f).graft = d.graft := rfl
@[simp] theorem Dev.modTherm_otp (d : Dev) (f : ThermU → ThermU) : (d.modTherm f).otp = d.otp := rfl
@[simp] theorem Dev.modTherm_mgmt (d : Dev) (f : ThermU → ThermU) : (d.modTherm f).mgmt = d.mgmt := rfl
@[simp] theorem Dev.modTherm_boot (d : Dev) (f : ThermU → ThermU) : (d.modTherm f).boot = d.boot := rfl
@[simp] theorem Dev.modTherm_csr (d : Dev) (f : ThermU → ThermU) : (d.modTherm f).csr = d.csr := rfl
@[simp] theorem Dev.modTherm_evt (d : Dev) (f : ThermU → ThermU) : (d.modTherm f).evt = d.evt := rfl
@[simp] theorem Dev.modTherm_rcv (d : Dev) (f : ThermU → ThermU) : (d.modTherm f).rcv = d.rcv := rfl
@[simp] theorem Dev.modTherm_ctr (d : Dev) (f : ThermU → ThermU) : (d.modTherm f).ctr = d.ctr := rfl
@[simp] theorem Dev.modTherm_sel (d : Dev) (f : ThermU → ThermU) : (d.modTherm f).sel = d.sel := rfl
@[simp] theorem Dev.modTherm_latch (d : Dev) (f : ThermU → ThermU) : (d.modTherm f).latch = d.latch := rfl
@[simp] theorem Dev.modTherm_freeIx (d : Dev) (f : ThermU → ThermU) : (d.modTherm f).freeIx = d.freeIx := rfl
@[simp] theorem Dev.modTherm_dt (d : Dev) (f : ThermU → ThermU) : (d.modTherm f).dt = d.dt := rfl
/-! modGraft -/
@[simp] theorem Dev.modGraft_graft (d : Dev) (f : GraftU → GraftU) : (d.modGraft f).graft = f d.graft := rfl
@[simp] theorem Dev.modGraft_pin (d : Dev) (f : GraftU → GraftU) : (d.modGraft f).pin = d.pin := rfl
@[simp] theorem Dev.modGraft_clk (d : Dev) (f : GraftU → GraftU) : (d.modGraft f).clk = d.clk := rfl
@[simp] theorem Dev.modGraft_cfg (d : Dev) (f : GraftU → GraftU) : (d.modGraft f).cfg = d.cfg := rfl
@[simp] theorem Dev.modGraft_link (d : Dev) (f : GraftU → GraftU) : (d.modGraft f).link = d.link := rfl
@[simp] theorem Dev.modGraft_fault (d : Dev) (f : GraftU → GraftU) : (d.modGraft f).fault = d.fault := rfl
@[simp] theorem Dev.modGraft_mbox (d : Dev) (f : GraftU → GraftU) : (d.modGraft f).mbox = d.mbox := rfl
@[simp] theorem Dev.modGraft_telem (d : Dev) (f : GraftU → GraftU) : (d.modGraft f).telem = d.telem := rfl
@[simp] theorem Dev.modGraft_txn (d : Dev) (f : GraftU → GraftU) : (d.modGraft f).txn = d.txn := rfl
@[simp] theorem Dev.modGraft_mem (d : Dev) (f : GraftU → GraftU) : (d.modGraft f).mem = d.mem := rfl
@[simp] theorem Dev.modGraft_qm (d : Dev) (f : GraftU → GraftU) : (d.modGraft f).qm = d.qm := rfl
@[simp] theorem Dev.modGraft_sla (d : Dev) (f : GraftU → GraftU) : (d.modGraft f).sla = d.sla := rfl
@[simp] theorem Dev.modGraft_dram (d : Dev) (f : GraftU → GraftU) : (d.modGraft f).dram = d.dram := rfl
@[simp] theorem Dev.modGraft_ecc (d : Dev) (f : GraftU → GraftU) : (d.modGraft f).ecc = d.ecc := rfl
@[simp] theorem Dev.modGraft_reg (d : Dev) (f : GraftU → GraftU) : (d.modGraft f).reg = d.reg := rfl
@[simp] theorem Dev.modGraft_xfer (d : Dev) (f : GraftU → GraftU) : (d.modGraft f).xfer = d.xfer := rfl
@[simp] theorem Dev.modGraft_therm (d : Dev) (f : GraftU → GraftU) : (d.modGraft f).therm = d.therm := rfl
@[simp] theorem Dev.modGraft_otp (d : Dev) (f : GraftU → GraftU) : (d.modGraft f).otp = d.otp := rfl
@[simp] theorem Dev.modGraft_mgmt (d : Dev) (f : GraftU → GraftU) : (d.modGraft f).mgmt = d.mgmt := rfl
@[simp] theorem Dev.modGraft_boot (d : Dev) (f : GraftU → GraftU) : (d.modGraft f).boot = d.boot := rfl
@[simp] theorem Dev.modGraft_csr (d : Dev) (f : GraftU → GraftU) : (d.modGraft f).csr = d.csr := rfl
@[simp] theorem Dev.modGraft_evt (d : Dev) (f : GraftU → GraftU) : (d.modGraft f).evt = d.evt := rfl
@[simp] theorem Dev.modGraft_rcv (d : Dev) (f : GraftU → GraftU) : (d.modGraft f).rcv = d.rcv := rfl
@[simp] theorem Dev.modGraft_ctr (d : Dev) (f : GraftU → GraftU) : (d.modGraft f).ctr = d.ctr := rfl
@[simp] theorem Dev.modGraft_sel (d : Dev) (f : GraftU → GraftU) : (d.modGraft f).sel = d.sel := rfl
@[simp] theorem Dev.modGraft_latch (d : Dev) (f : GraftU → GraftU) : (d.modGraft f).latch = d.latch := rfl
@[simp] theorem Dev.modGraft_freeIx (d : Dev) (f : GraftU → GraftU) : (d.modGraft f).freeIx = d.freeIx := rfl
@[simp] theorem Dev.modGraft_dt (d : Dev) (f : GraftU → GraftU) : (d.modGraft f).dt = d.dt := rfl
/-! modOtp -/
@[simp] theorem Dev.modOtp_otp (d : Dev) (f : OtpU → OtpU) : (d.modOtp f).otp = f d.otp := rfl
@[simp] theorem Dev.modOtp_pin (d : Dev) (f : OtpU → OtpU) : (d.modOtp f).pin = d.pin := rfl
@[simp] theorem Dev.modOtp_clk (d : Dev) (f : OtpU → OtpU) : (d.modOtp f).clk = d.clk := rfl
@[simp] theorem Dev.modOtp_cfg (d : Dev) (f : OtpU → OtpU) : (d.modOtp f).cfg = d.cfg := rfl
@[simp] theorem Dev.modOtp_link (d : Dev) (f : OtpU → OtpU) : (d.modOtp f).link = d.link := rfl
@[simp] theorem Dev.modOtp_fault (d : Dev) (f : OtpU → OtpU) : (d.modOtp f).fault = d.fault := rfl
@[simp] theorem Dev.modOtp_mbox (d : Dev) (f : OtpU → OtpU) : (d.modOtp f).mbox = d.mbox := rfl
@[simp] theorem Dev.modOtp_telem (d : Dev) (f : OtpU → OtpU) : (d.modOtp f).telem = d.telem := rfl
@[simp] theorem Dev.modOtp_txn (d : Dev) (f : OtpU → OtpU) : (d.modOtp f).txn = d.txn := rfl
@[simp] theorem Dev.modOtp_mem (d : Dev) (f : OtpU → OtpU) : (d.modOtp f).mem = d.mem := rfl
@[simp] theorem Dev.modOtp_qm (d : Dev) (f : OtpU → OtpU) : (d.modOtp f).qm = d.qm := rfl
@[simp] theorem Dev.modOtp_sla (d : Dev) (f : OtpU → OtpU) : (d.modOtp f).sla = d.sla := rfl
@[simp] theorem Dev.modOtp_dram (d : Dev) (f : OtpU → OtpU) : (d.modOtp f).dram = d.dram := rfl
@[simp] theorem Dev.modOtp_ecc (d : Dev) (f : OtpU → OtpU) : (d.modOtp f).ecc = d.ecc := rfl
@[simp] theorem Dev.modOtp_reg (d : Dev) (f : OtpU → OtpU) : (d.modOtp f).reg = d.reg := rfl
@[simp] theorem Dev.modOtp_xfer (d : Dev) (f : OtpU → OtpU) : (d.modOtp f).xfer = d.xfer := rfl
@[simp] theorem Dev.modOtp_therm (d : Dev) (f : OtpU → OtpU) : (d.modOtp f).therm = d.therm := rfl
@[simp] theorem Dev.modOtp_graft (d : Dev) (f : OtpU → OtpU) : (d.modOtp f).graft = d.graft := rfl
@[simp] theorem Dev.modOtp_mgmt (d : Dev) (f : OtpU → OtpU) : (d.modOtp f).mgmt = d.mgmt := rfl
@[simp] theorem Dev.modOtp_boot (d : Dev) (f : OtpU → OtpU) : (d.modOtp f).boot = d.boot := rfl
@[simp] theorem Dev.modOtp_csr (d : Dev) (f : OtpU → OtpU) : (d.modOtp f).csr = d.csr := rfl
@[simp] theorem Dev.modOtp_evt (d : Dev) (f : OtpU → OtpU) : (d.modOtp f).evt = d.evt := rfl
@[simp] theorem Dev.modOtp_rcv (d : Dev) (f : OtpU → OtpU) : (d.modOtp f).rcv = d.rcv := rfl
@[simp] theorem Dev.modOtp_ctr (d : Dev) (f : OtpU → OtpU) : (d.modOtp f).ctr = d.ctr := rfl
@[simp] theorem Dev.modOtp_sel (d : Dev) (f : OtpU → OtpU) : (d.modOtp f).sel = d.sel := rfl
@[simp] theorem Dev.modOtp_latch (d : Dev) (f : OtpU → OtpU) : (d.modOtp f).latch = d.latch := rfl
@[simp] theorem Dev.modOtp_freeIx (d : Dev) (f : OtpU → OtpU) : (d.modOtp f).freeIx = d.freeIx := rfl
@[simp] theorem Dev.modOtp_dt (d : Dev) (f : OtpU → OtpU) : (d.modOtp f).dt = d.dt := rfl
/-! modMgmt -/
@[simp] theorem Dev.modMgmt_mgmt (d : Dev) (f : MgmtU → MgmtU) : (d.modMgmt f).mgmt = f d.mgmt := rfl
@[simp] theorem Dev.modMgmt_pin (d : Dev) (f : MgmtU → MgmtU) : (d.modMgmt f).pin = d.pin := rfl
@[simp] theorem Dev.modMgmt_clk (d : Dev) (f : MgmtU → MgmtU) : (d.modMgmt f).clk = d.clk := rfl
@[simp] theorem Dev.modMgmt_cfg (d : Dev) (f : MgmtU → MgmtU) : (d.modMgmt f).cfg = d.cfg := rfl
@[simp] theorem Dev.modMgmt_link (d : Dev) (f : MgmtU → MgmtU) : (d.modMgmt f).link = d.link := rfl
@[simp] theorem Dev.modMgmt_fault (d : Dev) (f : MgmtU → MgmtU) : (d.modMgmt f).fault = d.fault := rfl
@[simp] theorem Dev.modMgmt_mbox (d : Dev) (f : MgmtU → MgmtU) : (d.modMgmt f).mbox = d.mbox := rfl
@[simp] theorem Dev.modMgmt_telem (d : Dev) (f : MgmtU → MgmtU) : (d.modMgmt f).telem = d.telem := rfl
@[simp] theorem Dev.modMgmt_txn (d : Dev) (f : MgmtU → MgmtU) : (d.modMgmt f).txn = d.txn := rfl
@[simp] theorem Dev.modMgmt_mem (d : Dev) (f : MgmtU → MgmtU) : (d.modMgmt f).mem = d.mem := rfl
@[simp] theorem Dev.modMgmt_qm (d : Dev) (f : MgmtU → MgmtU) : (d.modMgmt f).qm = d.qm := rfl
@[simp] theorem Dev.modMgmt_sla (d : Dev) (f : MgmtU → MgmtU) : (d.modMgmt f).sla = d.sla := rfl
@[simp] theorem Dev.modMgmt_dram (d : Dev) (f : MgmtU → MgmtU) : (d.modMgmt f).dram = d.dram := rfl
@[simp] theorem Dev.modMgmt_ecc (d : Dev) (f : MgmtU → MgmtU) : (d.modMgmt f).ecc = d.ecc := rfl
@[simp] theorem Dev.modMgmt_reg (d : Dev) (f : MgmtU → MgmtU) : (d.modMgmt f).reg = d.reg := rfl
@[simp] theorem Dev.modMgmt_xfer (d : Dev) (f : MgmtU → MgmtU) : (d.modMgmt f).xfer = d.xfer := rfl
@[simp] theorem Dev.modMgmt_therm (d : Dev) (f : MgmtU → MgmtU) : (d.modMgmt f).therm = d.therm := rfl
@[simp] theorem Dev.modMgmt_graft (d : Dev) (f : MgmtU → MgmtU) : (d.modMgmt f).graft = d.graft := rfl
@[simp] theorem Dev.modMgmt_otp (d : Dev) (f : MgmtU → MgmtU) : (d.modMgmt f).otp = d.otp := rfl
@[simp] theorem Dev.modMgmt_boot (d : Dev) (f : MgmtU → MgmtU) : (d.modMgmt f).boot = d.boot := rfl
@[simp] theorem Dev.modMgmt_csr (d : Dev) (f : MgmtU → MgmtU) : (d.modMgmt f).csr = d.csr := rfl
@[simp] theorem Dev.modMgmt_evt (d : Dev) (f : MgmtU → MgmtU) : (d.modMgmt f).evt = d.evt := rfl
@[simp] theorem Dev.modMgmt_rcv (d : Dev) (f : MgmtU → MgmtU) : (d.modMgmt f).rcv = d.rcv := rfl
@[simp] theorem Dev.modMgmt_ctr (d : Dev) (f : MgmtU → MgmtU) : (d.modMgmt f).ctr = d.ctr := rfl
@[simp] theorem Dev.modMgmt_sel (d : Dev) (f : MgmtU → MgmtU) : (d.modMgmt f).sel = d.sel := rfl
@[simp] theorem Dev.modMgmt_latch (d : Dev) (f : MgmtU → MgmtU) : (d.modMgmt f).latch = d.latch := rfl
@[simp] theorem Dev.modMgmt_freeIx (d : Dev) (f : MgmtU → MgmtU) : (d.modMgmt f).freeIx = d.freeIx := rfl
@[simp] theorem Dev.modMgmt_dt (d : Dev) (f : MgmtU → MgmtU) : (d.modMgmt f).dt = d.dt := rfl
/-! modBoot -/
@[simp] theorem Dev.modBoot_boot (d : Dev) (f : BootU → BootU) : (d.modBoot f).boot = f d.boot := rfl
@[simp] theorem Dev.modBoot_pin (d : Dev) (f : BootU → BootU) : (d.modBoot f).pin = d.pin := rfl
@[simp] theorem Dev.modBoot_clk (d : Dev) (f : BootU → BootU) : (d.modBoot f).clk = d.clk := rfl
@[simp] theorem Dev.modBoot_cfg (d : Dev) (f : BootU → BootU) : (d.modBoot f).cfg = d.cfg := rfl
@[simp] theorem Dev.modBoot_link (d : Dev) (f : BootU → BootU) : (d.modBoot f).link = d.link := rfl
@[simp] theorem Dev.modBoot_fault (d : Dev) (f : BootU → BootU) : (d.modBoot f).fault = d.fault := rfl
@[simp] theorem Dev.modBoot_mbox (d : Dev) (f : BootU → BootU) : (d.modBoot f).mbox = d.mbox := rfl
@[simp] theorem Dev.modBoot_telem (d : Dev) (f : BootU → BootU) : (d.modBoot f).telem = d.telem := rfl
@[simp] theorem Dev.modBoot_txn (d : Dev) (f : BootU → BootU) : (d.modBoot f).txn = d.txn := rfl
@[simp] theorem Dev.modBoot_mem (d : Dev) (f : BootU → BootU) : (d.modBoot f).mem = d.mem := rfl
@[simp] theorem Dev.modBoot_qm (d : Dev) (f : BootU → BootU) : (d.modBoot f).qm = d.qm := rfl
@[simp] theorem Dev.modBoot_sla (d : Dev) (f : BootU → BootU) : (d.modBoot f).sla = d.sla := rfl
@[simp] theorem Dev.modBoot_dram (d : Dev) (f : BootU → BootU) : (d.modBoot f).dram = d.dram := rfl
@[simp] theorem Dev.modBoot_ecc (d : Dev) (f : BootU → BootU) : (d.modBoot f).ecc = d.ecc := rfl
@[simp] theorem Dev.modBoot_reg (d : Dev) (f : BootU → BootU) : (d.modBoot f).reg = d.reg := rfl
@[simp] theorem Dev.modBoot_xfer (d : Dev) (f : BootU → BootU) : (d.modBoot f).xfer = d.xfer := rfl
@[simp] theorem Dev.modBoot_therm (d : Dev) (f : BootU → BootU) : (d.modBoot f).therm = d.therm := rfl
@[simp] theorem Dev.modBoot_graft (d : Dev) (f : BootU → BootU) : (d.modBoot f).graft = d.graft := rfl
@[simp] theorem Dev.modBoot_otp (d : Dev) (f : BootU → BootU) : (d.modBoot f).otp = d.otp := rfl
@[simp] theorem Dev.modBoot_mgmt (d : Dev) (f : BootU → BootU) : (d.modBoot f).mgmt = d.mgmt := rfl
@[simp] theorem Dev.modBoot_csr (d : Dev) (f : BootU → BootU) : (d.modBoot f).csr = d.csr := rfl
@[simp] theorem Dev.modBoot_evt (d : Dev) (f : BootU → BootU) : (d.modBoot f).evt = d.evt := rfl
@[simp] theorem Dev.modBoot_rcv (d : Dev) (f : BootU → BootU) : (d.modBoot f).rcv = d.rcv := rfl
@[simp] theorem Dev.modBoot_ctr (d : Dev) (f : BootU → BootU) : (d.modBoot f).ctr = d.ctr := rfl
@[simp] theorem Dev.modBoot_sel (d : Dev) (f : BootU → BootU) : (d.modBoot f).sel = d.sel := rfl
@[simp] theorem Dev.modBoot_latch (d : Dev) (f : BootU → BootU) : (d.modBoot f).latch = d.latch := rfl
@[simp] theorem Dev.modBoot_freeIx (d : Dev) (f : BootU → BootU) : (d.modBoot f).freeIx = d.freeIx := rfl
@[simp] theorem Dev.modBoot_dt (d : Dev) (f : BootU → BootU) : (d.modBoot f).dt = d.dt := rfl
/-! modTelem -/
@[simp] theorem Dev.modTelem_telem (d : Dev) (f : TelemU → TelemU) : (d.modTelem f).telem = f d.telem := rfl
@[simp] theorem Dev.modTelem_pin (d : Dev) (f : TelemU → TelemU) : (d.modTelem f).pin = d.pin := rfl
@[simp] theorem Dev.modTelem_clk (d : Dev) (f : TelemU → TelemU) : (d.modTelem f).clk = d.clk := rfl
@[simp] theorem Dev.modTelem_cfg (d : Dev) (f : TelemU → TelemU) : (d.modTelem f).cfg = d.cfg := rfl
@[simp] theorem Dev.modTelem_link (d : Dev) (f : TelemU → TelemU) : (d.modTelem f).link = d.link := rfl
@[simp] theorem Dev.modTelem_fault (d : Dev) (f : TelemU → TelemU) : (d.modTelem f).fault = d.fault := rfl
@[simp] theorem Dev.modTelem_mbox (d : Dev) (f : TelemU → TelemU) : (d.modTelem f).mbox = d.mbox := rfl
@[simp] theorem Dev.modTelem_txn (d : Dev) (f : TelemU → TelemU) : (d.modTelem f).txn = d.txn := rfl
@[simp] theorem Dev.modTelem_mem (d : Dev) (f : TelemU → TelemU) : (d.modTelem f).mem = d.mem := rfl
@[simp] theorem Dev.modTelem_qm (d : Dev) (f : TelemU → TelemU) : (d.modTelem f).qm = d.qm := rfl
@[simp] theorem Dev.modTelem_sla (d : Dev) (f : TelemU → TelemU) : (d.modTelem f).sla = d.sla := rfl
@[simp] theorem Dev.modTelem_dram (d : Dev) (f : TelemU → TelemU) : (d.modTelem f).dram = d.dram := rfl
@[simp] theorem Dev.modTelem_ecc (d : Dev) (f : TelemU → TelemU) : (d.modTelem f).ecc = d.ecc := rfl
@[simp] theorem Dev.modTelem_reg (d : Dev) (f : TelemU → TelemU) : (d.modTelem f).reg = d.reg := rfl
@[simp] theorem Dev.modTelem_xfer (d : Dev) (f : TelemU → TelemU) : (d.modTelem f).xfer = d.xfer := rfl
@[simp] theorem Dev.modTelem_therm (d : Dev) (f : TelemU → TelemU) : (d.modTelem f).therm = d.therm := rfl
@[simp] theorem Dev.modTelem_graft (d : Dev) (f : TelemU → TelemU) : (d.modTelem f).graft = d.graft := rfl
@[simp] theorem Dev.modTelem_otp (d : Dev) (f : TelemU → TelemU) : (d.modTelem f).otp = d.otp := rfl
@[simp] theorem Dev.modTelem_mgmt (d : Dev) (f : TelemU → TelemU) : (d.modTelem f).mgmt = d.mgmt := rfl
@[simp] theorem Dev.modTelem_boot (d : Dev) (f : TelemU → TelemU) : (d.modTelem f).boot = d.boot := rfl
@[simp] theorem Dev.modTelem_csr (d : Dev) (f : TelemU → TelemU) : (d.modTelem f).csr = d.csr := rfl
@[simp] theorem Dev.modTelem_evt (d : Dev) (f : TelemU → TelemU) : (d.modTelem f).evt = d.evt := rfl
@[simp] theorem Dev.modTelem_rcv (d : Dev) (f : TelemU → TelemU) : (d.modTelem f).rcv = d.rcv := rfl
@[simp] theorem Dev.modTelem_ctr (d : Dev) (f : TelemU → TelemU) : (d.modTelem f).ctr = d.ctr := rfl
@[simp] theorem Dev.modTelem_sel (d : Dev) (f : TelemU → TelemU) : (d.modTelem f).sel = d.sel := rfl
@[simp] theorem Dev.modTelem_latch (d : Dev) (f : TelemU → TelemU) : (d.modTelem f).latch = d.latch := rfl
@[simp] theorem Dev.modTelem_freeIx (d : Dev) (f : TelemU → TelemU) : (d.modTelem f).freeIx = d.freeIx := rfl
@[simp] theorem Dev.modTelem_dt (d : Dev) (f : TelemU → TelemU) : (d.modTelem f).dt = d.dt := rfl
/-! modLane -/
@[simp] theorem Dev.modLane_lane_self (d : Dev) (n : Nat) (f : Lane → Lane) : (d.modLane n f).lane n = f (d.lane n) := tabGet_tabMod_self _ _ _ _
theorem Dev.modLane_lane_ne (d : Dev) {n k : Nat} (f : Lane → Lane) (h : k ≠ n) : (d.modLane n f).lane k = d.lane k := tabGet_tabMod_ne _ _ _ h
@[simp] theorem Dev.modLane_pin (d : Dev) (n : Nat) (f : Lane → Lane) : (d.modLane n f).pin = d.pin := rfl
@[simp] theorem Dev.modLane_clk (d : Dev) (n : Nat) (f : Lane → Lane) : (d.modLane n f).clk = d.clk := rfl
@[simp] theorem Dev.modLane_cfg (d : Dev) (n : Nat) (f : Lane → Lane) : (d.modLane n f).cfg = d.cfg := rfl
@[simp] theorem Dev.modLane_fault (d : Dev) (n : Nat) (f : Lane → Lane) : (d.modLane n f).fault = d.fault := rfl
@[simp] theorem Dev.modLane_mbox (d : Dev) (n : Nat) (f : Lane → Lane) : (d.modLane n f).mbox = d.mbox := rfl
@[simp] theorem Dev.modLane_telem (d : Dev) (n : Nat) (f : Lane → Lane) : (d.modLane n f).telem = d.telem := rfl
@[simp] theorem Dev.modLane_txn (d : Dev) (n : Nat) (f : Lane → Lane) : (d.modLane n f).txn = d.txn := rfl
@[simp] theorem Dev.modLane_mem (d : Dev) (n : Nat) (f : Lane → Lane) : (d.modLane n f).mem = d.mem := rfl
@[simp] theorem Dev.modLane_qm (d : Dev) (n : Nat) (f : Lane → Lane) : (d.modLane n f).qm = d.qm := rfl
@[simp] theorem Dev.modLane_sla (d : Dev) (n : Nat) (f : Lane → Lane) : (d.modLane n f).sla = d.sla := rfl
@[simp] theorem Dev.modLane_dram (d : Dev) (n : Nat) (f : Lane → Lane) : (d.modLane n f).dram = d.dram := rfl
@[simp] theorem Dev.modLane_ecc (d : Dev) (n : Nat) (f : Lane → Lane) : (d.modLane n f).ecc = d.ecc := rfl
@[simp] theorem Dev.modLane_reg (d : Dev) (n : Nat) (f : Lane → Lane) : (d.modLane n f).reg = d.reg := rfl
@[simp] theorem Dev.modLane_xfer (d : Dev) (n : Nat) (f : Lane → Lane) : (d.modLane n f).xfer = d.xfer := rfl
@[simp] theorem Dev.modLane_therm (d : Dev) (n : Nat) (f : Lane → Lane) : (d.modLane n f).therm = d.therm := rfl
@[simp] theorem Dev.modLane_graft (d : Dev) (n : Nat) (f : Lane → Lane) : (d.modLane n f).graft = d.graft := rfl
@[simp] theorem Dev.modLane_otp (d : Dev) (n : Nat) (f : Lane → Lane) : (d.modLane n f).otp = d.otp := rfl
@[simp] theorem Dev.modLane_mgmt (d : Dev) (n : Nat) (f : Lane → Lane) : (d.modLane n f).mgmt = d.mgmt := rfl
@[simp] theorem Dev.modLane_boot (d : Dev) (n : Nat) (f : Lane → Lane) : (d.modLane n f).boot = d.boot := rfl
@[simp] theorem Dev.modLane_csr (d : Dev) (n : Nat) (f : Lane → Lane) : (d.modLane n f).csr = d.csr := rfl
@[simp] theorem Dev.modLane_evt (d : Dev) (n : Nat) (f : Lane → Lane) : (d.modLane n f).evt = d.evt := rfl
@[simp] theorem Dev.modLane_rcv (d : Dev) (n : Nat) (f : Lane → Lane) : (d.modLane n f).rcv = d.rcv := rfl
@[simp] theorem Dev.modLane_ctr (d : Dev) (n : Nat) (f : Lane → Lane) : (d.modLane n f).ctr = d.ctr := rfl
@[simp] theorem Dev.modLane_sel (d : Dev) (n : Nat) (f : Lane → Lane) : (d.modLane n f).sel = d.sel := rfl
@[simp] theorem Dev.modLane_latch (d : Dev) (n : Nat) (f : Lane → Lane) : (d.modLane n f).latch = d.latch := rfl
@[simp] theorem Dev.modLane_freeIx (d : Dev) (n : Nat) (f : Lane → Lane) : (d.modLane n f).freeIx = d.freeIx := rfl
@[simp] theorem Dev.modLane_dt (d : Dev) (n : Nat) (f : Lane → Lane) : (d.modLane n f).dt = d.dt := rfl
@[simp] theorem Dev.modLane_link_lin (d : Dev) (n : Nat) (f : Lane → Lane) : (d.modLane n f).link.lin = d.link.lin := rfl
@[simp] theorem Dev.modLane_link_lout (d : Dev) (n : Nat) (f : Lane → Lane) : (d.modLane n f).link.lout = d.link.lout := rfl
@[simp] theorem Dev.modLane_link_oct (d : Dev) (n : Nat) (f : Lane → Lane) : (d.modLane n f).link.oct = d.link.oct := rfl
@[simp] theorem Dev.modLane_link_port (d : Dev) (n : Nat) (f : Lane → Lane) : (d.modLane n f).link.port = d.link.port := rfl
@[simp] theorem Dev.modLane_link_rx (d : Dev) (n : Nat) (f : Lane → Lane) : (d.modLane n f).link.rx = d.link.rx := rfl
@[simp] theorem Dev.modLane_link_tx (d : Dev) (n : Nat) (f : Lane → Lane) : (d.modLane n f).link.tx = d.link.tx := rfl
@[simp] theorem Dev.modLane_link_ptx (d : Dev) (n : Nat) (f : Lane → Lane) : (d.modLane n f).link.ptx = d.link.ptx := rfl
@[simp] theorem Dev.modLane_link_ptn (d : Dev) (n : Nat) (f : Lane → Lane) : (d.modLane n f).link.ptn = d.link.ptn := rfl
@[simp] theorem Dev.modLane_link_lastNo (d : Dev) (n : Nat) (f : Lane → Lane) : (d.modLane n f).link.lastNo = d.link.lastNo := rfl
/-! modLin -/
@[simp] theorem Dev.modLin_lin_self (d : Dev) (n : Nat) (f : LaneIn → LaneIn) : (d.modLin n f).lin n = f (d.lin n) := tabGet_tabMod_self _ _ _ _
theorem Dev.modLin_lin_ne (d : Dev) {n k : Nat} (f : LaneIn → LaneIn) (h : k ≠ n) : (d.modLin n f).lin k = d.lin k := tabGet_tabMod_ne _ _ _ h
@[simp] theorem Dev.modLin_pin (d : Dev) (n : Nat) (f : LaneIn → LaneIn) : (d.modLin n f).pin = d.pin := rfl
@[simp] theorem Dev.modLin_clk (d : Dev) (n : Nat) (f : LaneIn → LaneIn) : (d.modLin n f).clk = d.clk := rfl
@[simp] theorem Dev.modLin_cfg (d : Dev) (n : Nat) (f : LaneIn → LaneIn) : (d.modLin n f).cfg = d.cfg := rfl
@[simp] theorem Dev.modLin_fault (d : Dev) (n : Nat) (f : LaneIn → LaneIn) : (d.modLin n f).fault = d.fault := rfl
@[simp] theorem Dev.modLin_mbox (d : Dev) (n : Nat) (f : LaneIn → LaneIn) : (d.modLin n f).mbox = d.mbox := rfl
@[simp] theorem Dev.modLin_telem (d : Dev) (n : Nat) (f : LaneIn → LaneIn) : (d.modLin n f).telem = d.telem := rfl
@[simp] theorem Dev.modLin_txn (d : Dev) (n : Nat) (f : LaneIn → LaneIn) : (d.modLin n f).txn = d.txn := rfl
@[simp] theorem Dev.modLin_mem (d : Dev) (n : Nat) (f : LaneIn → LaneIn) : (d.modLin n f).mem = d.mem := rfl
@[simp] theorem Dev.modLin_qm (d : Dev) (n : Nat) (f : LaneIn → LaneIn) : (d.modLin n f).qm = d.qm := rfl
@[simp] theorem Dev.modLin_sla (d : Dev) (n : Nat) (f : LaneIn → LaneIn) : (d.modLin n f).sla = d.sla := rfl
@[simp] theorem Dev.modLin_dram (d : Dev) (n : Nat) (f : LaneIn → LaneIn) : (d.modLin n f).dram = d.dram := rfl
@[simp] theorem Dev.modLin_ecc (d : Dev) (n : Nat) (f : LaneIn → LaneIn) : (d.modLin n f).ecc = d.ecc := rfl
@[simp] theorem Dev.modLin_reg (d : Dev) (n : Nat) (f : LaneIn → LaneIn) : (d.modLin n f).reg = d.reg := rfl
@[simp] theorem Dev.modLin_xfer (d : Dev) (n : Nat) (f : LaneIn → LaneIn) : (d.modLin n f).xfer = d.xfer := rfl
@[simp] theorem Dev.modLin_therm (d : Dev) (n : Nat) (f : LaneIn → LaneIn) : (d.modLin n f).therm = d.therm := rfl
@[simp] theorem Dev.modLin_graft (d : Dev) (n : Nat) (f : LaneIn → LaneIn) : (d.modLin n f).graft = d.graft := rfl
@[simp] theorem Dev.modLin_otp (d : Dev) (n : Nat) (f : LaneIn → LaneIn) : (d.modLin n f).otp = d.otp := rfl
@[simp] theorem Dev.modLin_mgmt (d : Dev) (n : Nat) (f : LaneIn → LaneIn) : (d.modLin n f).mgmt = d.mgmt := rfl
@[simp] theorem Dev.modLin_boot (d : Dev) (n : Nat) (f : LaneIn → LaneIn) : (d.modLin n f).boot = d.boot := rfl
@[simp] theorem Dev.modLin_csr (d : Dev) (n : Nat) (f : LaneIn → LaneIn) : (d.modLin n f).csr = d.csr := rfl
@[simp] theorem Dev.modLin_evt (d : Dev) (n : Nat) (f : LaneIn → LaneIn) : (d.modLin n f).evt = d.evt := rfl
@[simp] theorem Dev.modLin_rcv (d : Dev) (n : Nat) (f : LaneIn → LaneIn) : (d.modLin n f).rcv = d.rcv := rfl
@[simp] theorem Dev.modLin_ctr (d : Dev) (n : Nat) (f : LaneIn → LaneIn) : (d.modLin n f).ctr = d.ctr := rfl
@[simp] theorem Dev.modLin_sel (d : Dev) (n : Nat) (f : LaneIn → LaneIn) : (d.modLin n f).sel = d.sel := rfl
@[simp] theorem Dev.modLin_latch (d : Dev) (n : Nat) (f : LaneIn → LaneIn) : (d.modLin n f).latch = d.latch := rfl
@[simp] theorem Dev.modLin_freeIx (d : Dev) (n : Nat) (f : LaneIn → LaneIn) : (d.modLin n f).freeIx = d.freeIx := rfl
@[simp] theorem Dev.modLin_dt (d : Dev) (n : Nat) (f : LaneIn → LaneIn) : (d.modLin n f).dt = d.dt := rfl
@[simp] theorem Dev.modLin_link_lane (d : Dev) (n : Nat) (f : LaneIn → LaneIn) : (d.modLin n f).link.lane = d.link.lane := rfl
@[simp] theorem Dev.modLin_link_lout (d : Dev) (n : Nat) (f : LaneIn → LaneIn) : (d.modLin n f).link.lout = d.link.lout := rfl
@[simp] theorem Dev.modLin_link_oct (d : Dev) (n : Nat) (f : LaneIn → LaneIn) : (d.modLin n f).link.oct = d.link.oct := rfl
@[simp] theorem Dev.modLin_link_port (d : Dev) (n : Nat) (f : LaneIn → LaneIn) : (d.modLin n f).link.port = d.link.port := rfl
@[simp] theorem Dev.modLin_link_rx (d : Dev) (n : Nat) (f : LaneIn → LaneIn) : (d.modLin n f).link.rx = d.link.rx := rfl
@[simp] theorem Dev.modLin_link_tx (d : Dev) (n : Nat) (f : LaneIn → LaneIn) : (d.modLin n f).link.tx = d.link.tx := rfl
@[simp] theorem Dev.modLin_link_ptx (d : Dev) (n : Nat) (f : LaneIn → LaneIn) : (d.modLin n f).link.ptx = d.link.ptx := rfl
@[simp] theorem Dev.modLin_link_ptn (d : Dev) (n : Nat) (f : LaneIn → LaneIn) : (d.modLin n f).link.ptn = d.link.ptn := rfl
@[simp] theorem Dev.modLin_link_lastNo (d : Dev) (n : Nat) (f : LaneIn → LaneIn) : (d.modLin n f).link.lastNo = d.link.lastNo := rfl
/-! modLout -/
@[simp] theorem Dev.modLout_lout_self (d : Dev) (n : Nat) (f : LaneOut → LaneOut) : (d.modLout n f).lout n = f (d.lout n) := tabGet_tabMod_self _ _ _ _
theorem Dev.modLout_lout_ne (d : Dev) {n k : Nat} (f : LaneOut → LaneOut) (h : k ≠ n) : (d.modLout n f).lout k = d.lout k := tabGet_tabMod_ne _ _ _ h
@[simp] theorem Dev.modLout_pin (d : Dev) (n : Nat) (f : LaneOut → LaneOut) : (d.modLout n f).pin = d.pin := rfl
@[simp] theorem Dev.modLout_clk (d : Dev) (n : Nat) (f : LaneOut → LaneOut) : (d.modLout n f).clk = d.clk := rfl
@[simp] theorem Dev.modLout_cfg (d : Dev) (n : Nat) (f : LaneOut → LaneOut) : (d.modLout n f).cfg = d.cfg := rfl
@[simp] theorem Dev.modLout_fault (d : Dev) (n : Nat) (f : LaneOut → LaneOut) : (d.modLout n f).fault = d.fault := rfl
@[simp] theorem Dev.modLout_mbox (d : Dev) (n : Nat) (f : LaneOut → LaneOut) : (d.modLout n f).mbox = d.mbox := rfl
@[simp] theorem Dev.modLout_telem (d : Dev) (n : Nat) (f : LaneOut → LaneOut) : (d.modLout n f).telem = d.telem := rfl
@[simp] theorem Dev.modLout_txn (d : Dev) (n : Nat) (f : LaneOut → LaneOut) : (d.modLout n f).txn = d.txn := rfl
@[simp] theorem Dev.modLout_mem (d : Dev) (n : Nat) (f : LaneOut → LaneOut) : (d.modLout n f).mem = d.mem := rfl
@[simp] theorem Dev.modLout_qm (d : Dev) (n : Nat) (f : LaneOut → LaneOut) : (d.modLout n f).qm = d.qm := rfl
@[simp] theorem Dev.modLout_sla (d : Dev) (n : Nat) (f : LaneOut → LaneOut) : (d.modLout n f).sla = d.sla := rfl
@[simp] theorem Dev.modLout_dram (d : Dev) (n : Nat) (f : LaneOut → LaneOut) : (d.modLout n f).dram = d.dram := rfl
@[simp] theorem Dev.modLout_ecc (d : Dev) (n : Nat) (f : LaneOut → LaneOut) : (d.modLout n f).ecc = d.ecc := rfl
@[simp] theorem Dev.modLout_reg (d : Dev) (n : Nat) (f : LaneOut → LaneOut) : (d.modLout n f).reg = d.reg := rfl
@[simp] theorem Dev.modLout_xfer (d : Dev) (n : Nat) (f : LaneOut → LaneOut) : (d.modLout n f).xfer = d.xfer := rfl
@[simp] theorem Dev.modLout_therm (d : Dev) (n : Nat) (f : LaneOut → LaneOut) : (d.modLout n f).therm = d.therm := rfl
@[simp] theorem Dev.modLout_graft (d : Dev) (n : Nat) (f : LaneOut → LaneOut) : (d.modLout n f).graft = d.graft := rfl
@[simp] theorem Dev.modLout_otp (d : Dev) (n : Nat) (f : LaneOut → LaneOut) : (d.modLout n f).otp = d.otp := rfl
@[simp] theorem Dev.modLout_mgmt (d : Dev) (n : Nat) (f : LaneOut → LaneOut) : (d.modLout n f).mgmt = d.mgmt := rfl
@[simp] theorem Dev.modLout_boot (d : Dev) (n : Nat) (f : LaneOut → LaneOut) : (d.modLout n f).boot = d.boot := rfl
@[simp] theorem Dev.modLout_csr (d : Dev) (n : Nat) (f : LaneOut → LaneOut) : (d.modLout n f).csr = d.csr := rfl
@[simp] theorem Dev.modLout_evt (d : Dev) (n : Nat) (f : LaneOut → LaneOut) : (d.modLout n f).evt = d.evt := rfl
@[simp] theorem Dev.modLout_rcv (d : Dev) (n : Nat) (f : LaneOut → LaneOut) : (d.modLout n f).rcv = d.rcv := rfl
@[simp] theorem Dev.modLout_ctr (d : Dev) (n : Nat) (f : LaneOut → LaneOut) : (d.modLout n f).ctr = d.ctr := rfl
@[simp] theorem Dev.modLout_sel (d : Dev) (n : Nat) (f : LaneOut → LaneOut) : (d.modLout n f).sel = d.sel := rfl
@[simp] theorem Dev.modLout_latch (d : Dev) (n : Nat) (f : LaneOut → LaneOut) : (d.modLout n f).latch = d.latch := rfl
@[simp] theorem Dev.modLout_freeIx (d : Dev) (n : Nat) (f : LaneOut → LaneOut) : (d.modLout n f).freeIx = d.freeIx := rfl
@[simp] theorem Dev.modLout_dt (d : Dev) (n : Nat) (f : LaneOut → LaneOut) : (d.modLout n f).dt = d.dt := rfl
@[simp] theorem Dev.modLout_link_lane (d : Dev) (n : Nat) (f : LaneOut → LaneOut) : (d.modLout n f).link.lane = d.link.lane := rfl
@[simp] theorem Dev.modLout_link_lin (d : Dev) (n : Nat) (f : LaneOut → LaneOut) : (d.modLout n f).link.lin = d.link.lin := rfl
@[simp] theorem Dev.modLout_link_oct (d : Dev) (n : Nat) (f : LaneOut → LaneOut) : (d.modLout n f).link.oct = d.link.oct := rfl
@[simp] theorem Dev.modLout_link_port (d : Dev) (n : Nat) (f : LaneOut → LaneOut) : (d.modLout n f).link.port = d.link.port := rfl
@[simp] theorem Dev.modLout_link_rx (d : Dev) (n : Nat) (f : LaneOut → LaneOut) : (d.modLout n f).link.rx = d.link.rx := rfl
@[simp] theorem Dev.modLout_link_tx (d : Dev) (n : Nat) (f : LaneOut → LaneOut) : (d.modLout n f).link.tx = d.link.tx := rfl
@[simp] theorem Dev.modLout_link_ptx (d : Dev) (n : Nat) (f : LaneOut → LaneOut) : (d.modLout n f).link.ptx = d.link.ptx := rfl
@[simp] theorem Dev.modLout_link_ptn (d : Dev) (n : Nat) (f : LaneOut → LaneOut) : (d.modLout n f).link.ptn = d.link.ptn := rfl
@[simp] theorem Dev.modLout_link_lastNo (d : Dev) (n : Nat) (f : LaneOut → LaneOut) : (d.modLout n f).link.lastNo = d.link.lastNo := rfl
/-! modOct -/
@[simp] theorem Dev.modOct_oct_self (d : Dev) (n : Nat) (f : Octet → Octet) : (d.modOct n f).oct n = f (d.oct n) := tabGet_tabMod_self _ _ _ _
theorem Dev.modOct_oct_ne (d : Dev) {n k : Nat} (f : Octet → Octet) (h : k ≠ n) : (d.modOct n f).oct k = d.oct k := tabGet_tabMod_ne _ _ _ h
@[simp] theorem Dev.modOct_pin (d : Dev) (n : Nat) (f : Octet → Octet) : (d.modOct n f).pin = d.pin := rfl
@[simp] theorem Dev.modOct_clk (d : Dev) (n : Nat) (f : Octet → Octet) : (d.modOct n f).clk = d.clk := rfl
@[simp] theorem Dev.modOct_cfg (d : Dev) (n : Nat) (f : Octet → Octet) : (d.modOct n f).cfg = d.cfg := rfl
@[simp] theorem Dev.modOct_fault (d : Dev) (n : Nat) (f : Octet → Octet) : (d.modOct n f).fault = d.fault := rfl
@[simp] theorem Dev.modOct_mbox (d : Dev) (n : Nat) (f : Octet → Octet) : (d.modOct n f).mbox = d.mbox := rfl
@[simp] theorem Dev.modOct_telem (d : Dev) (n : Nat) (f : Octet → Octet) : (d.modOct n f).telem = d.telem := rfl
@[simp] theorem Dev.modOct_txn (d : Dev) (n : Nat) (f : Octet → Octet) : (d.modOct n f).txn = d.txn := rfl
@[simp] theorem Dev.modOct_mem (d : Dev) (n : Nat) (f : Octet → Octet) : (d.modOct n f).mem = d.mem := rfl
@[simp] theorem Dev.modOct_qm (d : Dev) (n : Nat) (f : Octet → Octet) : (d.modOct n f).qm = d.qm := rfl
@[simp] theorem Dev.modOct_sla (d : Dev) (n : Nat) (f : Octet → Octet) : (d.modOct n f).sla = d.sla := rfl
@[simp] theorem Dev.modOct_dram (d : Dev) (n : Nat) (f : Octet → Octet) : (d.modOct n f).dram = d.dram := rfl
@[simp] theorem Dev.modOct_ecc (d : Dev) (n : Nat) (f : Octet → Octet) : (d.modOct n f).ecc = d.ecc := rfl
@[simp] theorem Dev.modOct_reg (d : Dev) (n : Nat) (f : Octet → Octet) : (d.modOct n f).reg = d.reg := rfl
@[simp] theorem Dev.modOct_xfer (d : Dev) (n : Nat) (f : Octet → Octet) : (d.modOct n f).xfer = d.xfer := rfl
@[simp] theorem Dev.modOct_therm (d : Dev) (n : Nat) (f : Octet → Octet) : (d.modOct n f).therm = d.therm := rfl
@[simp] theorem Dev.modOct_graft (d : Dev) (n : Nat) (f : Octet → Octet) : (d.modOct n f).graft = d.graft := rfl
@[simp] theorem Dev.modOct_otp (d : Dev) (n : Nat) (f : Octet → Octet) : (d.modOct n f).otp = d.otp := rfl
@[simp] theorem Dev.modOct_mgmt (d : Dev) (n : Nat) (f : Octet → Octet) : (d.modOct n f).mgmt = d.mgmt := rfl
@[simp] theorem Dev.modOct_boot (d : Dev) (n : Nat) (f : Octet → Octet) : (d.modOct n f).boot = d.boot := rfl
@[simp] theorem Dev.modOct_csr (d : Dev) (n : Nat) (f : Octet → Octet) : (d.modOct n f).csr = d.csr := rfl
@[simp] theorem Dev.modOct_evt (d : Dev) (n : Nat) (f : Octet → Octet) : (d.modOct n f).evt = d.evt := rfl
@[simp] theorem Dev.modOct_rcv (d : Dev) (n : Nat) (f : Octet → Octet) : (d.modOct n f).rcv = d.rcv := rfl
@[simp] theorem Dev.modOct_ctr (d : Dev) (n : Nat) (f : Octet → Octet) : (d.modOct n f).ctr = d.ctr := rfl
@[simp] theorem Dev.modOct_sel (d : Dev) (n : Nat) (f : Octet → Octet) : (d.modOct n f).sel = d.sel := rfl
@[simp] theorem Dev.modOct_latch (d : Dev) (n : Nat) (f : Octet → Octet) : (d.modOct n f).latch = d.latch := rfl
@[simp] theorem Dev.modOct_freeIx (d : Dev) (n : Nat) (f : Octet → Octet) : (d.modOct n f).freeIx = d.freeIx := rfl
@[simp] theorem Dev.modOct_dt (d : Dev) (n : Nat) (f : Octet → Octet) : (d.modOct n f).dt = d.dt := rfl
@[simp] theorem Dev.modOct_link_lane (d : Dev) (n : Nat) (f : Octet → Octet) : (d.modOct n f).link.lane = d.link.lane := rfl
@[simp] theorem Dev.modOct_link_lin (d : Dev) (n : Nat) (f : Octet → Octet) : (d.modOct n f).link.lin = d.link.lin := rfl
@[simp] theorem Dev.modOct_link_lout (d : Dev) (n : Nat) (f : Octet → Octet) : (d.modOct n f).link.lout = d.link.lout := rfl
@[simp] theorem Dev.modOct_link_port (d : Dev) (n : Nat) (f : Octet → Octet) : (d.modOct n f).link.port = d.link.port := rfl
@[simp] theorem Dev.modOct_link_rx (d : Dev) (n : Nat) (f : Octet → Octet) : (d.modOct n f).link.rx = d.link.rx := rfl
@[simp] theorem Dev.modOct_link_tx (d : Dev) (n : Nat) (f : Octet → Octet) : (d.modOct n f).link.tx = d.link.tx := rfl
@[simp] theorem Dev.modOct_link_ptx (d : Dev) (n : Nat) (f : Octet → Octet) : (d.modOct n f).link.ptx = d.link.ptx := rfl
@[simp] theorem Dev.modOct_link_ptn (d : Dev) (n : Nat) (f : Octet → Octet) : (d.modOct n f).link.ptn = d.link.ptn := rfl
@[simp] theorem Dev.modOct_link_lastNo (d : Dev) (n : Nat) (f : Octet → Octet) : (d.modOct n f).link.lastNo = d.link.lastNo := rfl
/-! modPort -/
@[simp] theorem Dev.modPort_port_self (d : Dev) (n : Nat) (f : Port → Port) : (d.modPort n f).port n = f (d.port n) := tabGet_tabMod_self _ _ _ _
theorem Dev.modPort_port_ne (d : Dev) {n k : Nat} (f : Port → Port) (h : k ≠ n) : (d.modPort n f).port k = d.port k := tabGet_tabMod_ne _ _ _ h
@[simp] theorem Dev.modPort_pin (d : Dev) (n : Nat) (f : Port → Port) : (d.modPort n f).pin = d.pin := rfl
@[simp] theorem Dev.modPort_clk (d : Dev) (n : Nat) (f : Port → Port) : (d.modPort n f).clk = d.clk := rfl
@[simp] theorem Dev.modPort_cfg (d : Dev) (n : Nat) (f : Port → Port) : (d.modPort n f).cfg = d.cfg := rfl
@[simp] theorem Dev.modPort_fault (d : Dev) (n : Nat) (f : Port → Port) : (d.modPort n f).fault = d.fault := rfl
@[simp] theorem Dev.modPort_mbox (d : Dev) (n : Nat) (f : Port → Port) : (d.modPort n f).mbox = d.mbox := rfl
@[simp] theorem Dev.modPort_telem (d : Dev) (n : Nat) (f : Port → Port) : (d.modPort n f).telem = d.telem := rfl
@[simp] theorem Dev.modPort_txn (d : Dev) (n : Nat) (f : Port → Port) : (d.modPort n f).txn = d.txn := rfl
@[simp] theorem Dev.modPort_mem (d : Dev) (n : Nat) (f : Port → Port) : (d.modPort n f).mem = d.mem := rfl
@[simp] theorem Dev.modPort_qm (d : Dev) (n : Nat) (f : Port → Port) : (d.modPort n f).qm = d.qm := rfl
@[simp] theorem Dev.modPort_sla (d : Dev) (n : Nat) (f : Port → Port) : (d.modPort n f).sla = d.sla := rfl
@[simp] theorem Dev.modPort_dram (d : Dev) (n : Nat) (f : Port → Port) : (d.modPort n f).dram = d.dram := rfl
@[simp] theorem Dev.modPort_ecc (d : Dev) (n : Nat) (f : Port → Port) : (d.modPort n f).ecc = d.ecc := rfl
@[simp] theorem Dev.modPort_reg (d : Dev) (n : Nat) (f : Port → Port) : (d.modPort n f).reg = d.reg := rfl
@[simp] theorem Dev.modPort_xfer (d : Dev) (n : Nat) (f : Port → Port) : (d.modPort n f).xfer = d.xfer := rfl
@[simp] theorem Dev.modPort_therm (d : Dev) (n : Nat) (f : Port → Port) : (d.modPort n f).therm = d.therm := rfl
@[simp] theorem Dev.modPort_graft (d : Dev) (n : Nat) (f : Port → Port) : (d.modPort n f).graft = d.graft := rfl
@[simp] theorem Dev.modPort_otp (d : Dev) (n : Nat) (f : Port → Port) : (d.modPort n f).otp = d.otp := rfl
@[simp] theorem Dev.modPort_mgmt (d : Dev) (n : Nat) (f : Port → Port) : (d.modPort n f).mgmt = d.mgmt := rfl
@[simp] theorem Dev.modPort_boot (d : Dev) (n : Nat) (f : Port → Port) : (d.modPort n f).boot = d.boot := rfl
@[simp] theorem Dev.modPort_csr (d : Dev) (n : Nat) (f : Port → Port) : (d.modPort n f).csr = d.csr := rfl
@[simp] theorem Dev.modPort_evt (d : Dev) (n : Nat) (f : Port → Port) : (d.modPort n f).evt = d.evt := rfl
@[simp] theorem Dev.modPort_rcv (d : Dev) (n : Nat) (f : Port → Port) : (d.modPort n f).rcv = d.rcv := rfl
@[simp] theorem Dev.modPort_ctr (d : Dev) (n : Nat) (f : Port → Port) : (d.modPort n f).ctr = d.ctr := rfl
@[simp] theorem Dev.modPort_sel (d : Dev) (n : Nat) (f : Port → Port) : (d.modPort n f).sel = d.sel := rfl
@[simp] theorem Dev.modPort_latch (d : Dev) (n : Nat) (f : Port → Port) : (d.modPort n f).latch = d.latch := rfl
@[simp] theorem Dev.modPort_freeIx (d : Dev) (n : Nat) (f : Port → Port) : (d.modPort n f).freeIx = d.freeIx := rfl
@[simp] theorem Dev.modPort_dt (d : Dev) (n : Nat) (f : Port → Port) : (d.modPort n f).dt = d.dt := rfl
@[simp] theorem Dev.modPort_link_lane (d : Dev) (n : Nat) (f : Port → Port) : (d.modPort n f).link.lane = d.link.lane := rfl
@[simp] theorem Dev.modPort_link_lin (d : Dev) (n : Nat) (f : Port → Port) : (d.modPort n f).link.lin = d.link.lin := rfl
@[simp] theorem Dev.modPort_link_lout (d : Dev) (n : Nat) (f : Port → Port) : (d.modPort n f).link.lout = d.link.lout := rfl
@[simp] theorem Dev.modPort_link_oct (d : Dev) (n : Nat) (f : Port → Port) : (d.modPort n f).link.oct = d.link.oct := rfl
@[simp] theorem Dev.modPort_link_rx (d : Dev) (n : Nat) (f : Port → Port) : (d.modPort n f).link.rx = d.link.rx := rfl
@[simp] theorem Dev.modPort_link_tx (d : Dev) (n : Nat) (f : Port → Port) : (d.modPort n f).link.tx = d.link.tx := rfl
@[simp] theorem Dev.modPort_link_ptx (d : Dev) (n : Nat) (f : Port → Port) : (d.modPort n f).link.ptx = d.link.ptx := rfl
@[simp] theorem Dev.modPort_link_ptn (d : Dev) (n : Nat) (f : Port → Port) : (d.modPort n f).link.ptn = d.link.ptn := rfl
@[simp] theorem Dev.modPort_link_lastNo (d : Dev) (n : Nat) (f : Port → Port) : (d.modPort n f).link.lastNo = d.link.lastNo := rfl
/-! modPtx -/
@[simp] theorem Dev.modPtx_ptx_self (d : Dev) (n : Nat) (f : PortTx → PortTx) : (d.modPtx n f).ptx n = f (d.ptx n) := tabGet_tabMod_self _ _ _ _
theorem Dev.modPtx_ptx_ne (d : Dev) {n k : Nat} (f : PortTx → PortTx) (h : k ≠ n) : (d.modPtx n f).ptx k = d.ptx k := tabGet_tabMod_ne _ _ _ h
@[simp] theorem Dev.modPtx_pin (d : Dev) (n : Nat) (f : PortTx → PortTx) : (d.modPtx n f).pin = d.pin := rfl
@[simp] theorem Dev.modPtx_clk (d : Dev) (n : Nat) (f : PortTx → PortTx) : (d.modPtx n f).clk = d.clk := rfl
@[simp] theorem Dev.modPtx_cfg (d : Dev) (n : Nat) (f : PortTx → PortTx) : (d.modPtx n f).cfg = d.cfg := rfl
@[simp] theorem Dev.modPtx_fault (d : Dev) (n : Nat) (f : PortTx → PortTx) : (d.modPtx n f).fault = d.fault := rfl
@[simp] theorem Dev.modPtx_mbox (d : Dev) (n : Nat) (f : PortTx → PortTx) : (d.modPtx n f).mbox = d.mbox := rfl
@[simp] theorem Dev.modPtx_telem (d : Dev) (n : Nat) (f : PortTx → PortTx) : (d.modPtx n f).telem = d.telem := rfl
@[simp] theorem Dev.modPtx_txn (d : Dev) (n : Nat) (f : PortTx → PortTx) : (d.modPtx n f).txn = d.txn := rfl
@[simp] theorem Dev.modPtx_mem (d : Dev) (n : Nat) (f : PortTx → PortTx) : (d.modPtx n f).mem = d.mem := rfl
@[simp] theorem Dev.modPtx_qm (d : Dev) (n : Nat) (f : PortTx → PortTx) : (d.modPtx n f).qm = d.qm := rfl
@[simp] theorem Dev.modPtx_sla (d : Dev) (n : Nat) (f : PortTx → PortTx) : (d.modPtx n f).sla = d.sla := rfl
@[simp] theorem Dev.modPtx_dram (d : Dev) (n : Nat) (f : PortTx → PortTx) : (d.modPtx n f).dram = d.dram := rfl
@[simp] theorem Dev.modPtx_ecc (d : Dev) (n : Nat) (f : PortTx → PortTx) : (d.modPtx n f).ecc = d.ecc := rfl
@[simp] theorem Dev.modPtx_reg (d : Dev) (n : Nat) (f : PortTx → PortTx) : (d.modPtx n f).reg = d.reg := rfl
@[simp] theorem Dev.modPtx_xfer (d : Dev) (n : Nat) (f : PortTx → PortTx) : (d.modPtx n f).xfer = d.xfer := rfl
@[simp] theorem Dev.modPtx_therm (d : Dev) (n : Nat) (f : PortTx → PortTx) : (d.modPtx n f).therm = d.therm := rfl
@[simp] theorem Dev.modPtx_graft (d : Dev) (n : Nat) (f : PortTx → PortTx) : (d.modPtx n f).graft = d.graft := rfl
@[simp] theorem Dev.modPtx_otp (d : Dev) (n : Nat) (f : PortTx → PortTx) : (d.modPtx n f).otp = d.otp := rfl
@[simp] theorem Dev.modPtx_mgmt (d : Dev) (n : Nat) (f : PortTx → PortTx) : (d.modPtx n f).mgmt = d.mgmt := rfl
@[simp] theorem Dev.modPtx_boot (d : Dev) (n : Nat) (f : PortTx → PortTx) : (d.modPtx n f).boot = d.boot := rfl
@[simp] theorem Dev.modPtx_csr (d : Dev) (n : Nat) (f : PortTx → PortTx) : (d.modPtx n f).csr = d.csr := rfl
@[simp] theorem Dev.modPtx_evt (d : Dev) (n : Nat) (f : PortTx → PortTx) : (d.modPtx n f).evt = d.evt := rfl
@[simp] theorem Dev.modPtx_rcv (d : Dev) (n : Nat) (f : PortTx → PortTx) : (d.modPtx n f).rcv = d.rcv := rfl
@[simp] theorem Dev.modPtx_ctr (d : Dev) (n : Nat) (f : PortTx → PortTx) : (d.modPtx n f).ctr = d.ctr := rfl
@[simp] theorem Dev.modPtx_sel (d : Dev) (n : Nat) (f : PortTx → PortTx) : (d.modPtx n f).sel = d.sel := rfl
@[simp] theorem Dev.modPtx_latch (d : Dev) (n : Nat) (f : PortTx → PortTx) : (d.modPtx n f).latch = d.latch := rfl
@[simp] theorem Dev.modPtx_freeIx (d : Dev) (n : Nat) (f : PortTx → PortTx) : (d.modPtx n f).freeIx = d.freeIx := rfl
@[simp] theorem Dev.modPtx_dt (d : Dev) (n : Nat) (f : PortTx → PortTx) : (d.modPtx n f).dt = d.dt := rfl
@[simp] theorem Dev.modPtx_link_lane (d : Dev) (n : Nat) (f : PortTx → PortTx) : (d.modPtx n f).link.lane = d.link.lane := rfl
@[simp] theorem Dev.modPtx_link_lin (d : Dev) (n : Nat) (f : PortTx → PortTx) : (d.modPtx n f).link.lin = d.link.lin := rfl
@[simp] theorem Dev.modPtx_link_lout (d : Dev) (n : Nat) (f : PortTx → PortTx) : (d.modPtx n f).link.lout = d.link.lout := rfl
@[simp] theorem Dev.modPtx_link_oct (d : Dev) (n : Nat) (f : PortTx → PortTx) : (d.modPtx n f).link.oct = d.link.oct := rfl
@[simp] theorem Dev.modPtx_link_port (d : Dev) (n : Nat) (f : PortTx → PortTx) : (d.modPtx n f).link.port = d.link.port := rfl
@[simp] theorem Dev.modPtx_link_rx (d : Dev) (n : Nat) (f : PortTx → PortTx) : (d.modPtx n f).link.rx = d.link.rx := rfl
@[simp] theorem Dev.modPtx_link_tx (d : Dev) (n : Nat) (f : PortTx → PortTx) : (d.modPtx n f).link.tx = d.link.tx := rfl
@[simp] theorem Dev.modPtx_link_ptn (d : Dev) (n : Nat) (f : PortTx → PortTx) : (d.modPtx n f).link.ptn = d.link.ptn := rfl
@[simp] theorem Dev.modPtx_link_lastNo (d : Dev) (n : Nat) (f : PortTx → PortTx) : (d.modPtx n f).link.lastNo = d.link.lastNo := rfl
/-! modPtn -/
@[simp] theorem Dev.modPtn_ptn_self (d : Dev) (n : Nat) (f : Partner → Partner) : (d.modPtn n f).ptn n = f (d.ptn n) := tabGet_tabMod_self _ _ _ _
theorem Dev.modPtn_ptn_ne (d : Dev) {n k : Nat} (f : Partner → Partner) (h : k ≠ n) : (d.modPtn n f).ptn k = d.ptn k := tabGet_tabMod_ne _ _ _ h
@[simp] theorem Dev.modPtn_pin (d : Dev) (n : Nat) (f : Partner → Partner) : (d.modPtn n f).pin = d.pin := rfl
@[simp] theorem Dev.modPtn_clk (d : Dev) (n : Nat) (f : Partner → Partner) : (d.modPtn n f).clk = d.clk := rfl
@[simp] theorem Dev.modPtn_cfg (d : Dev) (n : Nat) (f : Partner → Partner) : (d.modPtn n f).cfg = d.cfg := rfl
@[simp] theorem Dev.modPtn_fault (d : Dev) (n : Nat) (f : Partner → Partner) : (d.modPtn n f).fault = d.fault := rfl
@[simp] theorem Dev.modPtn_mbox (d : Dev) (n : Nat) (f : Partner → Partner) : (d.modPtn n f).mbox = d.mbox := rfl
@[simp] theorem Dev.modPtn_telem (d : Dev) (n : Nat) (f : Partner → Partner) : (d.modPtn n f).telem = d.telem := rfl
@[simp] theorem Dev.modPtn_txn (d : Dev) (n : Nat) (f : Partner → Partner) : (d.modPtn n f).txn = d.txn := rfl
@[simp] theorem Dev.modPtn_mem (d : Dev) (n : Nat) (f : Partner → Partner) : (d.modPtn n f).mem = d.mem := rfl
@[simp] theorem Dev.modPtn_qm (d : Dev) (n : Nat) (f : Partner → Partner) : (d.modPtn n f).qm = d.qm := rfl
@[simp] theorem Dev.modPtn_sla (d : Dev) (n : Nat) (f : Partner → Partner) : (d.modPtn n f).sla = d.sla := rfl
@[simp] theorem Dev.modPtn_dram (d : Dev) (n : Nat) (f : Partner → Partner) : (d.modPtn n f).dram = d.dram := rfl
@[simp] theorem Dev.modPtn_ecc (d : Dev) (n : Nat) (f : Partner → Partner) : (d.modPtn n f).ecc = d.ecc := rfl
@[simp] theorem Dev.modPtn_reg (d : Dev) (n : Nat) (f : Partner → Partner) : (d.modPtn n f).reg = d.reg := rfl
@[simp] theorem Dev.modPtn_xfer (d : Dev) (n : Nat) (f : Partner → Partner) : (d.modPtn n f).xfer = d.xfer := rfl
@[simp] theorem Dev.modPtn_therm (d : Dev) (n : Nat) (f : Partner → Partner) : (d.modPtn n f).therm = d.therm := rfl
@[simp] theorem Dev.modPtn_graft (d : Dev) (n : Nat) (f : Partner → Partner) : (d.modPtn n f).graft = d.graft := rfl
@[simp] theorem Dev.modPtn_otp (d : Dev) (n : Nat) (f : Partner → Partner) : (d.modPtn n f).otp = d.otp := rfl
@[simp] theorem Dev.modPtn_mgmt (d : Dev) (n : Nat) (f : Partner → Partner) : (d.modPtn n f).mgmt = d.mgmt := rfl
@[simp] theorem Dev.modPtn_boot (d : Dev) (n : Nat) (f : Partner → Partner) : (d.modPtn n f).boot = d.boot := rfl
@[simp] theorem Dev.modPtn_csr (d : Dev) (n : Nat) (f : Partner → Partner) : (d.modPtn n f).csr = d.csr := rfl
@[simp] theorem Dev.modPtn_evt (d : Dev) (n : Nat) (f : Partner → Partner) : (d.modPtn n f).evt = d.evt := rfl
@[simp] theorem Dev.modPtn_rcv (d : Dev) (n : Nat) (f : Partner → Partner) : (d.modPtn n f).rcv = d.rcv := rfl
@[simp] theorem Dev.modPtn_ctr (d : Dev) (n : Nat) (f : Partner → Partner) : (d.modPtn n f).ctr = d.ctr := rfl
@[simp] theorem Dev.modPtn_sel (d : Dev) (n : Nat) (f : Partner → Partner) : (d.modPtn n f).sel = d.sel := rfl
@[simp] theorem Dev.modPtn_latch (d : Dev) (n : Nat) (f : Partner → Partner) : (d.modPtn n f).latch = d.latch := rfl
@[simp] theorem Dev.modPtn_freeIx (d : Dev) (n : Nat) (f : Partner → Partner) : (d.modPtn n f).freeIx = d.freeIx := rfl
@[simp] theorem Dev.modPtn_dt (d : Dev) (n : Nat) (f : Partner → Partner) : (d.modPtn n f).dt = d.dt := rfl
@[simp] theorem Dev.modPtn_link_lane (d : Dev) (n : Nat) (f : Partner → Partner) : (d.modPtn n f).link.lane = d.link.lane := rfl
@[simp] theorem Dev.modPtn_link_lin (d : Dev) (n : Nat) (f : Partner → Partner) : (d.modPtn n f).link.lin = d.link.lin := rfl
@[simp] theorem Dev.modPtn_link_lout (d : Dev) (n : Nat) (f : Partner → Partner) : (d.modPtn n f).link.lout = d.link.lout := rfl
@[simp] theorem Dev.modPtn_link_oct (d : Dev) (n : Nat) (f : Partner → Partner) : (d.modPtn n f).link.oct = d.link.oct := rfl
@[simp] theorem Dev.modPtn_link_port (d : Dev) (n : Nat) (f : Partner → Partner) : (d.modPtn n f).link.port = d.link.port := rfl
@[simp] theorem Dev.modPtn_link_rx (d : Dev) (n : Nat) (f : Partner → Partner) : (d.modPtn n f).link.rx = d.link.rx := rfl
@[simp] theorem Dev.modPtn_link_tx (d : Dev) (n : Nat) (f : Partner → Partner) : (d.modPtn n f).link.tx = d.link.tx := rfl
@[simp] theorem Dev.modPtn_link_ptx (d : Dev) (n : Nat) (f : Partner → Partner) : (d.modPtn n f).link.ptx = d.link.ptx := rfl
@[simp] theorem Dev.modPtn_link_lastNo (d : Dev) (n : Nat) (f : Partner → Partner) : (d.modPtn n f).link.lastNo = d.link.lastNo := rfl
/-! modSrc -/
@[simp] theorem Dev.modSrc_src_self (d : Dev) (n : Nat) (f : Source → Source) : (d.modSrc n f).src n = f (d.src n) := tabGet_tabMod_self _ _ _ _
theorem Dev.modSrc_src_ne (d : Dev) {n k : Nat} (f : Source → Source) (h : k ≠ n) : (d.modSrc n f).src k = d.src k := tabGet_tabMod_ne _ _ _ h
@[simp] theorem Dev.modSrc_pin (d : Dev) (n : Nat) (f : Source → Source) : (d.modSrc n f).pin = d.pin := rfl
@[simp] theorem Dev.modSrc_clk (d : Dev) (n : Nat) (f : Source → Source) : (d.modSrc n f).clk = d.clk := rfl
@[simp] theorem Dev.modSrc_cfg (d : Dev) (n : Nat) (f : Source → Source) : (d.modSrc n f).cfg = d.cfg := rfl
@[simp] theorem Dev.modSrc_link (d : Dev) (n : Nat) (f : Source → Source) : (d.modSrc n f).link = d.link := rfl
@[simp] theorem Dev.modSrc_mbox (d : Dev) (n : Nat) (f : Source → Source) : (d.modSrc n f).mbox = d.mbox := rfl
@[simp] theorem Dev.modSrc_telem (d : Dev) (n : Nat) (f : Source → Source) : (d.modSrc n f).telem = d.telem := rfl
@[simp] theorem Dev.modSrc_txn (d : Dev) (n : Nat) (f : Source → Source) : (d.modSrc n f).txn = d.txn := rfl
@[simp] theorem Dev.modSrc_mem (d : Dev) (n : Nat) (f : Source → Source) : (d.modSrc n f).mem = d.mem := rfl
@[simp] theorem Dev.modSrc_qm (d : Dev) (n : Nat) (f : Source → Source) : (d.modSrc n f).qm = d.qm := rfl
@[simp] theorem Dev.modSrc_sla (d : Dev) (n : Nat) (f : Source → Source) : (d.modSrc n f).sla = d.sla := rfl
@[simp] theorem Dev.modSrc_dram (d : Dev) (n : Nat) (f : Source → Source) : (d.modSrc n f).dram = d.dram := rfl
@[simp] theorem Dev.modSrc_ecc (d : Dev) (n : Nat) (f : Source → Source) : (d.modSrc n f).ecc = d.ecc := rfl
@[simp] theorem Dev.modSrc_reg (d : Dev) (n : Nat) (f : Source → Source) : (d.modSrc n f).reg = d.reg := rfl
@[simp] theorem Dev.modSrc_xfer (d : Dev) (n : Nat) (f : Source → Source) : (d.modSrc n f).xfer = d.xfer := rfl
@[simp] theorem Dev.modSrc_therm (d : Dev) (n : Nat) (f : Source → Source) : (d.modSrc n f).therm = d.therm := rfl
@[simp] theorem Dev.modSrc_graft (d : Dev) (n : Nat) (f : Source → Source) : (d.modSrc n f).graft = d.graft := rfl
@[simp] theorem Dev.modSrc_otp (d : Dev) (n : Nat) (f : Source → Source) : (d.modSrc n f).otp = d.otp := rfl
@[simp] theorem Dev.modSrc_mgmt (d : Dev) (n : Nat) (f : Source → Source) : (d.modSrc n f).mgmt = d.mgmt := rfl
@[simp] theorem Dev.modSrc_boot (d : Dev) (n : Nat) (f : Source → Source) : (d.modSrc n f).boot = d.boot := rfl
@[simp] theorem Dev.modSrc_csr (d : Dev) (n : Nat) (f : Source → Source) : (d.modSrc n f).csr = d.csr := rfl
@[simp] theorem Dev.modSrc_evt (d : Dev) (n : Nat) (f : Source → Source) : (d.modSrc n f).evt = d.evt := rfl
@[simp] theorem Dev.modSrc_rcv (d : Dev) (n : Nat) (f : Source → Source) : (d.modSrc n f).rcv = d.rcv := rfl
@[simp] theorem Dev.modSrc_ctr (d : Dev) (n : Nat) (f : Source → Source) : (d.modSrc n f).ctr = d.ctr := rfl
@[simp] theorem Dev.modSrc_sel (d : Dev) (n : Nat) (f : Source → Source) : (d.modSrc n f).sel = d.sel := rfl
@[simp] theorem Dev.modSrc_latch (d : Dev) (n : Nat) (f : Source → Source) : (d.modSrc n f).latch = d.latch := rfl
@[simp] theorem Dev.modSrc_freeIx (d : Dev) (n : Nat) (f : Source → Source) : (d.modSrc n f).freeIx = d.freeIx := rfl
@[simp] theorem Dev.modSrc_dt (d : Dev) (n : Nat) (f : Source → Source) : (d.modSrc n f).dt = d.dt := rfl
/-! modMb -/
@[simp] theorem Dev.modMb_mb_self (d : Dev) (n : Nat) (f : Mbox → Mbox) : (d.modMb n f).mb n = f (d.mb n) := tabGet_tabMod_self _ _ _ _
theorem Dev.modMb_mb_ne (d : Dev) {n k : Nat} (f : Mbox → Mbox) (h : k ≠ n) : (d.modMb n f).mb k = d.mb k := tabGet_tabMod_ne _ _ _ h
@[simp] theorem Dev.modMb_pin (d : Dev) (n : Nat) (f : Mbox → Mbox) : (d.modMb n f).pin = d.pin := rfl
@[simp] theorem Dev.modMb_clk (d : Dev) (n : Nat) (f : Mbox → Mbox) : (d.modMb n f).clk = d.clk := rfl
@[simp] theorem Dev.modMb_cfg (d : Dev) (n : Nat) (f : Mbox → Mbox) : (d.modMb n f).cfg = d.cfg := rfl
@[simp] theorem Dev.modMb_link (d : Dev) (n : Nat) (f : Mbox → Mbox) : (d.modMb n f).link = d.link := rfl
@[simp] theorem Dev.modMb_fault (d : Dev) (n : Nat) (f : Mbox → Mbox) : (d.modMb n f).fault = d.fault := rfl
@[simp] theorem Dev.modMb_telem (d : Dev) (n : Nat) (f : Mbox → Mbox) : (d.modMb n f).telem = d.telem := rfl
@[simp] theorem Dev.modMb_txn (d : Dev) (n : Nat) (f : Mbox → Mbox) : (d.modMb n f).txn = d.txn := rfl
@[simp] theorem Dev.modMb_mem (d : Dev) (n : Nat) (f : Mbox → Mbox) : (d.modMb n f).mem = d.mem := rfl
@[simp] theorem Dev.modMb_qm (d : Dev) (n : Nat) (f : Mbox → Mbox) : (d.modMb n f).qm = d.qm := rfl
@[simp] theorem Dev.modMb_sla (d : Dev) (n : Nat) (f : Mbox → Mbox) : (d.modMb n f).sla = d.sla := rfl
@[simp] theorem Dev.modMb_dram (d : Dev) (n : Nat) (f : Mbox → Mbox) : (d.modMb n f).dram = d.dram := rfl
@[simp] theorem Dev.modMb_ecc (d : Dev) (n : Nat) (f : Mbox → Mbox) : (d.modMb n f).ecc = d.ecc := rfl
@[simp] theorem Dev.modMb_reg (d : Dev) (n : Nat) (f : Mbox → Mbox) : (d.modMb n f).reg = d.reg := rfl
@[simp] theorem Dev.modMb_xfer (d : Dev) (n : Nat) (f : Mbox → Mbox) : (d.modMb n f).xfer = d.xfer := rfl
@[simp] theorem Dev.modMb_therm (d : Dev) (n : Nat) (f : Mbox → Mbox) : (d.modMb n f).therm = d.therm := rfl
@[simp] theorem Dev.modMb_graft (d : Dev) (n : Nat) (f : Mbox → Mbox) : (d.modMb n f).graft = d.graft := rfl
@[simp] theorem Dev.modMb_otp (d : Dev) (n : Nat) (f : Mbox → Mbox) : (d.modMb n f).otp = d.otp := rfl
@[simp] theorem Dev.modMb_mgmt (d : Dev) (n : Nat) (f : Mbox → Mbox) : (d.modMb n f).mgmt = d.mgmt := rfl
@[simp] theorem Dev.modMb_boot (d : Dev) (n : Nat) (f : Mbox → Mbox) : (d.modMb n f).boot = d.boot := rfl
@[simp] theorem Dev.modMb_csr (d : Dev) (n : Nat) (f : Mbox → Mbox) : (d.modMb n f).csr = d.csr := rfl
@[simp] theorem Dev.modMb_evt (d : Dev) (n : Nat) (f : Mbox → Mbox) : (d.modMb n f).evt = d.evt := rfl
@[simp] theorem Dev.modMb_rcv (d : Dev) (n : Nat) (f : Mbox → Mbox) : (d.modMb n f).rcv = d.rcv := rfl
@[simp] theorem Dev.modMb_ctr (d : Dev) (n : Nat) (f : Mbox → Mbox) : (d.modMb n f).ctr = d.ctr := rfl
@[simp] theorem Dev.modMb_sel (d : Dev) (n : Nat) (f : Mbox → Mbox) : (d.modMb n f).sel = d.sel := rfl
@[simp] theorem Dev.modMb_latch (d : Dev) (n : Nat) (f : Mbox → Mbox) : (d.modMb n f).latch = d.latch := rfl
@[simp] theorem Dev.modMb_freeIx (d : Dev) (n : Nat) (f : Mbox → Mbox) : (d.modMb n f).freeIx = d.freeIx := rfl
@[simp] theorem Dev.modMb_dt (d : Dev) (n : Nat) (f : Mbox → Mbox) : (d.modMb n f).dt = d.dt := rfl
/-! modQueue -/
@[simp] theorem Dev.modQueue_queue_self (d : Dev) (n : Nat) (f : Queue → Queue) : (d.modQueue n f).queue n = f (d.queue n) := tabGet_tabMod_self _ _ _ _
theorem Dev.modQueue_queue_ne (d : Dev) {n k : Nat} (f : Queue → Queue) (h : k ≠ n) : (d.modQueue n f).queue k = d.queue k := tabGet_tabMod_ne _ _ _ h
@[simp] theorem Dev.modQueue_pin (d : Dev) (n : Nat) (f : Queue → Queue) : (d.modQueue n f).pin = d.pin := rfl
@[simp] theorem Dev.modQueue_clk (d : Dev) (n : Nat) (f : Queue → Queue) : (d.modQueue n f).clk = d.clk := rfl
@[simp] theorem Dev.modQueue_cfg (d : Dev) (n : Nat) (f : Queue → Queue) : (d.modQueue n f).cfg = d.cfg := rfl
@[simp] theorem Dev.modQueue_link (d : Dev) (n : Nat) (f : Queue → Queue) : (d.modQueue n f).link = d.link := rfl
@[simp] theorem Dev.modQueue_fault (d : Dev) (n : Nat) (f : Queue → Queue) : (d.modQueue n f).fault = d.fault := rfl
@[simp] theorem Dev.modQueue_mbox (d : Dev) (n : Nat) (f : Queue → Queue) : (d.modQueue n f).mbox = d.mbox := rfl
@[simp] theorem Dev.modQueue_telem (d : Dev) (n : Nat) (f : Queue → Queue) : (d.modQueue n f).telem = d.telem := rfl
@[simp] theorem Dev.modQueue_txn (d : Dev) (n : Nat) (f : Queue → Queue) : (d.modQueue n f).txn = d.txn := rfl
@[simp] theorem Dev.modQueue_mem (d : Dev) (n : Nat) (f : Queue → Queue) : (d.modQueue n f).mem = d.mem := rfl
@[simp] theorem Dev.modQueue_sla (d : Dev) (n : Nat) (f : Queue → Queue) : (d.modQueue n f).sla = d.sla := rfl
@[simp] theorem Dev.modQueue_dram (d : Dev) (n : Nat) (f : Queue → Queue) : (d.modQueue n f).dram = d.dram := rfl
@[simp] theorem Dev.modQueue_ecc (d : Dev) (n : Nat) (f : Queue → Queue) : (d.modQueue n f).ecc = d.ecc := rfl
@[simp] theorem Dev.modQueue_reg (d : Dev) (n : Nat) (f : Queue → Queue) : (d.modQueue n f).reg = d.reg := rfl
@[simp] theorem Dev.modQueue_xfer (d : Dev) (n : Nat) (f : Queue → Queue) : (d.modQueue n f).xfer = d.xfer := rfl
@[simp] theorem Dev.modQueue_therm (d : Dev) (n : Nat) (f : Queue → Queue) : (d.modQueue n f).therm = d.therm := rfl
@[simp] theorem Dev.modQueue_graft (d : Dev) (n : Nat) (f : Queue → Queue) : (d.modQueue n f).graft = d.graft := rfl
@[simp] theorem Dev.modQueue_otp (d : Dev) (n : Nat) (f : Queue → Queue) : (d.modQueue n f).otp = d.otp := rfl
@[simp] theorem Dev.modQueue_mgmt (d : Dev) (n : Nat) (f : Queue → Queue) : (d.modQueue n f).mgmt = d.mgmt := rfl
@[simp] theorem Dev.modQueue_boot (d : Dev) (n : Nat) (f : Queue → Queue) : (d.modQueue n f).boot = d.boot := rfl
@[simp] theorem Dev.modQueue_csr (d : Dev) (n : Nat) (f : Queue → Queue) : (d.modQueue n f).csr = d.csr := rfl
@[simp] theorem Dev.modQueue_evt (d : Dev) (n : Nat) (f : Queue → Queue) : (d.modQueue n f).evt = d.evt := rfl
@[simp] theorem Dev.modQueue_rcv (d : Dev) (n : Nat) (f : Queue → Queue) : (d.modQueue n f).rcv = d.rcv := rfl
@[simp] theorem Dev.modQueue_ctr (d : Dev) (n : Nat) (f : Queue → Queue) : (d.modQueue n f).ctr = d.ctr := rfl
@[simp] theorem Dev.modQueue_sel (d : Dev) (n : Nat) (f : Queue → Queue) : (d.modQueue n f).sel = d.sel := rfl
@[simp] theorem Dev.modQueue_latch (d : Dev) (n : Nat) (f : Queue → Queue) : (d.modQueue n f).latch = d.latch := rfl
@[simp] theorem Dev.modQueue_freeIx (d : Dev) (n : Nat) (f : Queue → Queue) : (d.modQueue n f).freeIx = d.freeIx := rfl
@[simp] theorem Dev.modQueue_dt (d : Dev) (n : Nat) (f : Queue → Queue) : (d.modQueue n f).dt = d.dt := rfl
/-! modEng -/
@[simp] theorem Dev.modEng_eng_self (d : Dev) (n : Nat) (f : Engine → Engine) : (d.modEng n f).eng n = f (d.eng n) := tabGet_tabMod_self _ _ _ _
theorem Dev.modEng_eng_ne (d : Dev) {n k : Nat} (f : Engine → Engine) (h : k ≠ n) : (d.modEng n f).eng k = d.eng k := tabGet_tabMod_ne _ _ _ h
@[simp] theorem Dev.modEng_pin (d : Dev) (n : Nat) (f : Engine → Engine) : (d.modEng n f).pin = d.pin := rfl
@[simp] theorem Dev.modEng_clk (d : Dev) (n : Nat) (f : Engine → Engine) : (d.modEng n f).clk = d.clk := rfl
@[simp] theorem Dev.modEng_cfg (d : Dev) (n : Nat) (f : Engine → Engine) : (d.modEng n f).cfg = d.cfg := rfl
@[simp] theorem Dev.modEng_link (d : Dev) (n : Nat) (f : Engine → Engine) : (d.modEng n f).link = d.link := rfl
@[simp] theorem Dev.modEng_fault (d : Dev) (n : Nat) (f : Engine → Engine) : (d.modEng n f).fault = d.fault := rfl
@[simp] theorem Dev.modEng_mbox (d : Dev) (n : Nat) (f : Engine → Engine) : (d.modEng n f).mbox = d.mbox := rfl
@[simp] theorem Dev.modEng_telem (d : Dev) (n : Nat) (f : Engine → Engine) : (d.modEng n f).telem = d.telem := rfl
@[simp] theorem Dev.modEng_txn (d : Dev) (n : Nat) (f : Engine → Engine) : (d.modEng n f).txn = d.txn := rfl
@[simp] theorem Dev.modEng_mem (d : Dev) (n : Nat) (f : Engine → Engine) : (d.modEng n f).mem = d.mem := rfl
@[simp] theorem Dev.modEng_qm (d : Dev) (n : Nat) (f : Engine → Engine) : (d.modEng n f).qm = d.qm := rfl
@[simp] theorem Dev.modEng_dram (d : Dev) (n : Nat) (f : Engine → Engine) : (d.modEng n f).dram = d.dram := rfl
@[simp] theorem Dev.modEng_ecc (d : Dev) (n : Nat) (f : Engine → Engine) : (d.modEng n f).ecc = d.ecc := rfl
@[simp] theorem Dev.modEng_reg (d : Dev) (n : Nat) (f : Engine → Engine) : (d.modEng n f).reg = d.reg := rfl
@[simp] theorem Dev.modEng_xfer (d : Dev) (n : Nat) (f : Engine → Engine) : (d.modEng n f).xfer = d.xfer := rfl
@[simp] theorem Dev.modEng_therm (d : Dev) (n : Nat) (f : Engine → Engine) : (d.modEng n f).therm = d.therm := rfl
@[simp] theorem Dev.modEng_graft (d : Dev) (n : Nat) (f : Engine → Engine) : (d.modEng n f).graft = d.graft := rfl
@[simp] theorem Dev.modEng_otp (d : Dev) (n : Nat) (f : Engine → Engine) : (d.modEng n f).otp = d.otp := rfl
@[simp] theorem Dev.modEng_mgmt (d : Dev) (n : Nat) (f : Engine → Engine) : (d.modEng n f).mgmt = d.mgmt := rfl
@[simp] theorem Dev.modEng_boot (d : Dev) (n : Nat) (f : Engine → Engine) : (d.modEng n f).boot = d.boot := rfl
@[simp] theorem Dev.modEng_csr (d : Dev) (n : Nat) (f : Engine → Engine) : (d.modEng n f).csr = d.csr := rfl
@[simp] theorem Dev.modEng_evt (d : Dev) (n : Nat) (f : Engine → Engine) : (d.modEng n f).evt = d.evt := rfl
@[simp] theorem Dev.modEng_rcv (d : Dev) (n : Nat) (f : Engine → Engine) : (d.modEng n f).rcv = d.rcv := rfl
@[simp] theorem Dev.modEng_ctr (d : Dev) (n : Nat) (f : Engine → Engine) : (d.modEng n f).ctr = d.ctr := rfl
@[simp] theorem Dev.modEng_sel (d : Dev) (n : Nat) (f : Engine → Engine) : (d.modEng n f).sel = d.sel := rfl
@[simp] theorem Dev.modEng_latch (d : Dev) (n : Nat) (f : Engine → Engine) : (d.modEng n f).latch = d.latch := rfl
@[simp] theorem Dev.modEng_freeIx (d : Dev) (n : Nat) (f : Engine → Engine) : (d.modEng n f).freeIx = d.freeIx := rfl
@[simp] theorem Dev.modEng_dt (d : Dev) (n : Nat) (f : Engine → Engine) : (d.modEng n f).dt = d.dt := rfl
/-! modCh -/
@[simp] theorem Dev.modCh_ch_self (d : Dev) (n : Nat) (f : Chan → Chan) : (d.modCh n f).ch n = f (d.ch n) := tabGet_tabMod_self _ _ _ _
theorem Dev.modCh_ch_ne (d : Dev) {n k : Nat} (f : Chan → Chan) (h : k ≠ n) : (d.modCh n f).ch k = d.ch k := tabGet_tabMod_ne _ _ _ h
@[simp] theorem Dev.modCh_pin (d : Dev) (n : Nat) (f : Chan → Chan) : (d.modCh n f).pin = d.pin := rfl
@[simp] theorem Dev.modCh_clk (d : Dev) (n : Nat) (f : Chan → Chan) : (d.modCh n f).clk = d.clk := rfl
@[simp] theorem Dev.modCh_cfg (d : Dev) (n : Nat) (f : Chan → Chan) : (d.modCh n f).cfg = d.cfg := rfl
@[simp] theorem Dev.modCh_link (d : Dev) (n : Nat) (f : Chan → Chan) : (d.modCh n f).link = d.link := rfl
@[simp] theorem Dev.modCh_fault (d : Dev) (n : Nat) (f : Chan → Chan) : (d.modCh n f).fault = d.fault := rfl
@[simp] theorem Dev.modCh_mbox (d : Dev) (n : Nat) (f : Chan → Chan) : (d.modCh n f).mbox = d.mbox := rfl
@[simp] theorem Dev.modCh_telem (d : Dev) (n : Nat) (f : Chan → Chan) : (d.modCh n f).telem = d.telem := rfl
@[simp] theorem Dev.modCh_txn (d : Dev) (n : Nat) (f : Chan → Chan) : (d.modCh n f).txn = d.txn := rfl
@[simp] theorem Dev.modCh_mem (d : Dev) (n : Nat) (f : Chan → Chan) : (d.modCh n f).mem = d.mem := rfl
@[simp] theorem Dev.modCh_qm (d : Dev) (n : Nat) (f : Chan → Chan) : (d.modCh n f).qm = d.qm := rfl
@[simp] theorem Dev.modCh_sla (d : Dev) (n : Nat) (f : Chan → Chan) : (d.modCh n f).sla = d.sla := rfl
@[simp] theorem Dev.modCh_ecc (d : Dev) (n : Nat) (f : Chan → Chan) : (d.modCh n f).ecc = d.ecc := rfl
@[simp] theorem Dev.modCh_reg (d : Dev) (n : Nat) (f : Chan → Chan) : (d.modCh n f).reg = d.reg := rfl
@[simp] theorem Dev.modCh_xfer (d : Dev) (n : Nat) (f : Chan → Chan) : (d.modCh n f).xfer = d.xfer := rfl
@[simp] theorem Dev.modCh_therm (d : Dev) (n : Nat) (f : Chan → Chan) : (d.modCh n f).therm = d.therm := rfl
@[simp] theorem Dev.modCh_graft (d : Dev) (n : Nat) (f : Chan → Chan) : (d.modCh n f).graft = d.graft := rfl
@[simp] theorem Dev.modCh_otp (d : Dev) (n : Nat) (f : Chan → Chan) : (d.modCh n f).otp = d.otp := rfl
@[simp] theorem Dev.modCh_mgmt (d : Dev) (n : Nat) (f : Chan → Chan) : (d.modCh n f).mgmt = d.mgmt := rfl
@[simp] theorem Dev.modCh_boot (d : Dev) (n : Nat) (f : Chan → Chan) : (d.modCh n f).boot = d.boot := rfl
@[simp] theorem Dev.modCh_csr (d : Dev) (n : Nat) (f : Chan → Chan) : (d.modCh n f).csr = d.csr := rfl
@[simp] theorem Dev.modCh_evt (d : Dev) (n : Nat) (f : Chan → Chan) : (d.modCh n f).evt = d.evt := rfl
@[simp] theorem Dev.modCh_rcv (d : Dev) (n : Nat) (f : Chan → Chan) : (d.modCh n f).rcv = d.rcv := rfl
@[simp] theorem Dev.modCh_ctr (d : Dev) (n : Nat) (f : Chan → Chan) : (d.modCh n f).ctr = d.ctr := rfl
@[simp] theorem Dev.modCh_sel (d : Dev) (n : Nat) (f : Chan → Chan) : (d.modCh n f).sel = d.sel := rfl
@[simp] theorem Dev.modCh_latch (d : Dev) (n : Nat) (f : Chan → Chan) : (d.modCh n f).latch = d.latch := rfl
@[simp] theorem Dev.modCh_freeIx (d : Dev) (n : Nat) (f : Chan → Chan) : (d.modCh n f).freeIx = d.freeIx := rfl
@[simp] theorem Dev.modCh_dt (d : Dev) (n : Nat) (f : Chan → Chan) : (d.modCh n f).dt = d.dt := rfl
/-! modDom -/
@[simp] theorem Dev.modDom_dom_self (d : Dev) (n : Nat) (f : CalDom → CalDom) : (d.modDom n f).dom n = f (d.dom n) := tabGet_tabMod_self _ _ _ _
theorem Dev.modDom_dom_ne (d : Dev) {n k : Nat} (f : CalDom → CalDom) (h : k ≠ n) : (d.modDom n f).dom k = d.dom k := tabGet_tabMod_ne _ _ _ h
@[simp] theorem Dev.modDom_pin (d : Dev) (n : Nat) (f : CalDom → CalDom) : (d.modDom n f).pin = d.pin := rfl
@[simp] theorem Dev.modDom_clk (d : Dev) (n : Nat) (f : CalDom → CalDom) : (d.modDom n f).clk = d.clk := rfl
@[simp] theorem Dev.modDom_cfg (d : Dev) (n : Nat) (f : CalDom → CalDom) : (d.modDom n f).cfg = d.cfg := rfl
@[simp] theorem Dev.modDom_link (d : Dev) (n : Nat) (f : CalDom → CalDom) : (d.modDom n f).link = d.link := rfl
@[simp] theorem Dev.modDom_fault (d : Dev) (n : Nat) (f : CalDom → CalDom) : (d.modDom n f).fault = d.fault := rfl
@[simp] theorem Dev.modDom_mbox (d : Dev) (n : Nat) (f : CalDom → CalDom) : (d.modDom n f).mbox = d.mbox := rfl
@[simp] theorem Dev.modDom_telem (d : Dev) (n : Nat) (f : CalDom → CalDom) : (d.modDom n f).telem = d.telem := rfl
@[simp] theorem Dev.modDom_txn (d : Dev) (n : Nat) (f : CalDom → CalDom) : (d.modDom n f).txn = d.txn := rfl
@[simp] theorem Dev.modDom_mem (d : Dev) (n : Nat) (f : CalDom → CalDom) : (d.modDom n f).mem = d.mem := rfl
@[simp] theorem Dev.modDom_qm (d : Dev) (n : Nat) (f : CalDom → CalDom) : (d.modDom n f).qm = d.qm := rfl
@[simp] theorem Dev.modDom_sla (d : Dev) (n : Nat) (f : CalDom → CalDom) : (d.modDom n f).sla = d.sla := rfl
@[simp] theorem Dev.modDom_dram (d : Dev) (n : Nat) (f : CalDom → CalDom) : (d.modDom n f).dram = d.dram := rfl
@[simp] theorem Dev.modDom_ecc (d : Dev) (n : Nat) (f : CalDom → CalDom) : (d.modDom n f).ecc = d.ecc := rfl
@[simp] theorem Dev.modDom_reg (d : Dev) (n : Nat) (f : CalDom → CalDom) : (d.modDom n f).reg = d.reg := rfl
@[simp] theorem Dev.modDom_xfer (d : Dev) (n : Nat) (f : CalDom → CalDom) : (d.modDom n f).xfer = d.xfer := rfl
@[simp] theorem Dev.modDom_graft (d : Dev) (n : Nat) (f : CalDom → CalDom) : (d.modDom n f).graft = d.graft := rfl
@[simp] theorem Dev.modDom_otp (d : Dev) (n : Nat) (f : CalDom → CalDom) : (d.modDom n f).otp = d.otp := rfl
@[simp] theorem Dev.modDom_mgmt (d : Dev) (n : Nat) (f : CalDom → CalDom) : (d.modDom n f).mgmt = d.mgmt := rfl
@[simp] theorem Dev.modDom_boot (d : Dev) (n : Nat) (f : CalDom → CalDom) : (d.modDom n f).boot = d.boot := rfl
@[simp] theorem Dev.modDom_csr (d : Dev) (n : Nat) (f : CalDom → CalDom) : (d.modDom n f).csr = d.csr := rfl
@[simp] theorem Dev.modDom_evt (d : Dev) (n : Nat) (f : CalDom → CalDom) : (d.modDom n f).evt = d.evt := rfl
@[simp] theorem Dev.modDom_rcv (d : Dev) (n : Nat) (f : CalDom → CalDom) : (d.modDom n f).rcv = d.rcv := rfl
@[simp] theorem Dev.modDom_ctr (d : Dev) (n : Nat) (f : CalDom → CalDom) : (d.modDom n f).ctr = d.ctr := rfl
@[simp] theorem Dev.modDom_sel (d : Dev) (n : Nat) (f : CalDom → CalDom) : (d.modDom n f).sel = d.sel := rfl
@[simp] theorem Dev.modDom_latch (d : Dev) (n : Nat) (f : CalDom → CalDom) : (d.modDom n f).latch = d.latch := rfl
@[simp] theorem Dev.modDom_freeIx (d : Dev) (n : Nat) (f : CalDom → CalDom) : (d.modDom n f).freeIx = d.freeIx := rfl
@[simp] theorem Dev.modDom_dt (d : Dev) (n : Nat) (f : CalDom → CalDom) : (d.modDom n f).dt = d.dt := rfl
/-! modXc -/
@[simp] theorem Dev.modXc_xc_self (d : Dev) (n : Nat) (f : Xc → Xc) : (d.modXc n f).xc n = f (d.xc n) := tabGet_tabMod_self _ _ _ _
theorem Dev.modXc_xc_ne (d : Dev) {n k : Nat} (f : Xc → Xc) (h : k ≠ n) : (d.modXc n f).xc k = d.xc k := tabGet_tabMod_ne _ _ _ h
@[simp] theorem Dev.modXc_pin (d : Dev) (n : Nat) (f : Xc → Xc) : (d.modXc n f).pin = d.pin := rfl
@[simp] theorem Dev.modXc_clk (d : Dev) (n : Nat) (f : Xc → Xc) : (d.modXc n f).clk = d.clk := rfl
@[simp] theorem Dev.modXc_cfg (d : Dev) (n : Nat) (f : Xc → Xc) : (d.modXc n f).cfg = d.cfg := rfl
@[simp] theorem Dev.modXc_link (d : Dev) (n : Nat) (f : Xc → Xc) : (d.modXc n f).link = d.link := rfl
@[simp] theorem Dev.modXc_fault (d : Dev) (n : Nat) (f : Xc → Xc) : (d.modXc n f).fault = d.fault := rfl
@[simp] theorem Dev.modXc_mbox (d : Dev) (n : Nat) (f : Xc → Xc) : (d.modXc n f).mbox = d.mbox := rfl
@[simp] theorem Dev.modXc_telem (d : Dev) (n : Nat) (f : Xc → Xc) : (d.modXc n f).telem = d.telem := rfl
@[simp] theorem Dev.modXc_txn (d : Dev) (n : Nat) (f : Xc → Xc) : (d.modXc n f).txn = d.txn := rfl
@[simp] theorem Dev.modXc_mem (d : Dev) (n : Nat) (f : Xc → Xc) : (d.modXc n f).mem = d.mem := rfl
@[simp] theorem Dev.modXc_qm (d : Dev) (n : Nat) (f : Xc → Xc) : (d.modXc n f).qm = d.qm := rfl
@[simp] theorem Dev.modXc_sla (d : Dev) (n : Nat) (f : Xc → Xc) : (d.modXc n f).sla = d.sla := rfl
@[simp] theorem Dev.modXc_dram (d : Dev) (n : Nat) (f : Xc → Xc) : (d.modXc n f).dram = d.dram := rfl
@[simp] theorem Dev.modXc_ecc (d : Dev) (n : Nat) (f : Xc → Xc) : (d.modXc n f).ecc = d.ecc := rfl
@[simp] theorem Dev.modXc_reg (d : Dev) (n : Nat) (f : Xc → Xc) : (d.modXc n f).reg = d.reg := rfl
@[simp] theorem Dev.modXc_therm (d : Dev) (n : Nat) (f : Xc → Xc) : (d.modXc n f).therm = d.therm := rfl
@[simp] theorem Dev.modXc_graft (d : Dev) (n : Nat) (f : Xc → Xc) : (d.modXc n f).graft = d.graft := rfl
@[simp] theorem Dev.modXc_otp (d : Dev) (n : Nat) (f : Xc → Xc) : (d.modXc n f).otp = d.otp := rfl
@[simp] theorem Dev.modXc_mgmt (d : Dev) (n : Nat) (f : Xc → Xc) : (d.modXc n f).mgmt = d.mgmt := rfl
@[simp] theorem Dev.modXc_boot (d : Dev) (n : Nat) (f : Xc → Xc) : (d.modXc n f).boot = d.boot := rfl
@[simp] theorem Dev.modXc_csr (d : Dev) (n : Nat) (f : Xc → Xc) : (d.modXc n f).csr = d.csr := rfl
@[simp] theorem Dev.modXc_evt (d : Dev) (n : Nat) (f : Xc → Xc) : (d.modXc n f).evt = d.evt := rfl
@[simp] theorem Dev.modXc_rcv (d : Dev) (n : Nat) (f : Xc → Xc) : (d.modXc n f).rcv = d.rcv := rfl
@[simp] theorem Dev.modXc_ctr (d : Dev) (n : Nat) (f : Xc → Xc) : (d.modXc n f).ctr = d.ctr := rfl
@[simp] theorem Dev.modXc_sel (d : Dev) (n : Nat) (f : Xc → Xc) : (d.modXc n f).sel = d.sel := rfl
@[simp] theorem Dev.modXc_latch (d : Dev) (n : Nat) (f : Xc → Xc) : (d.modXc n f).latch = d.latch := rfl
@[simp] theorem Dev.modXc_freeIx (d : Dev) (n : Nat) (f : Xc → Xc) : (d.modXc n f).freeIx = d.freeIx := rfl
@[simp] theorem Dev.modXc_dt (d : Dev) (n : Nat) (f : Xc → Xc) : (d.modXc n f).dt = d.dt := rfl
/-! modEvac -/
@[simp] theorem Dev.modEvac_evacOf_self (d : Dev) (n : Nat) (f : Evac → Evac) : (d.modEvac n f).evacOf n = f (d.evacOf n) := tabGet_tabMod_self _ _ _ _
theorem Dev.modEvac_evacOf_ne (d : Dev) {n k : Nat} (f : Evac → Evac) (h : k ≠ n) : (d.modEvac n f).evacOf k = d.evacOf k := tabGet_tabMod_ne _ _ _ h
@[simp] theorem Dev.modEvac_pin (d : Dev) (n : Nat) (f : Evac → Evac) : (d.modEvac n f).pin = d.pin := rfl
@[simp] theorem Dev.modEvac_clk (d : Dev) (n : Nat) (f : Evac → Evac) : (d.modEvac n f).clk = d.clk := rfl
@[simp] theorem Dev.modEvac_cfg (d : Dev) (n : Nat) (f : Evac → Evac) : (d.modEvac n f).cfg = d.cfg := rfl
@[simp] theorem Dev.modEvac_link (d : Dev) (n : Nat) (f : Evac → Evac) : (d.modEvac n f).link = d.link := rfl
@[simp] theorem Dev.modEvac_fault (d : Dev) (n : Nat) (f : Evac → Evac) : (d.modEvac n f).fault = d.fault := rfl
@[simp] theorem Dev.modEvac_mbox (d : Dev) (n : Nat) (f : Evac → Evac) : (d.modEvac n f).mbox = d.mbox := rfl
@[simp] theorem Dev.modEvac_telem (d : Dev) (n : Nat) (f : Evac → Evac) : (d.modEvac n f).telem = d.telem := rfl
@[simp] theorem Dev.modEvac_txn (d : Dev) (n : Nat) (f : Evac → Evac) : (d.modEvac n f).txn = d.txn := rfl
@[simp] theorem Dev.modEvac_mem (d : Dev) (n : Nat) (f : Evac → Evac) : (d.modEvac n f).mem = d.mem := rfl
@[simp] theorem Dev.modEvac_qm (d : Dev) (n : Nat) (f : Evac → Evac) : (d.modEvac n f).qm = d.qm := rfl
@[simp] theorem Dev.modEvac_sla (d : Dev) (n : Nat) (f : Evac → Evac) : (d.modEvac n f).sla = d.sla := rfl
@[simp] theorem Dev.modEvac_dram (d : Dev) (n : Nat) (f : Evac → Evac) : (d.modEvac n f).dram = d.dram := rfl
@[simp] theorem Dev.modEvac_ecc (d : Dev) (n : Nat) (f : Evac → Evac) : (d.modEvac n f).ecc = d.ecc := rfl
@[simp] theorem Dev.modEvac_reg (d : Dev) (n : Nat) (f : Evac → Evac) : (d.modEvac n f).reg = d.reg := rfl
@[simp] theorem Dev.modEvac_xfer (d : Dev) (n : Nat) (f : Evac → Evac) : (d.modEvac n f).xfer = d.xfer := rfl
@[simp] theorem Dev.modEvac_therm (d : Dev) (n : Nat) (f : Evac → Evac) : (d.modEvac n f).therm = d.therm := rfl
@[simp] theorem Dev.modEvac_otp (d : Dev) (n : Nat) (f : Evac → Evac) : (d.modEvac n f).otp = d.otp := rfl
@[simp] theorem Dev.modEvac_mgmt (d : Dev) (n : Nat) (f : Evac → Evac) : (d.modEvac n f).mgmt = d.mgmt := rfl
@[simp] theorem Dev.modEvac_boot (d : Dev) (n : Nat) (f : Evac → Evac) : (d.modEvac n f).boot = d.boot := rfl
@[simp] theorem Dev.modEvac_csr (d : Dev) (n : Nat) (f : Evac → Evac) : (d.modEvac n f).csr = d.csr := rfl
@[simp] theorem Dev.modEvac_evt (d : Dev) (n : Nat) (f : Evac → Evac) : (d.modEvac n f).evt = d.evt := rfl
@[simp] theorem Dev.modEvac_rcv (d : Dev) (n : Nat) (f : Evac → Evac) : (d.modEvac n f).rcv = d.rcv := rfl
@[simp] theorem Dev.modEvac_ctr (d : Dev) (n : Nat) (f : Evac → Evac) : (d.modEvac n f).ctr = d.ctr := rfl
@[simp] theorem Dev.modEvac_sel (d : Dev) (n : Nat) (f : Evac → Evac) : (d.modEvac n f).sel = d.sel := rfl
@[simp] theorem Dev.modEvac_latch (d : Dev) (n : Nat) (f : Evac → Evac) : (d.modEvac n f).latch = d.latch := rfl
@[simp] theorem Dev.modEvac_freeIx (d : Dev) (n : Nat) (f : Evac → Evac) : (d.modEvac n f).freeIx = d.freeIx := rfl
@[simp] theorem Dev.modEvac_dt (d : Dev) (n : Nat) (f : Evac → Evac) : (d.modEvac n f).dt = d.dt := rfl
/-! modRx -/
@[simp] theorem Dev.modRx_rx_self (d : Dev) (n vc : Nat) (f : RxVc → RxVc) : (d.modRx n vc f).rx n vc = f (d.rx n vc) := tabGet_tabMod_self _ _ _ _
@[simp] theorem Dev.modRx_pin (d : Dev) (n vc : Nat) (f : RxVc → RxVc) : (d.modRx n vc f).pin = d.pin := rfl
@[simp] theorem Dev.modRx_clk (d : Dev) (n vc : Nat) (f : RxVc → RxVc) : (d.modRx n vc f).clk = d.clk := rfl
@[simp] theorem Dev.modRx_cfg (d : Dev) (n vc : Nat) (f : RxVc → RxVc) : (d.modRx n vc f).cfg = d.cfg := rfl
@[simp] theorem Dev.modRx_fault (d : Dev) (n vc : Nat) (f : RxVc → RxVc) : (d.modRx n vc f).fault = d.fault := rfl
@[simp] theorem Dev.modRx_mbox (d : Dev) (n vc : Nat) (f : RxVc → RxVc) : (d.modRx n vc f).mbox = d.mbox := rfl
@[simp] theorem Dev.modRx_telem (d : Dev) (n vc : Nat) (f : RxVc → RxVc) : (d.modRx n vc f).telem = d.telem := rfl
@[simp] theorem Dev.modRx_txn (d : Dev) (n vc : Nat) (f : RxVc → RxVc) : (d.modRx n vc f).txn = d.txn := rfl
@[simp] theorem Dev.modRx_mem (d : Dev) (n vc : Nat) (f : RxVc → RxVc) : (d.modRx n vc f).mem = d.mem := rfl
@[simp] theorem Dev.modRx_qm (d : Dev) (n vc : Nat) (f : RxVc → RxVc) : (d.modRx n vc f).qm = d.qm := rfl
@[simp] theorem Dev.modRx_sla (d : Dev) (n vc : Nat) (f : RxVc → RxVc) : (d.modRx n vc f).sla = d.sla := rfl
@[simp] theorem Dev.modRx_dram (d : Dev) (n vc : Nat) (f : RxVc → RxVc) : (d.modRx n vc f).dram = d.dram := rfl
@[simp] theorem Dev.modRx_ecc (d : Dev) (n vc : Nat) (f : RxVc → RxVc) : (d.modRx n vc f).ecc = d.ecc := rfl
@[simp] theorem Dev.modRx_reg (d : Dev) (n vc : Nat) (f : RxVc → RxVc) : (d.modRx n vc f).reg = d.reg := rfl
@[simp] theorem Dev.modRx_xfer (d : Dev) (n vc : Nat) (f : RxVc → RxVc) : (d.modRx n vc f).xfer = d.xfer := rfl
@[simp] theorem Dev.modRx_therm (d : Dev) (n vc : Nat) (f : RxVc → RxVc) : (d.modRx n vc f).therm = d.therm := rfl
@[simp] theorem Dev.modRx_graft (d : Dev) (n vc : Nat) (f : RxVc → RxVc) : (d.modRx n vc f).graft = d.graft := rfl
@[simp] theorem Dev.modRx_otp (d : Dev) (n vc : Nat) (f : RxVc → RxVc) : (d.modRx n vc f).otp = d.otp := rfl
@[simp] theorem Dev.modRx_mgmt (d : Dev) (n vc : Nat) (f : RxVc → RxVc) : (d.modRx n vc f).mgmt = d.mgmt := rfl
@[simp] theorem Dev.modRx_boot (d : Dev) (n vc : Nat) (f : RxVc → RxVc) : (d.modRx n vc f).boot = d.boot := rfl
@[simp] theorem Dev.modRx_csr (d : Dev) (n vc : Nat) (f : RxVc → RxVc) : (d.modRx n vc f).csr = d.csr := rfl
@[simp] theorem Dev.modRx_evt (d : Dev) (n vc : Nat) (f : RxVc → RxVc) : (d.modRx n vc f).evt = d.evt := rfl
@[simp] theorem Dev.modRx_rcv (d : Dev) (n vc : Nat) (f : RxVc → RxVc) : (d.modRx n vc f).rcv = d.rcv := rfl
@[simp] theorem Dev.modRx_ctr (d : Dev) (n vc : Nat) (f : RxVc → RxVc) : (d.modRx n vc f).ctr = d.ctr := rfl
@[simp] theorem Dev.modRx_sel (d : Dev) (n vc : Nat) (f : RxVc → RxVc) : (d.modRx n vc f).sel = d.sel := rfl
@[simp] theorem Dev.modRx_latch (d : Dev) (n vc : Nat) (f : RxVc → RxVc) : (d.modRx n vc f).latch = d.latch := rfl
@[simp] theorem Dev.modRx_freeIx (d : Dev) (n vc : Nat) (f : RxVc → RxVc) : (d.modRx n vc f).freeIx = d.freeIx := rfl
@[simp] theorem Dev.modRx_dt (d : Dev) (n vc : Nat) (f : RxVc → RxVc) : (d.modRx n vc f).dt = d.dt := rfl
@[simp] theorem Dev.modRx_link_lane (d : Dev) (n vc : Nat) (f : RxVc → RxVc) : (d.modRx n vc f).link.lane = d.link.lane := rfl
@[simp] theorem Dev.modRx_link_lin (d : Dev) (n vc : Nat) (f : RxVc → RxVc) : (d.modRx n vc f).link.lin = d.link.lin := rfl
@[simp] theorem Dev.modRx_link_lout (d : Dev) (n vc : Nat) (f : RxVc → RxVc) : (d.modRx n vc f).link.lout = d.link.lout := rfl
@[simp] theorem Dev.modRx_link_oct (d : Dev) (n vc : Nat) (f : RxVc → RxVc) : (d.modRx n vc f).link.oct = d.link.oct := rfl
@[simp] theorem Dev.modRx_link_port (d : Dev) (n vc : Nat) (f : RxVc → RxVc) : (d.modRx n vc f).link.port = d.link.port := rfl
@[simp] theorem Dev.modRx_link_tx (d : Dev) (n vc : Nat) (f : RxVc → RxVc) : (d.modRx n vc f).link.tx = d.link.tx := rfl
@[simp] theorem Dev.modRx_link_ptx (d : Dev) (n vc : Nat) (f : RxVc → RxVc) : (d.modRx n vc f).link.ptx = d.link.ptx := rfl
@[simp] theorem Dev.modRx_link_ptn (d : Dev) (n vc : Nat) (f : RxVc → RxVc) : (d.modRx n vc f).link.ptn = d.link.ptn := rfl
@[simp] theorem Dev.modRx_link_lastNo (d : Dev) (n vc : Nat) (f : RxVc → RxVc) : (d.modRx n vc f).link.lastNo = d.link.lastNo := rfl
/-! modTx -/
@[simp] theorem Dev.modTx_tx_self (d : Dev) (n vc : Nat) (f : TxVc → TxVc) : (d.modTx n vc f).tx n vc = f (d.tx n vc) := tabGet_tabMod_self _ _ _ _
@[simp] theorem Dev.modTx_pin (d : Dev) (n vc : Nat) (f : TxVc → TxVc) : (d.modTx n vc f).pin = d.pin := rfl
@[simp] theorem Dev.modTx_clk (d : Dev) (n vc : Nat) (f : TxVc → TxVc) : (d.modTx n vc f).clk = d.clk := rfl
@[simp] theorem Dev.modTx_cfg (d : Dev) (n vc : Nat) (f : TxVc → TxVc) : (d.modTx n vc f).cfg = d.cfg := rfl
@[simp] theorem Dev.modTx_fault (d : Dev) (n vc : Nat) (f : TxVc → TxVc) : (d.modTx n vc f).fault = d.fault := rfl
@[simp] theorem Dev.modTx_mbox (d : Dev) (n vc : Nat) (f : TxVc → TxVc) : (d.modTx n vc f).mbox = d.mbox := rfl
@[simp] theorem Dev.modTx_telem (d : Dev) (n vc : Nat) (f : TxVc → TxVc) : (d.modTx n vc f).telem = d.telem := rfl
@[simp] theorem Dev.modTx_txn (d : Dev) (n vc : Nat) (f : TxVc → TxVc) : (d.modTx n vc f).txn = d.txn := rfl
@[simp] theorem Dev.modTx_mem (d : Dev) (n vc : Nat) (f : TxVc → TxVc) : (d.modTx n vc f).mem = d.mem := rfl
@[simp] theorem Dev.modTx_qm (d : Dev) (n vc : Nat) (f : TxVc → TxVc) : (d.modTx n vc f).qm = d.qm := rfl
@[simp] theorem Dev.modTx_sla (d : Dev) (n vc : Nat) (f : TxVc → TxVc) : (d.modTx n vc f).sla = d.sla := rfl
@[simp] theorem Dev.modTx_dram (d : Dev) (n vc : Nat) (f : TxVc → TxVc) : (d.modTx n vc f).dram = d.dram := rfl
@[simp] theorem Dev.modTx_ecc (d : Dev) (n vc : Nat) (f : TxVc → TxVc) : (d.modTx n vc f).ecc = d.ecc := rfl
@[simp] theorem Dev.modTx_reg (d : Dev) (n vc : Nat) (f : TxVc → TxVc) : (d.modTx n vc f).reg = d.reg := rfl
@[simp] theorem Dev.modTx_xfer (d : Dev) (n vc : Nat) (f : TxVc → TxVc) : (d.modTx n vc f).xfer = d.xfer := rfl
@[simp] theorem Dev.modTx_therm (d : Dev) (n vc : Nat) (f : TxVc → TxVc) : (d.modTx n vc f).therm = d.therm := rfl
@[simp] theorem Dev.modTx_graft (d : Dev) (n vc : Nat) (f : TxVc → TxVc) : (d.modTx n vc f).graft = d.graft := rfl
@[simp] theorem Dev.modTx_otp (d : Dev) (n vc : Nat) (f : TxVc → TxVc) : (d.modTx n vc f).otp = d.otp := rfl
@[simp] theorem Dev.modTx_mgmt (d : Dev) (n vc : Nat) (f : TxVc → TxVc) : (d.modTx n vc f).mgmt = d.mgmt := rfl
@[simp] theorem Dev.modTx_boot (d : Dev) (n vc : Nat) (f : TxVc → TxVc) : (d.modTx n vc f).boot = d.boot := rfl
@[simp] theorem Dev.modTx_csr (d : Dev) (n vc : Nat) (f : TxVc → TxVc) : (d.modTx n vc f).csr = d.csr := rfl
@[simp] theorem Dev.modTx_evt (d : Dev) (n vc : Nat) (f : TxVc → TxVc) : (d.modTx n vc f).evt = d.evt := rfl
@[simp] theorem Dev.modTx_rcv (d : Dev) (n vc : Nat) (f : TxVc → TxVc) : (d.modTx n vc f).rcv = d.rcv := rfl
@[simp] theorem Dev.modTx_ctr (d : Dev) (n vc : Nat) (f : TxVc → TxVc) : (d.modTx n vc f).ctr = d.ctr := rfl
@[simp] theorem Dev.modTx_sel (d : Dev) (n vc : Nat) (f : TxVc → TxVc) : (d.modTx n vc f).sel = d.sel := rfl
@[simp] theorem Dev.modTx_latch (d : Dev) (n vc : Nat) (f : TxVc → TxVc) : (d.modTx n vc f).latch = d.latch := rfl
@[simp] theorem Dev.modTx_freeIx (d : Dev) (n vc : Nat) (f : TxVc → TxVc) : (d.modTx n vc f).freeIx = d.freeIx := rfl
@[simp] theorem Dev.modTx_dt (d : Dev) (n vc : Nat) (f : TxVc → TxVc) : (d.modTx n vc f).dt = d.dt := rfl
@[simp] theorem Dev.modTx_link_lane (d : Dev) (n vc : Nat) (f : TxVc → TxVc) : (d.modTx n vc f).link.lane = d.link.lane := rfl
@[simp] theorem Dev.modTx_link_lin (d : Dev) (n vc : Nat) (f : TxVc → TxVc) : (d.modTx n vc f).link.lin = d.link.lin := rfl
@[simp] theorem Dev.modTx_link_lout (d : Dev) (n vc : Nat) (f : TxVc → TxVc) : (d.modTx n vc f).link.lout = d.link.lout := rfl
@[simp] theorem Dev.modTx_link_oct (d : Dev) (n vc : Nat) (f : TxVc → TxVc) : (d.modTx n vc f).link.oct = d.link.oct := rfl
@[simp] theorem Dev.modTx_link_port (d : Dev) (n vc : Nat) (f : TxVc → TxVc) : (d.modTx n vc f).link.port = d.link.port := rfl
@[simp] theorem Dev.modTx_link_rx (d : Dev) (n vc : Nat) (f : TxVc → TxVc) : (d.modTx n vc f).link.rx = d.link.rx := rfl
@[simp] theorem Dev.modTx_link_ptx (d : Dev) (n vc : Nat) (f : TxVc → TxVc) : (d.modTx n vc f).link.ptx = d.link.ptx := rfl
@[simp] theorem Dev.modTx_link_ptn (d : Dev) (n vc : Nat) (f : TxVc → TxVc) : (d.modTx n vc f).link.ptn = d.link.ptn := rfl
@[simp] theorem Dev.modTx_link_lastNo (d : Dev) (n vc : Nat) (f : TxVc → TxVc) : (d.modTx n vc f).link.lastNo = d.link.lastNo := rfl
/-! modPair -/
@[simp] theorem Dev.modPair_pair_self (d : Dev) (o i : Nat) (f : Pair → Pair) : (d.modPair o i f).pair o i = f (d.pair o i) := tabGet_tabMod_self _ _ _ _
@[simp] theorem Dev.modPair_pin (d : Dev) (o i : Nat) (f : Pair → Pair) : (d.modPair o i f).pin = d.pin := rfl
@[simp] theorem Dev.modPair_clk (d : Dev) (o i : Nat) (f : Pair → Pair) : (d.modPair o i f).clk = d.clk := rfl
@[simp] theorem Dev.modPair_cfg (d : Dev) (o i : Nat) (f : Pair → Pair) : (d.modPair o i f).cfg = d.cfg := rfl
@[simp] theorem Dev.modPair_link (d : Dev) (o i : Nat) (f : Pair → Pair) : (d.modPair o i f).link = d.link := rfl
@[simp] theorem Dev.modPair_fault (d : Dev) (o i : Nat) (f : Pair → Pair) : (d.modPair o i f).fault = d.fault := rfl
@[simp] theorem Dev.modPair_telem (d : Dev) (o i : Nat) (f : Pair → Pair) : (d.modPair o i f).telem = d.telem := rfl
@[simp] theorem Dev.modPair_txn (d : Dev) (o i : Nat) (f : Pair → Pair) : (d.modPair o i f).txn = d.txn := rfl
@[simp] theorem Dev.modPair_mem (d : Dev) (o i : Nat) (f : Pair → Pair) : (d.modPair o i f).mem = d.mem := rfl
@[simp] theorem Dev.modPair_qm (d : Dev) (o i : Nat) (f : Pair → Pair) : (d.modPair o i f).qm = d.qm := rfl
@[simp] theorem Dev.modPair_sla (d : Dev) (o i : Nat) (f : Pair → Pair) : (d.modPair o i f).sla = d.sla := rfl
@[simp] theorem Dev.modPair_dram (d : Dev) (o i : Nat) (f : Pair → Pair) : (d.modPair o i f).dram = d.dram := rfl
@[simp] theorem Dev.modPair_ecc (d : Dev) (o i : Nat) (f : Pair → Pair) : (d.modPair o i f).ecc = d.ecc := rfl
@[simp] theorem Dev.modPair_reg (d : Dev) (o i : Nat) (f : Pair → Pair) : (d.modPair o i f).reg = d.reg := rfl
@[simp] theorem Dev.modPair_xfer (d : Dev) (o i : Nat) (f : Pair → Pair) : (d.modPair o i f).xfer = d.xfer := rfl
@[simp] theorem Dev.modPair_therm (d : Dev) (o i : Nat) (f : Pair → Pair) : (d.modPair o i f).therm = d.therm := rfl
@[simp] theorem Dev.modPair_graft (d : Dev) (o i : Nat) (f : Pair → Pair) : (d.modPair o i f).graft = d.graft := rfl
@[simp] theorem Dev.modPair_otp (d : Dev) (o i : Nat) (f : Pair → Pair) : (d.modPair o i f).otp = d.otp := rfl
@[simp] theorem Dev.modPair_mgmt (d : Dev) (o i : Nat) (f : Pair → Pair) : (d.modPair o i f).mgmt = d.mgmt := rfl
@[simp] theorem Dev.modPair_boot (d : Dev) (o i : Nat) (f : Pair → Pair) : (d.modPair o i f).boot = d.boot := rfl
@[simp] theorem Dev.modPair_csr (d : Dev) (o i : Nat) (f : Pair → Pair) : (d.modPair o i f).csr = d.csr := rfl
@[simp] theorem Dev.modPair_evt (d : Dev) (o i : Nat) (f : Pair → Pair) : (d.modPair o i f).evt = d.evt := rfl
@[simp] theorem Dev.modPair_rcv (d : Dev) (o i : Nat) (f : Pair → Pair) : (d.modPair o i f).rcv = d.rcv := rfl
@[simp] theorem Dev.modPair_ctr (d : Dev) (o i : Nat) (f : Pair → Pair) : (d.modPair o i f).ctr = d.ctr := rfl
@[simp] theorem Dev.modPair_sel (d : Dev) (o i : Nat) (f : Pair → Pair) : (d.modPair o i f).sel = d.sel := rfl
@[simp] theorem Dev.modPair_latch (d : Dev) (o i : Nat) (f : Pair → Pair) : (d.modPair o i f).latch = d.latch := rfl
@[simp] theorem Dev.modPair_freeIx (d : Dev) (o i : Nat) (f : Pair → Pair) : (d.modPair o i f).freeIx = d.freeIx := rfl
@[simp] theorem Dev.modPair_dt (d : Dev) (o i : Nat) (f : Pair → Pair) : (d.modPair o i f).dt = d.dt := rfl
/-! modBank -/
@[simp] theorem Dev.modBank_bank_self (d : Dev) (c b : Nat) (f : Bank → Bank) : (d.modBank c b f).bank c b = f (d.bank c b) := tabGet_tabMod_self _ _ _ _
@[simp] theorem Dev.modBank_pin (d : Dev) (c b : Nat) (f : Bank → Bank) : (d.modBank c b f).pin = d.pin := rfl
@[simp] theorem Dev.modBank_clk (d : Dev) (c b : Nat) (f : Bank → Bank) : (d.modBank c b f).clk = d.clk := rfl
@[simp] theorem Dev.modBank_cfg (d : Dev) (c b : Nat) (f : Bank → Bank) : (d.modBank c b f).cfg = d.cfg := rfl
@[simp] theorem Dev.modBank_link (d : Dev) (c b : Nat) (f : Bank → Bank) : (d.modBank c b f).link = d.link := rfl
@[simp] theorem Dev.modBank_fault (d : Dev) (c b : Nat) (f : Bank → Bank) : (d.modBank c b f).fault = d.fault := rfl
@[simp] theorem Dev.modBank_mbox (d : Dev) (c b : Nat) (f : Bank → Bank) : (d.modBank c b f).mbox = d.mbox := rfl
@[simp] theorem Dev.modBank_telem (d : Dev) (c b : Nat) (f : Bank → Bank) : (d.modBank c b f).telem = d.telem := rfl
@[simp] theorem Dev.modBank_txn (d : Dev) (c b : Nat) (f : Bank → Bank) : (d.modBank c b f).txn = d.txn := rfl
@[simp] theorem Dev.modBank_mem (d : Dev) (c b : Nat) (f : Bank → Bank) : (d.modBank c b f).mem = d.mem := rfl
@[simp] theorem Dev.modBank_qm (d : Dev) (c b : Nat) (f : Bank → Bank) : (d.modBank c b f).qm = d.qm := rfl
@[simp] theorem Dev.modBank_sla (d : Dev) (c b : Nat) (f : Bank → Bank) : (d.modBank c b f).sla = d.sla := rfl
@[simp] theorem Dev.modBank_ecc (d : Dev) (c b : Nat) (f : Bank → Bank) : (d.modBank c b f).ecc = d.ecc := rfl
@[simp] theorem Dev.modBank_reg (d : Dev) (c b : Nat) (f : Bank → Bank) : (d.modBank c b f).reg = d.reg := rfl
@[simp] theorem Dev.modBank_xfer (d : Dev) (c b : Nat) (f : Bank → Bank) : (d.modBank c b f).xfer = d.xfer := rfl
@[simp] theorem Dev.modBank_therm (d : Dev) (c b : Nat) (f : Bank → Bank) : (d.modBank c b f).therm = d.therm := rfl
@[simp] theorem Dev.modBank_graft (d : Dev) (c b : Nat) (f : Bank → Bank) : (d.modBank c b f).graft = d.graft := rfl
@[simp] theorem Dev.modBank_otp (d : Dev) (c b : Nat) (f : Bank → Bank) : (d.modBank c b f).otp = d.otp := rfl
@[simp] theorem Dev.modBank_mgmt (d : Dev) (c b : Nat) (f : Bank → Bank) : (d.modBank c b f).mgmt = d.mgmt := rfl
@[simp] theorem Dev.modBank_boot (d : Dev) (c b : Nat) (f : Bank → Bank) : (d.modBank c b f).boot = d.boot := rfl
@[simp] theorem Dev.modBank_csr (d : Dev) (c b : Nat) (f : Bank → Bank) : (d.modBank c b f).csr = d.csr := rfl
@[simp] theorem Dev.modBank_evt (d : Dev) (c b : Nat) (f : Bank → Bank) : (d.modBank c b f).evt = d.evt := rfl
@[simp] theorem Dev.modBank_rcv (d : Dev) (c b : Nat) (f : Bank → Bank) : (d.modBank c b f).rcv = d.rcv := rfl
@[simp] theorem Dev.modBank_ctr (d : Dev) (c b : Nat) (f : Bank → Bank) : (d.modBank c b f).ctr = d.ctr := rfl
@[simp] theorem Dev.modBank_sel (d : Dev) (c b : Nat) (f : Bank → Bank) : (d.modBank c b f).sel = d.sel := rfl
@[simp] theorem Dev.modBank_latch (d : Dev) (c b : Nat) (f : Bank → Bank) : (d.modBank c b f).latch = d.latch := rfl
@[simp] theorem Dev.modBank_freeIx (d : Dev) (c b : Nat) (f : Bank → Bank) : (d.modBank c b f).freeIx = d.freeIx := rfl
@[simp] theorem Dev.modBank_dt (d : Dev) (c b : Nat) (f : Bank → Bank) : (d.modBank c b f).dt = d.dt := rfl
/-! modVlink -/
@[simp] theorem Dev.modVlink_vlink_self (d : Dev) (c i : Nat) (f : VLink → VLink) : (d.modVlink c i f).vlink c i = f (d.vlink c i) := tabGet_tabMod_self _ _ _ _
@[simp] theorem Dev.modVlink_pin (d : Dev) (c i : Nat) (f : VLink → VLink) : (d.modVlink c i f).pin = d.pin := rfl
@[simp] theorem Dev.modVlink_clk (d : Dev) (c i : Nat) (f : VLink → VLink) : (d.modVlink c i f).clk = d.clk := rfl
@[simp] theorem Dev.modVlink_cfg (d : Dev) (c i : Nat) (f : VLink → VLink) : (d.modVlink c i f).cfg = d.cfg := rfl
@[simp] theorem Dev.modVlink_link (d : Dev) (c i : Nat) (f : VLink → VLink) : (d.modVlink c i f).link = d.link := rfl
@[simp] theorem Dev.modVlink_fault (d : Dev) (c i : Nat) (f : VLink → VLink) : (d.modVlink c i f).fault = d.fault := rfl
@[simp] theorem Dev.modVlink_mbox (d : Dev) (c i : Nat) (f : VLink → VLink) : (d.modVlink c i f).mbox = d.mbox := rfl
@[simp] theorem Dev.modVlink_telem (d : Dev) (c i : Nat) (f : VLink → VLink) : (d.modVlink c i f).telem = d.telem := rfl
@[simp] theorem Dev.modVlink_txn (d : Dev) (c i : Nat) (f : VLink → VLink) : (d.modVlink c i f).txn = d.txn := rfl
@[simp] theorem Dev.modVlink_mem (d : Dev) (c i : Nat) (f : VLink → VLink) : (d.modVlink c i f).mem = d.mem := rfl
@[simp] theorem Dev.modVlink_qm (d : Dev) (c i : Nat) (f : VLink → VLink) : (d.modVlink c i f).qm = d.qm := rfl
@[simp] theorem Dev.modVlink_sla (d : Dev) (c i : Nat) (f : VLink → VLink) : (d.modVlink c i f).sla = d.sla := rfl
@[simp] theorem Dev.modVlink_ecc (d : Dev) (c i : Nat) (f : VLink → VLink) : (d.modVlink c i f).ecc = d.ecc := rfl
@[simp] theorem Dev.modVlink_reg (d : Dev) (c i : Nat) (f : VLink → VLink) : (d.modVlink c i f).reg = d.reg := rfl
@[simp] theorem Dev.modVlink_xfer (d : Dev) (c i : Nat) (f : VLink → VLink) : (d.modVlink c i f).xfer = d.xfer := rfl
@[simp] theorem Dev.modVlink_therm (d : Dev) (c i : Nat) (f : VLink → VLink) : (d.modVlink c i f).therm = d.therm := rfl
@[simp] theorem Dev.modVlink_graft (d : Dev) (c i : Nat) (f : VLink → VLink) : (d.modVlink c i f).graft = d.graft := rfl
@[simp] theorem Dev.modVlink_otp (d : Dev) (c i : Nat) (f : VLink → VLink) : (d.modVlink c i f).otp = d.otp := rfl
@[simp] theorem Dev.modVlink_mgmt (d : Dev) (c i : Nat) (f : VLink → VLink) : (d.modVlink c i f).mgmt = d.mgmt := rfl
@[simp] theorem Dev.modVlink_boot (d : Dev) (c i : Nat) (f : VLink → VLink) : (d.modVlink c i f).boot = d.boot := rfl
@[simp] theorem Dev.modVlink_csr (d : Dev) (c i : Nat) (f : VLink → VLink) : (d.modVlink c i f).csr = d.csr := rfl
@[simp] theorem Dev.modVlink_evt (d : Dev) (c i : Nat) (f : VLink → VLink) : (d.modVlink c i f).evt = d.evt := rfl
@[simp] theorem Dev.modVlink_rcv (d : Dev) (c i : Nat) (f : VLink → VLink) : (d.modVlink c i f).rcv = d.rcv := rfl
@[simp] theorem Dev.modVlink_ctr (d : Dev) (c i : Nat) (f : VLink → VLink) : (d.modVlink c i f).ctr = d.ctr := rfl
@[simp] theorem Dev.modVlink_sel (d : Dev) (c i : Nat) (f : VLink → VLink) : (d.modVlink c i f).sel = d.sel := rfl
@[simp] theorem Dev.modVlink_latch (d : Dev) (c i : Nat) (f : VLink → VLink) : (d.modVlink c i f).latch = d.latch := rfl
@[simp] theorem Dev.modVlink_freeIx (d : Dev) (c i : Nat) (f : VLink → VLink) : (d.modVlink c i f).freeIx = d.freeIx := rfl
@[simp] theorem Dev.modVlink_dt (d : Dev) (c i : Nat) (f : VLink → VLink) : (d.modVlink c i f).dt = d.dt := rfl
/-! Registers, counters, telemetry, free values -/
@[simp] theorem Dev.setCsr_pin (d : Dev) (i b o : Nat) (v : Word) : (d.setCsr i b o v).pin = d.pin := rfl
@[simp] theorem Dev.setCsr_clk (d : Dev) (i b o : Nat) (v : Word) : (d.setCsr i b o v).clk = d.clk := rfl
@[simp] theorem Dev.setCsr_cfg (d : Dev) (i b o : Nat) (v : Word) : (d.setCsr i b o v).cfg = d.cfg := rfl
@[simp] theorem Dev.setCsr_link (d : Dev) (i b o : Nat) (v : Word) : (d.setCsr i b o v).link = d.link := rfl
@[simp] theorem Dev.setCsr_fault (d : Dev) (i b o : Nat) (v : Word) : (d.setCsr i b o v).fault = d.fault := rfl
@[simp] theorem Dev.setCsr_mbox (d : Dev) (i b o : Nat) (v : Word) : (d.setCsr i b o v).mbox = d.mbox := rfl
@[simp] theorem Dev.setCsr_telem (d : Dev) (i b o : Nat) (v : Word) : (d.setCsr i b o v).telem = d.telem := rfl
@[simp] theorem Dev.setCsr_txn (d : Dev) (i b o : Nat) (v : Word) : (d.setCsr i b o v).txn = d.txn := rfl
@[simp] theorem Dev.setCsr_mem (d : Dev) (i b o : Nat) (v : Word) : (d.setCsr i b o v).mem = d.mem := rfl
@[simp] theorem Dev.setCsr_qm (d : Dev) (i b o : Nat) (v : Word) : (d.setCsr i b o v).qm = d.qm := rfl
@[simp] theorem Dev.setCsr_sla (d : Dev) (i b o : Nat) (v : Word) : (d.setCsr i b o v).sla = d.sla := rfl
@[simp] theorem Dev.setCsr_dram (d : Dev) (i b o : Nat) (v : Word) : (d.setCsr i b o v).dram = d.dram := rfl
@[simp] theorem Dev.setCsr_ecc (d : Dev) (i b o : Nat) (v : Word) : (d.setCsr i b o v).ecc = d.ecc := rfl
@[simp] theorem Dev.setCsr_reg (d : Dev) (i b o : Nat) (v : Word) : (d.setCsr i b o v).reg = d.reg := rfl
@[simp] theorem Dev.setCsr_xfer (d : Dev) (i b o : Nat) (v : Word) : (d.setCsr i b o v).xfer = d.xfer := rfl
@[simp] theorem Dev.setCsr_therm (d : Dev) (i b o : Nat) (v : Word) : (d.setCsr i b o v).therm = d.therm := rfl
@[simp] theorem Dev.setCsr_graft (d : Dev) (i b o : Nat) (v : Word) : (d.setCsr i b o v).graft = d.graft := rfl
@[simp] theorem Dev.setCsr_otp (d : Dev) (i b o : Nat) (v : Word) : (d.setCsr i b o v).otp = d.otp := rfl
@[simp] theorem Dev.setCsr_mgmt (d : Dev) (i b o : Nat) (v : Word) : (d.setCsr i b o v).mgmt = d.mgmt := rfl
@[simp] theorem Dev.setCsr_boot (d : Dev) (i b o : Nat) (v : Word) : (d.setCsr i b o v).boot = d.boot := rfl
@[simp] theorem Dev.setCsr_evt (d : Dev) (i b o : Nat) (v : Word) : (d.setCsr i b o v).evt = d.evt := rfl
@[simp] theorem Dev.setCsr_rcv (d : Dev) (i b o : Nat) (v : Word) : (d.setCsr i b o v).rcv = d.rcv := rfl
@[simp] theorem Dev.setCsr_ctr (d : Dev) (i b o : Nat) (v : Word) : (d.setCsr i b o v).ctr = d.ctr := rfl
@[simp] theorem Dev.setCsr_sel (d : Dev) (i b o : Nat) (v : Word) : (d.setCsr i b o v).sel = d.sel := rfl
@[simp] theorem Dev.setCsr_latch (d : Dev) (i b o : Nat) (v : Word) : (d.setCsr i b o v).latch = d.latch := rfl
@[simp] theorem Dev.setCsr_freeIx (d : Dev) (i b o : Nat) (v : Word) : (d.setCsr i b o v).freeIx = d.freeIx := rfl
@[simp] theorem Dev.setCsr_dt (d : Dev) (i b o : Nat) (v : Word) : (d.setCsr i b o v).dt = d.dt := rfl
@[simp] theorem Dev.evtNote_pin (d : Dev) (i b o m : Nat) : (d.evtNote i b o m).pin = d.pin := rfl
@[simp] theorem Dev.evtNote_clk (d : Dev) (i b o m : Nat) : (d.evtNote i b o m).clk = d.clk := rfl
@[simp] theorem Dev.evtNote_cfg (d : Dev) (i b o m : Nat) : (d.evtNote i b o m).cfg = d.cfg := rfl
@[simp] theorem Dev.evtNote_link (d : Dev) (i b o m : Nat) : (d.evtNote i b o m).link = d.link := rfl
@[simp] theorem Dev.evtNote_fault (d : Dev) (i b o m : Nat) : (d.evtNote i b o m).fault = d.fault := rfl
@[simp] theorem Dev.evtNote_mbox (d : Dev) (i b o m : Nat) : (d.evtNote i b o m).mbox = d.mbox := rfl
@[simp] theorem Dev.evtNote_telem (d : Dev) (i b o m : Nat) : (d.evtNote i b o m).telem = d.telem := rfl
@[simp] theorem Dev.evtNote_txn (d : Dev) (i b o m : Nat) : (d.evtNote i b o m).txn = d.txn := rfl
@[simp] theorem Dev.evtNote_mem (d : Dev) (i b o m : Nat) : (d.evtNote i b o m).mem = d.mem := rfl
@[simp] theorem Dev.evtNote_qm (d : Dev) (i b o m : Nat) : (d.evtNote i b o m).qm = d.qm := rfl
@[simp] theorem Dev.evtNote_sla (d : Dev) (i b o m : Nat) : (d.evtNote i b o m).sla = d.sla := rfl
@[simp] theorem Dev.evtNote_dram (d : Dev) (i b o m : Nat) : (d.evtNote i b o m).dram = d.dram := rfl
@[simp] theorem Dev.evtNote_ecc (d : Dev) (i b o m : Nat) : (d.evtNote i b o m).ecc = d.ecc := rfl
@[simp] theorem Dev.evtNote_reg (d : Dev) (i b o m : Nat) : (d.evtNote i b o m).reg = d.reg := rfl
@[simp] theorem Dev.evtNote_xfer (d : Dev) (i b o m : Nat) : (d.evtNote i b o m).xfer = d.xfer := rfl
@[simp] theorem Dev.evtNote_therm (d : Dev) (i b o m : Nat) : (d.evtNote i b o m).therm = d.therm := rfl
@[simp] theorem Dev.evtNote_graft (d : Dev) (i b o m : Nat) : (d.evtNote i b o m).graft = d.graft := rfl
@[simp] theorem Dev.evtNote_otp (d : Dev) (i b o m : Nat) : (d.evtNote i b o m).otp = d.otp := rfl
@[simp] theorem Dev.evtNote_mgmt (d : Dev) (i b o m : Nat) : (d.evtNote i b o m).mgmt = d.mgmt := rfl
@[simp] theorem Dev.evtNote_boot (d : Dev) (i b o m : Nat) : (d.evtNote i b o m).boot = d.boot := rfl
@[simp] theorem Dev.evtNote_csr (d : Dev) (i b o m : Nat) : (d.evtNote i b o m).csr = d.csr := rfl
@[simp] theorem Dev.evtNote_rcv (d : Dev) (i b o m : Nat) : (d.evtNote i b o m).rcv = d.rcv := rfl
@[simp] theorem Dev.evtNote_ctr (d : Dev) (i b o m : Nat) : (d.evtNote i b o m).ctr = d.ctr := rfl
@[simp] theorem Dev.evtNote_sel (d : Dev) (i b o m : Nat) : (d.evtNote i b o m).sel = d.sel := rfl
@[simp] theorem Dev.evtNote_latch (d : Dev) (i b o m : Nat) : (d.evtNote i b o m).latch = d.latch := rfl
@[simp] theorem Dev.evtNote_freeIx (d : Dev) (i b o m : Nat) : (d.evtNote i b o m).freeIx = d.freeIx := rfl
@[simp] theorem Dev.evtNote_dt (d : Dev) (i b o m : Nat) : (d.evtNote i b o m).dt = d.dt := rfl
@[simp] theorem Dev.rcNote_pin (d : Dev) (i b o v : Nat) (f : Nat → Nat) : (d.rcNote i b o v f).pin = d.pin := rfl
@[simp] theorem Dev.rcNote_clk (d : Dev) (i b o v : Nat) (f : Nat → Nat) : (d.rcNote i b o v f).clk = d.clk := rfl
@[simp] theorem Dev.rcNote_cfg (d : Dev) (i b o v : Nat) (f : Nat → Nat) : (d.rcNote i b o v f).cfg = d.cfg := rfl
@[simp] theorem Dev.rcNote_link (d : Dev) (i b o v : Nat) (f : Nat → Nat) : (d.rcNote i b o v f).link = d.link := rfl
@[simp] theorem Dev.rcNote_fault (d : Dev) (i b o v : Nat) (f : Nat → Nat) : (d.rcNote i b o v f).fault = d.fault := rfl
@[simp] theorem Dev.rcNote_mbox (d : Dev) (i b o v : Nat) (f : Nat → Nat) : (d.rcNote i b o v f).mbox = d.mbox := rfl
@[simp] theorem Dev.rcNote_telem (d : Dev) (i b o v : Nat) (f : Nat → Nat) : (d.rcNote i b o v f).telem = d.telem := rfl
@[simp] theorem Dev.rcNote_txn (d : Dev) (i b o v : Nat) (f : Nat → Nat) : (d.rcNote i b o v f).txn = d.txn := rfl
@[simp] theorem Dev.rcNote_mem (d : Dev) (i b o v : Nat) (f : Nat → Nat) : (d.rcNote i b o v f).mem = d.mem := rfl
@[simp] theorem Dev.rcNote_qm (d : Dev) (i b o v : Nat) (f : Nat → Nat) : (d.rcNote i b o v f).qm = d.qm := rfl
@[simp] theorem Dev.rcNote_sla (d : Dev) (i b o v : Nat) (f : Nat → Nat) : (d.rcNote i b o v f).sla = d.sla := rfl
@[simp] theorem Dev.rcNote_dram (d : Dev) (i b o v : Nat) (f : Nat → Nat) : (d.rcNote i b o v f).dram = d.dram := rfl
@[simp] theorem Dev.rcNote_ecc (d : Dev) (i b o v : Nat) (f : Nat → Nat) : (d.rcNote i b o v f).ecc = d.ecc := rfl
@[simp] theorem Dev.rcNote_reg (d : Dev) (i b o v : Nat) (f : Nat → Nat) : (d.rcNote i b o v f).reg = d.reg := rfl
@[simp] theorem Dev.rcNote_xfer (d : Dev) (i b o v : Nat) (f : Nat → Nat) : (d.rcNote i b o v f).xfer = d.xfer := rfl
@[simp] theorem Dev.rcNote_therm (d : Dev) (i b o v : Nat) (f : Nat → Nat) : (d.rcNote i b o v f).therm = d.therm := rfl
@[simp] theorem Dev.rcNote_graft (d : Dev) (i b o v : Nat) (f : Nat → Nat) : (d.rcNote i b o v f).graft = d.graft := rfl
@[simp] theorem Dev.rcNote_otp (d : Dev) (i b o v : Nat) (f : Nat → Nat) : (d.rcNote i b o v f).otp = d.otp := rfl
@[simp] theorem Dev.rcNote_mgmt (d : Dev) (i b o v : Nat) (f : Nat → Nat) : (d.rcNote i b o v f).mgmt = d.mgmt := rfl
@[simp] theorem Dev.rcNote_boot (d : Dev) (i b o v : Nat) (f : Nat → Nat) : (d.rcNote i b o v f).boot = d.boot := rfl
@[simp] theorem Dev.rcNote_csr (d : Dev) (i b o v : Nat) (f : Nat → Nat) : (d.rcNote i b o v f).csr = d.csr := rfl
@[simp] theorem Dev.rcNote_evt (d : Dev) (i b o v : Nat) (f : Nat → Nat) : (d.rcNote i b o v f).evt = d.evt := rfl
@[simp] theorem Dev.rcNote_ctr (d : Dev) (i b o v : Nat) (f : Nat → Nat) : (d.rcNote i b o v f).ctr = d.ctr := rfl
@[simp] theorem Dev.rcNote_sel (d : Dev) (i b o v : Nat) (f : Nat → Nat) : (d.rcNote i b o v f).sel = d.sel := rfl
@[simp] theorem Dev.rcNote_latch (d : Dev) (i b o v : Nat) (f : Nat → Nat) : (d.rcNote i b o v f).latch = d.latch := rfl
@[simp] theorem Dev.rcNote_freeIx (d : Dev) (i b o v : Nat) (f : Nat → Nat) : (d.rcNote i b o v f).freeIx = d.freeIx := rfl
@[simp] theorem Dev.rcNote_dt (d : Dev) (i b o v : Nat) (f : Nat → Nat) : (d.rcNote i b o v f).dt = d.dt := rfl
@[simp] theorem Dev.orCsr_pin (d : Dev) (i b o m : Nat) : (d.orCsr i b o m).pin = d.pin := rfl
@[simp] theorem Dev.orCsr_clk (d : Dev) (i b o m : Nat) : (d.orCsr i b o m).clk = d.clk := rfl
@[simp] theorem Dev.orCsr_cfg (d : Dev) (i b o m : Nat) : (d.orCsr i b o m).cfg = d.cfg := rfl
@[simp] theorem Dev.orCsr_link (d : Dev) (i b o m : Nat) : (d.orCsr i b o m).link = d.link := rfl
@[simp] theorem Dev.orCsr_fault (d : Dev) (i b o m : Nat) : (d.orCsr i b o m).fault = d.fault := rfl
@[simp] theorem Dev.orCsr_mbox (d : Dev) (i b o m : Nat) : (d.orCsr i b o m).mbox = d.mbox := rfl
@[simp] theorem Dev.orCsr_telem (d : Dev) (i b o m : Nat) : (d.orCsr i b o m).telem = d.telem := rfl
@[simp] theorem Dev.orCsr_txn (d : Dev) (i b o m : Nat) : (d.orCsr i b o m).txn = d.txn := rfl
@[simp] theorem Dev.orCsr_mem (d : Dev) (i b o m : Nat) : (d.orCsr i b o m).mem = d.mem := rfl
@[simp] theorem Dev.orCsr_qm (d : Dev) (i b o m : Nat) : (d.orCsr i b o m).qm = d.qm := rfl
@[simp] theorem Dev.orCsr_sla (d : Dev) (i b o m : Nat) : (d.orCsr i b o m).sla = d.sla := rfl
@[simp] theorem Dev.orCsr_dram (d : Dev) (i b o m : Nat) : (d.orCsr i b o m).dram = d.dram := rfl
@[simp] theorem Dev.orCsr_ecc (d : Dev) (i b o m : Nat) : (d.orCsr i b o m).ecc = d.ecc := rfl
@[simp] theorem Dev.orCsr_reg (d : Dev) (i b o m : Nat) : (d.orCsr i b o m).reg = d.reg := rfl
@[simp] theorem Dev.orCsr_xfer (d : Dev) (i b o m : Nat) : (d.orCsr i b o m).xfer = d.xfer := rfl
@[simp] theorem Dev.orCsr_therm (d : Dev) (i b o m : Nat) : (d.orCsr i b o m).therm = d.therm := rfl
@[simp] theorem Dev.orCsr_graft (d : Dev) (i b o m : Nat) : (d.orCsr i b o m).graft = d.graft := rfl
@[simp] theorem Dev.orCsr_otp (d : Dev) (i b o m : Nat) : (d.orCsr i b o m).otp = d.otp := rfl
@[simp] theorem Dev.orCsr_mgmt (d : Dev) (i b o m : Nat) : (d.orCsr i b o m).mgmt = d.mgmt := rfl
@[simp] theorem Dev.orCsr_boot (d : Dev) (i b o m : Nat) : (d.orCsr i b o m).boot = d.boot := rfl
@[simp] theorem Dev.orCsr_rcv (d : Dev) (i b o m : Nat) : (d.orCsr i b o m).rcv = d.rcv := rfl
@[simp] theorem Dev.orCsr_ctr (d : Dev) (i b o m : Nat) : (d.orCsr i b o m).ctr = d.ctr := rfl
@[simp] theorem Dev.orCsr_sel (d : Dev) (i b o m : Nat) : (d.orCsr i b o m).sel = d.sel := rfl
@[simp] theorem Dev.orCsr_latch (d : Dev) (i b o m : Nat) : (d.orCsr i b o m).latch = d.latch := rfl
@[simp] theorem Dev.orCsr_freeIx (d : Dev) (i b o m : Nat) : (d.orCsr i b o m).freeIx = d.freeIx := rfl
@[simp] theorem Dev.orCsr_dt (d : Dev) (i b o m : Nat) : (d.orCsr i b o m).dt = d.dt := rfl
@[simp] theorem Dev.bump_pin (d : Dev) (i b o n : Nat) : (d.bump i b o n).pin = d.pin := rfl
@[simp] theorem Dev.bump_clk (d : Dev) (i b o n : Nat) : (d.bump i b o n).clk = d.clk := rfl
@[simp] theorem Dev.bump_cfg (d : Dev) (i b o n : Nat) : (d.bump i b o n).cfg = d.cfg := rfl
@[simp] theorem Dev.bump_link (d : Dev) (i b o n : Nat) : (d.bump i b o n).link = d.link := rfl
@[simp] theorem Dev.bump_fault (d : Dev) (i b o n : Nat) : (d.bump i b o n).fault = d.fault := rfl
@[simp] theorem Dev.bump_mbox (d : Dev) (i b o n : Nat) : (d.bump i b o n).mbox = d.mbox := rfl
@[simp] theorem Dev.bump_telem (d : Dev) (i b o n : Nat) : (d.bump i b o n).telem = d.telem := rfl
@[simp] theorem Dev.bump_txn (d : Dev) (i b o n : Nat) : (d.bump i b o n).txn = d.txn := rfl
@[simp] theorem Dev.bump_mem (d : Dev) (i b o n : Nat) : (d.bump i b o n).mem = d.mem := rfl
@[simp] theorem Dev.bump_qm (d : Dev) (i b o n : Nat) : (d.bump i b o n).qm = d.qm := rfl
@[simp] theorem Dev.bump_sla (d : Dev) (i b o n : Nat) : (d.bump i b o n).sla = d.sla := rfl
@[simp] theorem Dev.bump_dram (d : Dev) (i b o n : Nat) : (d.bump i b o n).dram = d.dram := rfl
@[simp] theorem Dev.bump_ecc (d : Dev) (i b o n : Nat) : (d.bump i b o n).ecc = d.ecc := rfl
@[simp] theorem Dev.bump_reg (d : Dev) (i b o n : Nat) : (d.bump i b o n).reg = d.reg := rfl
@[simp] theorem Dev.bump_xfer (d : Dev) (i b o n : Nat) : (d.bump i b o n).xfer = d.xfer := rfl
@[simp] theorem Dev.bump_therm (d : Dev) (i b o n : Nat) : (d.bump i b o n).therm = d.therm := rfl
@[simp] theorem Dev.bump_graft (d : Dev) (i b o n : Nat) : (d.bump i b o n).graft = d.graft := rfl
@[simp] theorem Dev.bump_otp (d : Dev) (i b o n : Nat) : (d.bump i b o n).otp = d.otp := rfl
@[simp] theorem Dev.bump_mgmt (d : Dev) (i b o n : Nat) : (d.bump i b o n).mgmt = d.mgmt := rfl
@[simp] theorem Dev.bump_boot (d : Dev) (i b o n : Nat) : (d.bump i b o n).boot = d.boot := rfl
@[simp] theorem Dev.bump_csr (d : Dev) (i b o n : Nat) : (d.bump i b o n).csr = d.csr := rfl
@[simp] theorem Dev.bump_evt (d : Dev) (i b o n : Nat) : (d.bump i b o n).evt = d.evt := rfl
@[simp] theorem Dev.bump_rcv (d : Dev) (i b o n : Nat) : (d.bump i b o n).rcv = d.rcv := rfl
@[simp] theorem Dev.bump_sel (d : Dev) (i b o n : Nat) : (d.bump i b o n).sel = d.sel := rfl
@[simp] theorem Dev.bump_latch (d : Dev) (i b o n : Nat) : (d.bump i b o n).latch = d.latch := rfl
@[simp] theorem Dev.bump_freeIx (d : Dev) (i b o n : Nat) : (d.bump i b o n).freeIx = d.freeIx := rfl
@[simp] theorem Dev.bump_dt (d : Dev) (i b o n : Nat) : (d.bump i b o n).dt = d.dt := rfl
@[simp] theorem Dev.tele_pin (d : Dev) (k : Nat) (bs : List Byte) : (d.tele k bs).pin = d.pin := rfl
@[simp] theorem Dev.tele_clk (d : Dev) (k : Nat) (bs : List Byte) : (d.tele k bs).clk = d.clk := rfl
@[simp] theorem Dev.tele_cfg (d : Dev) (k : Nat) (bs : List Byte) : (d.tele k bs).cfg = d.cfg := rfl
@[simp] theorem Dev.tele_link (d : Dev) (k : Nat) (bs : List Byte) : (d.tele k bs).link = d.link := rfl
@[simp] theorem Dev.tele_fault (d : Dev) (k : Nat) (bs : List Byte) : (d.tele k bs).fault = d.fault := rfl
@[simp] theorem Dev.tele_mbox (d : Dev) (k : Nat) (bs : List Byte) : (d.tele k bs).mbox = d.mbox := rfl
@[simp] theorem Dev.tele_txn (d : Dev) (k : Nat) (bs : List Byte) : (d.tele k bs).txn = d.txn := rfl
@[simp] theorem Dev.tele_mem (d : Dev) (k : Nat) (bs : List Byte) : (d.tele k bs).mem = d.mem := rfl
@[simp] theorem Dev.tele_qm (d : Dev) (k : Nat) (bs : List Byte) : (d.tele k bs).qm = d.qm := rfl
@[simp] theorem Dev.tele_sla (d : Dev) (k : Nat) (bs : List Byte) : (d.tele k bs).sla = d.sla := rfl
@[simp] theorem Dev.tele_dram (d : Dev) (k : Nat) (bs : List Byte) : (d.tele k bs).dram = d.dram := rfl
@[simp] theorem Dev.tele_ecc (d : Dev) (k : Nat) (bs : List Byte) : (d.tele k bs).ecc = d.ecc := rfl
@[simp] theorem Dev.tele_reg (d : Dev) (k : Nat) (bs : List Byte) : (d.tele k bs).reg = d.reg := rfl
@[simp] theorem Dev.tele_xfer (d : Dev) (k : Nat) (bs : List Byte) : (d.tele k bs).xfer = d.xfer := rfl
@[simp] theorem Dev.tele_therm (d : Dev) (k : Nat) (bs : List Byte) : (d.tele k bs).therm = d.therm := rfl
@[simp] theorem Dev.tele_graft (d : Dev) (k : Nat) (bs : List Byte) : (d.tele k bs).graft = d.graft := rfl
@[simp] theorem Dev.tele_otp (d : Dev) (k : Nat) (bs : List Byte) : (d.tele k bs).otp = d.otp := rfl
@[simp] theorem Dev.tele_mgmt (d : Dev) (k : Nat) (bs : List Byte) : (d.tele k bs).mgmt = d.mgmt := rfl
@[simp] theorem Dev.tele_boot (d : Dev) (k : Nat) (bs : List Byte) : (d.tele k bs).boot = d.boot := rfl
@[simp] theorem Dev.tele_csr (d : Dev) (k : Nat) (bs : List Byte) : (d.tele k bs).csr = d.csr := rfl
@[simp] theorem Dev.tele_evt (d : Dev) (k : Nat) (bs : List Byte) : (d.tele k bs).evt = d.evt := rfl
@[simp] theorem Dev.tele_rcv (d : Dev) (k : Nat) (bs : List Byte) : (d.tele k bs).rcv = d.rcv := rfl
@[simp] theorem Dev.tele_ctr (d : Dev) (k : Nat) (bs : List Byte) : (d.tele k bs).ctr = d.ctr := rfl
@[simp] theorem Dev.tele_sel (d : Dev) (k : Nat) (bs : List Byte) : (d.tele k bs).sel = d.sel := rfl
@[simp] theorem Dev.tele_latch (d : Dev) (k : Nat) (bs : List Byte) : (d.tele k bs).latch = d.latch := rfl
@[simp] theorem Dev.tele_freeIx (d : Dev) (k : Nat) (bs : List Byte) : (d.tele k bs).freeIx = d.freeIx := rfl
@[simp] theorem Dev.tele_dt (d : Dev) (k : Nat) (bs : List Byte) : (d.tele k bs).dt = d.dt := rfl
@[simp] theorem Dev.arb_pin (d : Dev) (u i w x : Nat) : (d.arb u i w x).pin = d.pin := by unfold Dev.arb; dsimp only; split <;> rfl
@[simp] theorem Dev.arb_clk (d : Dev) (u i w x : Nat) : (d.arb u i w x).clk = d.clk := by unfold Dev.arb; dsimp only; split <;> rfl
@[simp] theorem Dev.arb_cfg (d : Dev) (u i w x : Nat) : (d.arb u i w x).cfg = d.cfg := by unfold Dev.arb; dsimp only; split <;> rfl
@[simp] theorem Dev.arb_link (d : Dev) (u i w x : Nat) : (d.arb u i w x).link = d.link := by unfold Dev.arb; dsimp only; split <;> rfl
@[simp] theorem Dev.arb_fault (d : Dev) (u i w x : Nat) : (d.arb u i w x).fault = d.fault := by unfold Dev.arb; dsimp only; split <;> rfl
@[simp] theorem Dev.arb_mbox (d : Dev) (u i w x : Nat) : (d.arb u i w x).mbox = d.mbox := by unfold Dev.arb; dsimp only; split <;> rfl
@[simp] theorem Dev.arb_txn (d : Dev) (u i w x : Nat) : (d.arb u i w x).txn = d.txn := by unfold Dev.arb; dsimp only; split <;> rfl
@[simp] theorem Dev.arb_mem (d : Dev) (u i w x : Nat) : (d.arb u i w x).mem = d.mem := by unfold Dev.arb; dsimp only; split <;> rfl
@[simp] theorem Dev.arb_qm (d : Dev) (u i w x : Nat) : (d.arb u i w x).qm = d.qm := by unfold Dev.arb; dsimp only; split <;> rfl
@[simp] theorem Dev.arb_sla (d : Dev) (u i w x : Nat) : (d.arb u i w x).sla = d.sla := by unfold Dev.arb; dsimp only; split <;> rfl
@[simp] theorem Dev.arb_dram (d : Dev) (u i w x : Nat) : (d.arb u i w x).dram = d.dram := by unfold Dev.arb; dsimp only; split <;> rfl
@[simp] theorem Dev.arb_ecc (d : Dev) (u i w x : Nat) : (d.arb u i w x).ecc = d.ecc := by unfold Dev.arb; dsimp only; split <;> rfl
@[simp] theorem Dev.arb_reg (d : Dev) (u i w x : Nat) : (d.arb u i w x).reg = d.reg := by unfold Dev.arb; dsimp only; split <;> rfl
@[simp] theorem Dev.arb_xfer (d : Dev) (u i w x : Nat) : (d.arb u i w x).xfer = d.xfer := by unfold Dev.arb; dsimp only; split <;> rfl
@[simp] theorem Dev.arb_therm (d : Dev) (u i w x : Nat) : (d.arb u i w x).therm = d.therm := by unfold Dev.arb; dsimp only; split <;> rfl
@[simp] theorem Dev.arb_graft (d : Dev) (u i w x : Nat) : (d.arb u i w x).graft = d.graft := by unfold Dev.arb; dsimp only; split <;> rfl
@[simp] theorem Dev.arb_otp (d : Dev) (u i w x : Nat) : (d.arb u i w x).otp = d.otp := by unfold Dev.arb; dsimp only; split <;> rfl
@[simp] theorem Dev.arb_mgmt (d : Dev) (u i w x : Nat) : (d.arb u i w x).mgmt = d.mgmt := by unfold Dev.arb; dsimp only; split <;> rfl
@[simp] theorem Dev.arb_boot (d : Dev) (u i w x : Nat) : (d.arb u i w x).boot = d.boot := by unfold Dev.arb; dsimp only; split <;> rfl
@[simp] theorem Dev.arb_csr (d : Dev) (u i w x : Nat) : (d.arb u i w x).csr = d.csr := by unfold Dev.arb; dsimp only; split <;> rfl
@[simp] theorem Dev.arb_evt (d : Dev) (u i w x : Nat) : (d.arb u i w x).evt = d.evt := by unfold Dev.arb; dsimp only; split <;> rfl
@[simp] theorem Dev.arb_rcv (d : Dev) (u i w x : Nat) : (d.arb u i w x).rcv = d.rcv := by unfold Dev.arb; dsimp only; split <;> rfl
@[simp] theorem Dev.arb_ctr (d : Dev) (u i w x : Nat) : (d.arb u i w x).ctr = d.ctr := by unfold Dev.arb; dsimp only; split <;> rfl
@[simp] theorem Dev.arb_sel (d : Dev) (u i w x : Nat) : (d.arb u i w x).sel = d.sel := by unfold Dev.arb; dsimp only; split <;> rfl
@[simp] theorem Dev.arb_latch (d : Dev) (u i w x : Nat) : (d.arb u i w x).latch = d.latch := by unfold Dev.arb; dsimp only; split <;> rfl
@[simp] theorem Dev.arb_freeIx (d : Dev) (u i w x : Nat) : (d.arb u i w x).freeIx = d.freeIx := by unfold Dev.arb; dsimp only; split <;> rfl
@[simp] theorem Dev.setCsr_csrAt_self (d : Dev) (i b o : Nat) (v : Word) : (d.setCsr i b o v).csrAt i b o = v := tabGet_tabSet_self _ _ _ _
@[simp] theorem Dev.orCsr_csrAt_self (d : Dev) (i b o m : Nat) : (d.orCsr i b o m).csrAt i b o = d.csrAt i b o ||| word m := tabGet_tabSet_self _ _ _ _
@[simp] theorem Dev.bump_counter_self (d : Dev) (i b o n : Nat) : (d.bump i b o n).counter i b o = (d.counter i b o + n) % 2 ^ 64 := tabGet_tabMod_self (fun _ => 0) d.ctr (regKey i b o) (fun c => (c + n) % 2 ^ 64)
theorem Dev.setCsr_key_ne (d : Dev) {i b o k : Nat} (v : Word) (h : k ≠ regKey i b o) : tabGet regReset (d.setCsr i b o v).csr k = tabGet regReset d.csr k := tabGet_tabSet_ne _ _ _ h
theorem Dev.bump_key_ne (d : Dev) {i b o n k : Nat} (h : k ≠ regKey i b o) : tabGet (fun _ => 0) (d.bump i b o n).ctr k = tabGet (fun _ => 0) d.ctr k := tabGet_tabMod_ne (fun _ => 0) d.ctr (fun c => (c + n) % 2 ^ 64) h
@[simp] theorem Dev.draw_pin (d : Dev) : d.draw.2.pin = d.pin := rfl
@[simp] theorem Dev.draw_clk (d : Dev) : d.draw.2.clk = d.clk := rfl
@[simp] theorem Dev.draw_cfg (d : Dev) : d.draw.2.cfg = d.cfg := rfl
@[simp] theorem Dev.draw_link (d : Dev) : d.draw.2.link = d.link := rfl
@[simp] theorem Dev.draw_fault (d : Dev) : d.draw.2.fault = d.fault := rfl
@[simp] theorem Dev.draw_mbox (d : Dev) : d.draw.2.mbox = d.mbox := rfl
@[simp] theorem Dev.draw_telem (d : Dev) : d.draw.2.telem = d.telem := rfl
@[simp] theorem Dev.draw_txn (d : Dev) : d.draw.2.txn = d.txn := rfl
@[simp] theorem Dev.draw_mem (d : Dev) : d.draw.2.mem = d.mem := rfl
@[simp] theorem Dev.draw_qm (d : Dev) : d.draw.2.qm = d.qm := rfl
@[simp] theorem Dev.draw_sla (d : Dev) : d.draw.2.sla = d.sla := rfl
@[simp] theorem Dev.draw_dram (d : Dev) : d.draw.2.dram = d.dram := rfl
@[simp] theorem Dev.draw_ecc (d : Dev) : d.draw.2.ecc = d.ecc := rfl
@[simp] theorem Dev.draw_reg (d : Dev) : d.draw.2.reg = d.reg := rfl
@[simp] theorem Dev.draw_xfer (d : Dev) : d.draw.2.xfer = d.xfer := rfl
@[simp] theorem Dev.draw_therm (d : Dev) : d.draw.2.therm = d.therm := rfl
@[simp] theorem Dev.draw_graft (d : Dev) : d.draw.2.graft = d.graft := rfl
@[simp] theorem Dev.draw_otp (d : Dev) : d.draw.2.otp = d.otp := rfl
@[simp] theorem Dev.draw_mgmt (d : Dev) : d.draw.2.mgmt = d.mgmt := rfl
@[simp] theorem Dev.draw_boot (d : Dev) : d.draw.2.boot = d.boot := rfl
@[simp] theorem Dev.draw_csr (d : Dev) : d.draw.2.csr = d.csr := rfl
@[simp] theorem Dev.draw_evt (d : Dev) : d.draw.2.evt = d.evt := rfl
@[simp] theorem Dev.draw_rcv (d : Dev) : d.draw.2.rcv = d.rcv := rfl
@[simp] theorem Dev.draw_ctr (d : Dev) : d.draw.2.ctr = d.ctr := rfl
@[simp] theorem Dev.draw_sel (d : Dev) : d.draw.2.sel = d.sel := rfl
@[simp] theorem Dev.draw_latch (d : Dev) : d.draw.2.latch = d.latch := rfl
@[simp] theorem Dev.draw_dt (d : Dev) : d.draw.2.dt = d.dt := rfl

end Sys2Proof.Machine
end

