-- ==== Sys2Proof/Laws/Keeps.lean ====
section
/-!
SUPPORT. What the shared operations leave unchanged: for each, the parts of the device it may change. As rewriting rules: an
operation that changes only parts of `ps` can be dropped from a frame that allows `ps`.
-/
namespace Sys2Proof.Machine

theorem Dev.Keeps.refl (ps : List Part) (a : Dev) : Dev.Keeps ps a a := by intro p _; cases p <;> first | rfl | exact ⟨rfl, rfl⟩ | exact ⟨rfl, rfl, rfl⟩
@[simp] theorem Dev.Keeps.rfl' (ps : List Part) (a : Dev) : Dev.Keeps ps a a ↔ True := ⟨fun _ => trivial, fun _ => Dev.Keeps.refl ps a⟩

theorem Part.same.trans {p : Part} {a b c : Dev} (h : p.same a b) (k : p.same b c) : p.same a c := by
  cases p <;> first | exact Eq.trans k h | exact ⟨k.1.trans h.1, k.2.trans h.2⟩ | exact ⟨k.1.trans h.1, k.2.1.trans h.2.1, k.2.2.trans h.2.2⟩

theorem Part.same.symm {p : Part} {a b : Dev} (h : p.same a b) : p.same b a := by
  cases p <;> first | exact Eq.symm h | exact ⟨h.1.symm, h.2.symm⟩ | exact ⟨h.1.symm, h.2.1.symm, h.2.2.symm⟩

theorem Dev.Keeps.trans {ps : List Part} {a b c : Dev} (h : Dev.Keeps ps a b) (k : Dev.Keeps ps b c) : Dev.Keeps ps a c :=
  fun p hp => (h p hp).trans (k p hp)

theorem Dev.Keeps.mono {ps qs : List Part} {a b : Dev} (h : Dev.Keeps qs a b) (hs : qs ⊆ ps) : Dev.Keeps ps a b :=
  fun p hp => h p (fun hq => hp (hs hq))

/-- A change within `ps` can be dropped from a frame that allows `ps`. -/
theorem Dev.Keeps.drop {ps qs : List Part} {a b c : Dev} (h : Dev.Keeps qs b c) (hs : qs ⊆ ps) : Dev.Keeps ps a c ↔ Dev.Keeps ps a b :=
  ⟨fun k => k.trans (fun p hp => ((h.mono hs) p hp).symm), fun k => k.trans (h.mono hs)⟩

@[simp ↓] theorem Dev.Keeps.ite {ps : List Part} {a x y : Dev} {c : Prop} [Decidable c] (h : Dev.Keeps ps a x) (k : Dev.Keeps ps a y) :
    Dev.Keeps ps a (if c then x else y) ↔ True := by split <;> simp [h, k]

theorem Dev.Keeps.foldl {β : Type} {ps : List Part} {a : Dev} {f : Dev → β → Dev} (h : ∀ b x, Dev.Keeps ps b (f b x)) :
    ∀ (l : List β) (b : Dev), Dev.Keeps ps a (l.foldl f b) ↔ Dev.Keeps ps a b
  | [], _ => Iff.rfl
  | x :: l, b => (Dev.Keeps.foldl h l (f b x)).trans (Dev.Keeps.drop (h b x) (fun _ hp => hp))
@[simp ↓] theorem Dev.Keeps.foldl_iff {β : Type} {ps : List Part} {a b : Dev} {f : Dev → β → Dev} {l : List β} (h : ∀ b x, Dev.Keeps ps b (f b x)) :
    Dev.Keeps ps a (l.foldl f b) ↔ Dev.Keeps ps a b := Dev.Keeps.foldl h l b

@[simp ↓] theorem Dev.modFault_keeps (ps : List Part) (a d : Dev) (f : FaultU → FaultU) (h : .fault ∈ ps) : Dev.Keeps ps a (d.modFault f) ↔ Dev.Keeps ps a d :=
  Dev.Keeps.drop (qs := [.fault]) (fun p hp => by cases p <;> first | rfl | exact ⟨rfl, rfl⟩ | exact ⟨rfl, rfl, rfl⟩ | exact absurd (List.mem_singleton.mpr rfl) hp) (by simpa using h)
@[simp ↓] theorem Dev.modMbox_keeps (ps : List Part) (a d : Dev) (f : MboxU → MboxU) (h : .mbox ∈ ps) : Dev.Keeps ps a (d.modMbox f) ↔ Dev.Keeps ps a d :=
  Dev.Keeps.drop (qs := [.mbox]) (fun p hp => by cases p <;> first | rfl | exact ⟨rfl, rfl⟩ | exact ⟨rfl, rfl, rfl⟩ | exact absurd (List.mem_singleton.mpr rfl) hp) (by simpa using h)
@[simp ↓] theorem Dev.modClk_keeps (ps : List Part) (a d : Dev) (f : ClkU → ClkU) (h : .clk ∈ ps) : Dev.Keeps ps a (d.modClk f) ↔ Dev.Keeps ps a d :=
  Dev.Keeps.drop (qs := [.clk]) (fun p hp => by cases p <;> first | rfl | exact ⟨rfl, rfl⟩ | exact ⟨rfl, rfl, rfl⟩ | exact absurd (List.mem_singleton.mpr rfl) hp) (by simpa using h)
@[simp ↓] theorem Dev.modPin_keeps (ps : List Part) (a d : Dev) (f : PinU → PinU) (h : .pin ∈ ps) : Dev.Keeps ps a (d.modPin f) ↔ Dev.Keeps ps a d :=
  Dev.Keeps.drop (qs := [.pin]) (fun p hp => by cases p <;> first | rfl | exact ⟨rfl, rfl⟩ | exact ⟨rfl, rfl, rfl⟩ | exact absurd (List.mem_singleton.mpr rfl) hp) (by simpa using h)
@[simp ↓] theorem Dev.modCfg_keeps (ps : List Part) (a d : Dev) (f : CfgU → CfgU) (h : .cfg ∈ ps) : Dev.Keeps ps a (d.modCfg f) ↔ Dev.Keeps ps a d :=
  Dev.Keeps.drop (qs := [.cfg]) (fun p hp => by cases p <;> first | rfl | exact ⟨rfl, rfl⟩ | exact ⟨rfl, rfl, rfl⟩ | exact absurd (List.mem_singleton.mpr rfl) hp) (by simpa using h)
@[simp ↓] theorem Dev.modTxn_keeps (ps : List Part) (a d : Dev) (f : TxnU → TxnU) (h : .txn ∈ ps) : Dev.Keeps ps a (d.modTxn f) ↔ Dev.Keeps ps a d :=
  Dev.Keeps.drop (qs := [.txn]) (fun p hp => by cases p <;> first | rfl | exact ⟨rfl, rfl⟩ | exact ⟨rfl, rfl, rfl⟩ | exact absurd (List.mem_singleton.mpr rfl) hp) (by simpa using h)
@[simp ↓] theorem Dev.modMem_keeps (ps : List Part) (a d : Dev) (f : MemU → MemU) (h : .mem ∈ ps) : Dev.Keeps ps a (d.modMem f) ↔ Dev.Keeps ps a d :=
  Dev.Keeps.drop (qs := [.mem]) (fun p hp => by cases p <;> first | rfl | exact ⟨rfl, rfl⟩ | exact ⟨rfl, rfl, rfl⟩ | exact absurd (List.mem_singleton.mpr rfl) hp) (by simpa using h)
@[simp ↓] theorem Dev.modQm_keeps (ps : List Part) (a d : Dev) (f : QmU → QmU) (h : .qm ∈ ps) : Dev.Keeps ps a (d.modQm f) ↔ Dev.Keeps ps a d :=
  Dev.Keeps.drop (qs := [.qm]) (fun p hp => by cases p <;> first | rfl | exact ⟨rfl, rfl⟩ | exact ⟨rfl, rfl, rfl⟩ | exact absurd (List.mem_singleton.mpr rfl) hp) (by simpa using h)
@[simp ↓] theorem Dev.modEcc_keeps (ps : List Part) (a d : Dev) (f : EccU → EccU) (h : .ecc ∈ ps) : Dev.Keeps ps a (d.modEcc f) ↔ Dev.Keeps ps a d :=
  Dev.Keeps.drop (qs := [.ecc]) (fun p hp => by cases p <;> first | rfl | exact ⟨rfl, rfl⟩ | exact ⟨rfl, rfl, rfl⟩ | exact absurd (List.mem_singleton.mpr rfl) hp) (by simpa using h)
@[simp ↓] theorem Dev.modReg_keeps (ps : List Part) (a d : Dev) (f : RegU → RegU) (h : .reg ∈ ps) : Dev.Keeps ps a (d.modReg f) ↔ Dev.Keeps ps a d :=
  Dev.Keeps.drop (qs := [.reg]) (fun p hp => by cases p <;> first | rfl | exact ⟨rfl, rfl⟩ | exact ⟨rfl, rfl, rfl⟩ | exact absurd (List.mem_singleton.mpr rfl) hp) (by simpa using h)
@[simp ↓] theorem Dev.modTherm_keeps (ps : List Part) (a d : Dev) (f : ThermU → ThermU) (h : .therm ∈ ps) : Dev.Keeps ps a (d.modTherm f) ↔ Dev.Keeps ps a d :=
  Dev.Keeps.drop (qs := [.therm]) (fun p hp => by cases p <;> first | rfl | exact ⟨rfl, rfl⟩ | exact ⟨rfl, rfl, rfl⟩ | exact absurd (List.mem_singleton.mpr rfl) hp) (by simpa using h)
@[simp ↓] theorem Dev.modGraft_keeps (ps : List Part) (a d : Dev) (f : GraftU → GraftU) (h : .graft ∈ ps) : Dev.Keeps ps a (d.modGraft f) ↔ Dev.Keeps ps a d :=
  Dev.Keeps.drop (qs := [.graft]) (fun p hp => by cases p <;> first | rfl | exact ⟨rfl, rfl⟩ | exact ⟨rfl, rfl, rfl⟩ | exact absurd (List.mem_singleton.mpr rfl) hp) (by simpa using h)
@[simp ↓] theorem Dev.modOtp_keeps (ps : List Part) (a d : Dev) (f : OtpU → OtpU) (h : .otp ∈ ps) : Dev.Keeps ps a (d.modOtp f) ↔ Dev.Keeps ps a d :=
  Dev.Keeps.drop (qs := [.otp]) (fun p hp => by cases p <;> first | rfl | exact ⟨rfl, rfl⟩ | exact ⟨rfl, rfl, rfl⟩ | exact absurd (List.mem_singleton.mpr rfl) hp) (by simpa using h)
@[simp ↓] theorem Dev.modMgmt_keeps (ps : List Part) (a d : Dev) (f : MgmtU → MgmtU) (h : .mgmt ∈ ps) : Dev.Keeps ps a (d.modMgmt f) ↔ Dev.Keeps ps a d :=
  Dev.Keeps.drop (qs := [.mgmt]) (fun p hp => by cases p <;> first | rfl | exact ⟨rfl, rfl⟩ | exact ⟨rfl, rfl, rfl⟩ | exact absurd (List.mem_singleton.mpr rfl) hp) (by simpa using h)
@[simp ↓] theorem Dev.modBoot_keeps (ps : List Part) (a d : Dev) (f : BootU → BootU) (h : .boot ∈ ps) : Dev.Keeps ps a (d.modBoot f) ↔ Dev.Keeps ps a d :=
  Dev.Keeps.drop (qs := [.boot]) (fun p hp => by cases p <;> first | rfl | exact ⟨rfl, rfl⟩ | exact ⟨rfl, rfl, rfl⟩ | exact absurd (List.mem_singleton.mpr rfl) hp) (by simpa using h)
@[simp ↓] theorem Dev.modTelem_keeps (ps : List Part) (a d : Dev) (f : TelemU → TelemU) (h : .telem ∈ ps) : Dev.Keeps ps a (d.modTelem f) ↔ Dev.Keeps ps a d :=
  Dev.Keeps.drop (qs := [.telem]) (fun p hp => by cases p <;> first | rfl | exact ⟨rfl, rfl⟩ | exact ⟨rfl, rfl, rfl⟩ | exact absurd (List.mem_singleton.mpr rfl) hp) (by simpa using h)
@[simp ↓] theorem Dev.modLane_keeps (ps : List Part) (a d : Dev) (n : Nat) (f : Lane → Lane) (h : .lane ∈ ps) : Dev.Keeps ps a (d.modLane n f) ↔ Dev.Keeps ps a d :=
  Dev.Keeps.drop (qs := [.lane]) (fun p hp => by cases p <;> first | rfl | exact ⟨rfl, rfl⟩ | exact ⟨rfl, rfl, rfl⟩ | exact absurd (List.mem_singleton.mpr rfl) hp) (by simpa using h)
@[simp ↓] theorem Dev.modLin_keeps (ps : List Part) (a d : Dev) (n : Nat) (f : LaneIn → LaneIn) (h : .lin ∈ ps) : Dev.Keeps ps a (d.modLin n f) ↔ Dev.Keeps ps a d :=
  Dev.Keeps.drop (qs := [.lin]) (fun p hp => by cases p <;> first | rfl | exact ⟨rfl, rfl⟩ | exact ⟨rfl, rfl, rfl⟩ | exact absurd (List.mem_singleton.mpr rfl) hp) (by simpa using h)
@[simp ↓] theorem Dev.modLout_keeps (ps : List Part) (a d : Dev) (n : Nat) (f : LaneOut → LaneOut) (h : .lout ∈ ps) : Dev.Keeps ps a (d.modLout n f) ↔ Dev.Keeps ps a d :=
  Dev.Keeps.drop (qs := [.lout]) (fun p hp => by cases p <;> first | rfl | exact ⟨rfl, rfl⟩ | exact ⟨rfl, rfl, rfl⟩ | exact absurd (List.mem_singleton.mpr rfl) hp) (by simpa using h)
@[simp ↓] theorem Dev.modOct_keeps (ps : List Part) (a d : Dev) (n : Nat) (f : Octet → Octet) (h : .oct ∈ ps) : Dev.Keeps ps a (d.modOct n f) ↔ Dev.Keeps ps a d :=
  Dev.Keeps.drop (qs := [.oct]) (fun p hp => by cases p <;> first | rfl | exact ⟨rfl, rfl⟩ | exact ⟨rfl, rfl, rfl⟩ | exact absurd (List.mem_singleton.mpr rfl) hp) (by simpa using h)
@[simp ↓] theorem Dev.modPort_keeps (ps : List Part) (a d : Dev) (n : Nat) (f : Port → Port) (h : .port ∈ ps) : Dev.Keeps ps a (d.modPort n f) ↔ Dev.Keeps ps a d :=
  Dev.Keeps.drop (qs := [.port]) (fun p hp => by cases p <;> first | rfl | exact ⟨rfl, rfl⟩ | exact ⟨rfl, rfl, rfl⟩ | exact absurd (List.mem_singleton.mpr rfl) hp) (by simpa using h)
@[simp ↓] theorem Dev.modPtx_keeps (ps : List Part) (a d : Dev) (n : Nat) (f : PortTx → PortTx) (h : .ptx ∈ ps) : Dev.Keeps ps a (d.modPtx n f) ↔ Dev.Keeps ps a d :=
  Dev.Keeps.drop (qs := [.ptx]) (fun p hp => by cases p <;> first | rfl | exact ⟨rfl, rfl⟩ | exact ⟨rfl, rfl, rfl⟩ | exact absurd (List.mem_singleton.mpr rfl) hp) (by simpa using h)
@[simp ↓] theorem Dev.modPtn_keeps (ps : List Part) (a d : Dev) (n : Nat) (f : Partner → Partner) (h : .ptn ∈ ps) : Dev.Keeps ps a (d.modPtn n f) ↔ Dev.Keeps ps a d :=
  Dev.Keeps.drop (qs := [.ptn]) (fun p hp => by cases p <;> first | rfl | exact ⟨rfl, rfl⟩ | exact ⟨rfl, rfl, rfl⟩ | exact absurd (List.mem_singleton.mpr rfl) hp) (by simpa using h)
@[simp ↓] theorem Dev.modSrc_keeps (ps : List Part) (a d : Dev) (n : Nat) (f : Source → Source) (h : .fault ∈ ps) : Dev.Keeps ps a (d.modSrc n f) ↔ Dev.Keeps ps a d :=
  Dev.Keeps.drop (qs := [.fault]) (fun p hp => by cases p <;> first | rfl | exact ⟨rfl, rfl⟩ | exact ⟨rfl, rfl, rfl⟩ | exact absurd (List.mem_singleton.mpr rfl) hp) (by simpa using h)
@[simp ↓] theorem Dev.modMb_keeps (ps : List Part) (a d : Dev) (n : Nat) (f : Mbox → Mbox) (h : .mbox ∈ ps) : Dev.Keeps ps a (d.modMb n f) ↔ Dev.Keeps ps a d :=
  Dev.Keeps.drop (qs := [.mbox]) (fun p hp => by cases p <;> first | rfl | exact ⟨rfl, rfl⟩ | exact ⟨rfl, rfl, rfl⟩ | exact absurd (List.mem_singleton.mpr rfl) hp) (by simpa using h)
@[simp ↓] theorem Dev.modQueue_keeps (ps : List Part) (a d : Dev) (n : Nat) (f : Queue → Queue) (h : .qm ∈ ps) : Dev.Keeps ps a (d.modQueue n f) ↔ Dev.Keeps ps a d :=
  Dev.Keeps.drop (qs := [.qm]) (fun p hp => by cases p <;> first | rfl | exact ⟨rfl, rfl⟩ | exact ⟨rfl, rfl, rfl⟩ | exact absurd (List.mem_singleton.mpr rfl) hp) (by simpa using h)
@[simp ↓] theorem Dev.modEng_keeps (ps : List Part) (a d : Dev) (n : Nat) (f : Engine → Engine) (h : .sla ∈ ps) : Dev.Keeps ps a (d.modEng n f) ↔ Dev.Keeps ps a d :=
  Dev.Keeps.drop (qs := [.sla]) (fun p hp => by cases p <;> first | rfl | exact ⟨rfl, rfl⟩ | exact ⟨rfl, rfl, rfl⟩ | exact absurd (List.mem_singleton.mpr rfl) hp) (by simpa using h)
@[simp ↓] theorem Dev.modCh_keeps (ps : List Part) (a d : Dev) (n : Nat) (f : Chan → Chan) (h : .dram ∈ ps) : Dev.Keeps ps a (d.modCh n f) ↔ Dev.Keeps ps a d :=
  Dev.Keeps.drop (qs := [.dram]) (fun p hp => by cases p <;> first | rfl | exact ⟨rfl, rfl⟩ | exact ⟨rfl, rfl, rfl⟩ | exact absurd (List.mem_singleton.mpr rfl) hp) (by simpa using h)
@[simp ↓] theorem Dev.modDom_keeps (ps : List Part) (a d : Dev) (n : Nat) (f : CalDom → CalDom) (h : .therm ∈ ps) : Dev.Keeps ps a (d.modDom n f) ↔ Dev.Keeps ps a d :=
  Dev.Keeps.drop (qs := [.therm]) (fun p hp => by cases p <;> first | rfl | exact ⟨rfl, rfl⟩ | exact ⟨rfl, rfl, rfl⟩ | exact absurd (List.mem_singleton.mpr rfl) hp) (by simpa using h)
@[simp ↓] theorem Dev.modXc_keeps (ps : List Part) (a d : Dev) (n : Nat) (f : Xc → Xc) (h : .xfer ∈ ps) : Dev.Keeps ps a (d.modXc n f) ↔ Dev.Keeps ps a d :=
  Dev.Keeps.drop (qs := [.xfer]) (fun p hp => by cases p <;> first | rfl | exact ⟨rfl, rfl⟩ | exact ⟨rfl, rfl, rfl⟩ | exact absurd (List.mem_singleton.mpr rfl) hp) (by simpa using h)
@[simp ↓] theorem Dev.modEvac_keeps (ps : List Part) (a d : Dev) (n : Nat) (f : Evac → Evac) (h : .graft ∈ ps) : Dev.Keeps ps a (d.modEvac n f) ↔ Dev.Keeps ps a d :=
  Dev.Keeps.drop (qs := [.graft]) (fun p hp => by cases p <;> first | rfl | exact ⟨rfl, rfl⟩ | exact ⟨rfl, rfl, rfl⟩ | exact absurd (List.mem_singleton.mpr rfl) hp) (by simpa using h)
@[simp ↓] theorem Dev.modRx_keeps (ps : List Part) (a d : Dev) (n k : Nat) (f : RxVc → RxVc) (h : .rx ∈ ps) : Dev.Keeps ps a (d.modRx n k f) ↔ Dev.Keeps ps a d :=
  Dev.Keeps.drop (qs := [.rx]) (fun p hp => by cases p <;> first | rfl | exact ⟨rfl, rfl⟩ | exact ⟨rfl, rfl, rfl⟩ | exact absurd (List.mem_singleton.mpr rfl) hp) (by simpa using h)
@[simp ↓] theorem Dev.modTx_keeps (ps : List Part) (a d : Dev) (n k : Nat) (f : TxVc → TxVc) (h : .tx ∈ ps) : Dev.Keeps ps a (d.modTx n k f) ↔ Dev.Keeps ps a d :=
  Dev.Keeps.drop (qs := [.tx]) (fun p hp => by cases p <;> first | rfl | exact ⟨rfl, rfl⟩ | exact ⟨rfl, rfl, rfl⟩ | exact absurd (List.mem_singleton.mpr rfl) hp) (by simpa using h)
@[simp ↓] theorem Dev.modPair_keeps (ps : List Part) (a d : Dev) (n k : Nat) (f : Pair → Pair) (h : .mbox ∈ ps) : Dev.Keeps ps a (d.modPair n k f) ↔ Dev.Keeps ps a d :=
  Dev.Keeps.drop (qs := [.mbox]) (fun p hp => by cases p <;> first | rfl | exact ⟨rfl, rfl⟩ | exact ⟨rfl, rfl, rfl⟩ | exact absurd (List.mem_singleton.mpr rfl) hp) (by simpa using h)
@[simp ↓] theorem Dev.modBank_keeps (ps : List Part) (a d : Dev) (n k : Nat) (f : Bank → Bank) (h : .dram ∈ ps) : Dev.Keeps ps a (d.modBank n k f) ↔ Dev.Keeps ps a d :=
  Dev.Keeps.drop (qs := [.dram]) (fun p hp => by cases p <;> first | rfl | exact ⟨rfl, rfl⟩ | exact ⟨rfl, rfl, rfl⟩ | exact absurd (List.mem_singleton.mpr rfl) hp) (by simpa using h)
@[simp ↓] theorem Dev.modVlink_keeps (ps : List Part) (a d : Dev) (n k : Nat) (f : VLink → VLink) (h : .dram ∈ ps) : Dev.Keeps ps a (d.modVlink n k f) ↔ Dev.Keeps ps a d :=
  Dev.Keeps.drop (qs := [.dram]) (fun p hp => by cases p <;> first | rfl | exact ⟨rfl, rfl⟩ | exact ⟨rfl, rfl, rfl⟩ | exact absurd (List.mem_singleton.mpr rfl) hp) (by simpa using h)
@[simp ↓] theorem Dev.setCsr_keeps (ps : List Part) (a d : Dev) (i b o : Nat) (v : Word) (h : .csr ∈ ps) : Dev.Keeps ps a (d.setCsr i b o v) ↔ Dev.Keeps ps a d :=
  Dev.Keeps.drop (qs := [.csr]) (fun p hp => by cases p <;> first | rfl | exact ⟨rfl, rfl⟩ | exact ⟨rfl, rfl, rfl⟩ | exact absurd (List.mem_singleton.mpr rfl) hp) (by simpa using h)
@[simp ↓] theorem Dev.orCsr_keeps (ps : List Part) (a d : Dev) (i b o m : Nat) (h : .csr ∈ ps) : Dev.Keeps ps a (d.orCsr i b o m) ↔ Dev.Keeps ps a d :=
  Dev.Keeps.drop (qs := [.csr]) (fun p hp => by cases p <;> first | rfl | exact ⟨rfl, rfl⟩ | exact ⟨rfl, rfl, rfl⟩ | exact absurd (List.mem_singleton.mpr rfl) hp) (by simpa using h)
@[simp ↓] theorem Dev.evtNote_keeps (ps : List Part) (a d : Dev) (i b o m : Nat) (h : .csr ∈ ps) : Dev.Keeps ps a (d.evtNote i b o m) ↔ Dev.Keeps ps a d :=
  Dev.Keeps.drop (qs := [.csr]) (fun p hp => by cases p <;> first | rfl | exact ⟨rfl, rfl⟩ | exact ⟨rfl, rfl, rfl⟩ | exact absurd (List.mem_singleton.mpr rfl) hp) (by simpa using h)
@[simp ↓] theorem Dev.rcNote_keeps (ps : List Part) (a d : Dev) (i b o v : Nat) (f : Nat → Nat) (h : .csr ∈ ps) : Dev.Keeps ps a (d.rcNote i b o v f) ↔ Dev.Keeps ps a d :=
  Dev.Keeps.drop (qs := [.csr]) (fun p hp => by cases p <;> first | rfl | exact ⟨rfl, rfl⟩ | exact ⟨rfl, rfl, rfl⟩ | exact absurd (List.mem_singleton.mpr rfl) hp) (by simpa using h)
@[simp ↓] theorem Dev.bump_keeps (ps : List Part) (a d : Dev) (i b o n : Nat) (h : .ctr ∈ ps) : Dev.Keeps ps a (d.bump i b o n) ↔ Dev.Keeps ps a d :=
  Dev.Keeps.drop (qs := [.ctr]) (fun p hp => by cases p <;> first | rfl | exact ⟨rfl, rfl⟩ | exact ⟨rfl, rfl, rfl⟩ | exact absurd (List.mem_singleton.mpr rfl) hp) (by simpa using h)
@[simp ↓] theorem Dev.tele_keeps (ps : List Part) (a d : Dev) (k : Nat) (bs : List Byte) (h : .telem ∈ ps) : Dev.Keeps ps a (d.tele k bs) ↔ Dev.Keeps ps a d :=
  Dev.Keeps.drop (qs := [.telem]) (fun p hp => by cases p <;> first | rfl | exact ⟨rfl, rfl⟩ | exact ⟨rfl, rfl, rfl⟩ | exact absurd (List.mem_singleton.mpr rfl) hp) (by simpa using h)
@[simp ↓] theorem Dev.draw_keeps (ps : List Part) (a d : Dev)  (h : .free ∈ ps) : Dev.Keeps ps a (d.draw.2) ↔ Dev.Keeps ps a d :=
  Dev.Keeps.drop (qs := [.free]) (fun p hp => by cases p <;> first | rfl | exact ⟨rfl, rfl⟩ | exact ⟨rfl, rfl, rfl⟩ | exact absurd (List.mem_singleton.mpr rfl) hp) (by simpa using h)
@[simp ↓] theorem Dev.setSel_keeps (ps : List Part) (a d : Dev) (p : Path) (b v : Nat) (h : .sel ∈ ps) : Dev.Keeps ps a (d.setSel p b v) ↔ Dev.Keeps ps a d :=
  Dev.Keeps.drop (qs := [.sel]) (fun p hp => by cases p <;> first | rfl | exact ⟨rfl, rfl⟩ | exact ⟨rfl, rfl, rfl⟩ | exact absurd (List.mem_singleton.mpr rfl) hp) (by simpa using h)
@[simp ↓] theorem Dev.clearSel_keeps (ps : List Part) (a d : Dev) (i : Nat) (h : .sel ∈ ps) : Dev.Keeps ps a (d.clearSel i) ↔ Dev.Keeps ps a d :=
  Dev.Keeps.drop (qs := [.sel]) (fun p hp => by cases p <;> first | rfl | exact ⟨rfl, rfl⟩ | exact ⟨rfl, rfl, rfl⟩ | exact absurd (List.mem_singleton.mpr rfl) hp) (by simpa using h)
theorem Dev.setTelem_keep (d : Dev) (u : TelemU) : Dev.Keeps [.telem] d { d with telem := u } :=
  fun p hp => by cases p <;> first | rfl | exact ⟨rfl, rfl⟩ | exact ⟨rfl, rfl, rfl⟩ | exact absurd (List.mem_singleton.mpr rfl) hp
@[simp ↓] theorem Dev.setTelem_keeps (ps : List Part) (a d : Dev) (u : TelemU) (h : .telem ∈ ps) : Dev.Keeps ps a { d with telem := u } ↔ Dev.Keeps ps a d :=
  Dev.Keeps.drop (Dev.setTelem_keep d u) (by simpa using h)
theorem Dev.arb_keep (d : Dev) (unit inst who aux : Nat) : Dev.Keeps [.telem] d (d.arb unit inst who aux) := by unfold Dev.arb; repeat' (first | simp | split)
@[simp ↓] theorem Dev.arb_keeps (ps : List Part) (a d : Dev) (unit inst who aux : Nat) (h : [.telem] ⊆ ps) : Dev.Keeps ps a (d.arb unit inst who aux) ↔ Dev.Keeps ps a d :=
  Dev.Keeps.drop (Dev.arb_keep d unit inst who aux) h
theorem Dev.queueEvent_keep (d : Dev) (o type : Nat) (body : List Byte) : Dev.Keeps [.mbox, .ctr, .csr, .telem] d ((d.queueEvent o type body).1) := by unfold Dev.queueEvent; repeat' (first | simp | split)
@[simp ↓] theorem Dev.queueEvent_keeps (ps : List Part) (a d : Dev) (o type : Nat) (body : List Byte) (h : [.mbox, .ctr, .csr, .telem] ⊆ ps) : Dev.Keeps ps a ((d.queueEvent o type body).1) ↔ Dev.Keeps ps a d :=
  Dev.Keeps.drop (Dev.queueEvent_keep d o type body) h
theorem Dev.popEvent_keep (d : Dev) (o : Nat) : Dev.Keeps [.mbox, .ctr] d (d.popEvent o) := by unfold Dev.popEvent; repeat' (first | simp | split)
@[simp ↓] theorem Dev.popEvent_keeps (ps : List Part) (a d : Dev) (o : Nat) (h : [.mbox, .ctr] ⊆ ps) : Dev.Keeps ps a (d.popEvent o) ↔ Dev.Keeps ps a d :=
  Dev.Keeps.drop (Dev.popEvent_keep d o) h
theorem Dev.logFault_keep (d : Dev) (n taken : Nat) (x : Detail) : Dev.Keeps [.fault, .csr] d ((d.logFault n taken x).1) := by unfold Dev.logFault; repeat' (first | simp | split)
@[simp ↓] theorem Dev.logFault_keeps (ps : List Part) (a d : Dev) (n taken : Nat) (x : Detail) (h : [.fault, .csr] ⊆ ps) : Dev.Keeps ps a ((d.logFault n taken x).1) ↔ Dev.Keeps ps a d :=
  Dev.Keeps.drop (Dev.logFault_keep d n taken x) h
theorem Dev.pinReact_keep (d : Dev) (n : Nat) : Dev.Keeps [.fault] d (d.pinReact n) := by unfold Dev.pinReact; repeat' (first | simp | split)
@[simp ↓] theorem Dev.pinReact_keeps (ps : List Part) (a d : Dev) (n : Nat) (h : [.fault] ⊆ ps) : Dev.Keeps ps a (d.pinReact n) ↔ Dev.Keeps ps a d :=
  Dev.Keeps.drop (Dev.pinReact_keep d n) h
theorem Dev.nmiReact_keep (d : Dev) (n : Nat) : Dev.Keeps [.fault] d (d.nmiReact n) := by unfold Dev.nmiReact; simp
@[simp ↓] theorem Dev.nmiReact_keeps (ps : List Part) (a d : Dev) (n : Nat) (h : [.fault] ⊆ ps) : Dev.Keeps ps a (d.nmiReact n) ↔ Dev.Keeps ps a d :=
  Dev.Keeps.drop (Dev.nmiReact_keep d n) h
theorem Dev.faultTie_keep (d : Dev) (n : Nat) : Dev.Keeps [.telem, .fault] d (d.faultTie n) := by unfold Dev.faultTie; repeat' (first | simp | split)
@[simp ↓] theorem Dev.faultTie_keeps (ps : List Part) (a d : Dev) (n : Nat) (h : [.telem, .fault] ⊆ ps) : Dev.Keeps ps a (d.faultTie n) ↔ Dev.Keeps ps a d :=
  Dev.Keeps.drop (Dev.faultTie_keep d n) h
theorem Dev.Keeps.foldl_fst {β γ : Type} {ps : List Part} {a : Dev} {f : Dev × γ → β → Dev × γ} (h : ∀ b x, Dev.Keeps ps b.1 (f b x).1) :
    ∀ (l : List β) (b : Dev × γ), Dev.Keeps ps a (l.foldl f b).1 ↔ Dev.Keeps ps a b.1
  | [], _ => Iff.rfl
  | x :: l, b => (Dev.Keeps.foldl_fst h l (f b x)).trans (Dev.Keeps.drop (h b x) (fun _ hp => hp))
theorem Dev.postFault_keep (d : Dev) (n : Nat) (x : Detail) : Dev.Keeps [.mbox, .ctr, .csr, .telem] d ((d.postFault n x).1) := by
  unfold Dev.postFault
  refine (Dev.Keeps.foldl_fst (fun b x => ?_) _ _).mpr (by simp)
  simp
@[simp ↓] theorem Dev.postFault_keeps (ps : List Part) (a d : Dev) (n : Nat) (x : Detail) (h : [.mbox, .ctr, .csr, .telem] ⊆ ps) : Dev.Keeps ps a ((d.postFault n x).1) ↔ Dev.Keeps ps a d :=
  Dev.Keeps.drop (Dev.postFault_keep d n x) h
theorem Dev.raiseN_keep : ∀ (fuel : Nat) (d : Dev) (n : Nat) (x : Detail), Dev.Keeps [.fault, .csr, .ctr, .mbox, .telem] d (Dev.raiseN fuel d n x)
  | 0, d, _, _ => Dev.Keeps.refl _ d
  | fuel + 1, d, n, x => by
    have ih := Dev.raiseN_keep fuel
    have ih' : ∀ (ps : List Part) (a d : Dev) (n : Nat) (x : Detail), [.fault, .csr, .ctr, .mbox, .telem] ⊆ ps →
        (Dev.Keeps ps a (Dev.raiseN fuel d n x) ↔ Dev.Keeps ps a d) := fun ps a d n x h => Dev.Keeps.drop (ih d n x) h
    have hf : ∀ (l : List Nat) (b : Dev) (y : Nat → Detail), Dev.Keeps [.fault, .csr, .ctr, .mbox, .telem] d
        (l.foldl (fun a o => Dev.raiseN fuel a 162 (y o)) b) ↔ Dev.Keeps [.fault, .csr, .ctr, .mbox, .telem] d b :=
      fun l b y => Dev.Keeps.foldl (fun b o => ih b 162 (y o)) l b
    unfold Dev.raiseN
    extract_lets d0 s d1 set gap hc sup d2 d3 e d4
    have h1 : Dev.Keeps [.fault, .csr, .ctr, .mbox, .telem] d d1 := by simp [d1, d0]
    clear_value d1
    split
    · exact h1
    · have h2 : Dev.Keeps [.fault, .csr, .ctr, .mbox, .telem] d d2 := by unfold d2; split <;> simpa using h1
      clear_value d2
      have h3 : Dev.Keeps [.fault, .csr, .ctr, .mbox, .telem] d d3 := by unfold d3; split <;> simpa using h2
      clear_value d3
      split
      · simpa using h3
      · have h4 : Dev.Keeps [.fault, .csr, .ctr, .mbox, .telem] d d4 := by simpa [d4] using h3
        clear_value d4
        split
        rename_i d5 dr h
        have h5 : Dev.Keeps [.fault, .csr, .ctr, .mbox, .telem] d d5 := by
          split at h
          · have := congrArg Prod.fst h
            simp only at this
            rw [← this]; simpa using h4
          · have := congrArg Prod.fst h
            simp only at this
            rw [← this]; exact h4
        clear h
        split
        rename_i d6 ov h
        have h6 : Dev.Keeps [.fault, .csr, .ctr, .mbox, .telem] d d6 := by
          have := congrArg Prod.fst h
          simp only at this
          rw [← this]; simpa using h5
        clear h
        extract_lets d7
        have h7 : Dev.Keeps [.fault, .csr, .ctr, .mbox, .telem] d d7 := by unfold d7; split <;> simpa [ih'] using h6
        clear_value d7
        split
        · exact h7
        · exact (hf _ _ _).mpr h7
@[simp ↓] theorem Dev.raiseN_keeps (ps : List Part) (a d : Dev) (fuel n : Nat) (x : Detail) (h : [.fault, .csr, .ctr, .mbox, .telem] ⊆ ps) :
    Dev.Keeps ps a (Dev.raiseN fuel d n x) ↔ Dev.Keeps ps a d := Dev.Keeps.drop (Dev.raiseN_keep fuel d n x) h
theorem Dev.escCrst_keep (d : Dev) (n : Nat) : Dev.Keeps [.fault] d (d.escCrst n) := by unfold Dev.escCrst; simp
@[simp ↓] theorem Dev.escCrst_keeps (ps : List Part) (a d : Dev) (n : Nat) (h : [.fault] ⊆ ps) : Dev.Keeps ps a (d.escCrst n) ↔ Dev.Keeps ps a d :=
  Dev.Keeps.drop (Dev.escCrst_keep d n) h
theorem Dev.Keeps.foldl' {β : Type} {ps qs : List Part} {a : Dev} {f : Dev → β → Dev} (h : ∀ b x, Dev.Keeps qs b (f b x)) (hs : qs ⊆ ps)
    (l : List β) (b : Dev) : Dev.Keeps ps a (l.foldl f b) ↔ Dev.Keeps ps a b :=
  Dev.Keeps.foldl (fun b x => (h b x).mono hs) l b
theorem Dev.escRecord_keep (d : Dev) (n step taken : Nat) : Dev.Keeps [.fault, .csr, .ctr, .mbox, .telem] d (d.escRecord n step taken) := by
  have hf : ∀ (l : List Nat) (b : Dev), Dev.Keeps [.fault, .csr, .ctr, .mbox, .telem] d
      (l.foldl (fun a o => Dev.raiseN 4 a 162 { kind := 13, inst := o }) b) ↔ Dev.Keeps [.fault, .csr, .ctr, .mbox, .telem] d b :=
    fun l b => Dev.Keeps.foldl (fun b o => Dev.raiseN_keep 4 b 162 _) l b
  unfold Dev.escRecord
  extract_lets x
  split
  rename_i d1 dr h
  have h1 : Dev.Keeps [.fault, .csr, .ctr, .mbox, .telem] d d1 := by
    have := congrArg Prod.fst h
    simp only at this
    rw [← this]; split <;> simp
  clear h
  split
  rename_i d2 ov h
  have h2 : Dev.Keeps [.fault, .csr, .ctr, .mbox, .telem] d d2 := by
    have := congrArg Prod.fst h
    simp only at this
    rw [← this]; simpa using h1
  clear h
  extract_lets d3 d4
  have h3 : Dev.Keeps [.fault, .csr, .ctr, .mbox, .telem] d d3 := by unfold d3; split <;> simpa using h2
  have h4 : Dev.Keeps [.fault, .csr, .ctr, .mbox, .telem] d d4 := (hf _ _).mpr h3
  simpa using h4
@[simp ↓] theorem Dev.escRecord_keeps (ps : List Part) (a d : Dev) (n step taken : Nat) (h : [.fault, .csr, .ctr, .mbox, .telem] ⊆ ps) : Dev.Keeps ps a (d.escRecord n step taken) ↔ Dev.Keeps ps a d :=
  Dev.Keeps.drop (Dev.escRecord_keep d n step taken) h
theorem Dev.raise0_keep (d : Dev) (n : Nat) (x : Detail) : Dev.Keeps [.fault, .csr, .ctr, .mbox, .telem] d (d.raise0 n x) := by unfold Dev.raise0; repeat' (first | simp | split)
@[simp ↓] theorem Dev.raise0_keeps (ps : List Part) (a d : Dev) (n : Nat) (x : Detail) (h : [.fault, .csr, .ctr, .mbox, .telem] ⊆ ps) : Dev.Keeps ps a (d.raise0 n x) ↔ Dev.Keeps ps a d :=
  Dev.Keeps.drop (Dev.raise0_keep d n x) h
theorem Dev.post_keep (d : Dev) (o type : Nat) (body : List Byte) : Dev.Keeps [.fault, .csr, .ctr, .mbox, .telem] d (d.post o type body) := by unfold Dev.post; repeat' (first | simp | split)
@[simp ↓] theorem Dev.post_keeps (ps : List Part) (a d : Dev) (o type : Nat) (body : List Byte) (h : [.fault, .csr, .ctr, .mbox, .telem] ⊆ ps) : Dev.Keeps ps a (d.post o type body) ↔ Dev.Keeps ps a d :=
  Dev.Keeps.drop (Dev.post_keep d o type body) h
@[simp ↓] theorem Dev.foldl_post_keeps {ps : List Part} {a : Dev} (h : [.fault, .csr, .ctr, .mbox, .telem] ⊆ ps) (l : List Nat) (d : Dev)
    (t : Nat) (body : List Byte) : Dev.Keeps ps a (l.foldl (fun b o => b.post o t body) d) ↔ Dev.Keeps ps a d :=
  Dev.Keeps.foldl' (fun b o => Dev.post_keep b o t body) h l d
theorem Dev.postAll_keep (d : Dev) (os : List Nat) (type : Nat) (body : List Byte) : Dev.Keeps [.fault, .csr, .ctr, .mbox, .telem] d (d.postAll os type body) := by unfold Dev.postAll; simp
@[simp ↓] theorem Dev.postAll_keeps (ps : List Part) (a d : Dev) (os : List Nat) (type : Nat) (body : List Byte) (h : [.fault, .csr, .ctr, .mbox, .telem] ⊆ ps) : Dev.Keeps ps a (d.postAll os type body) ↔ Dev.Keeps ps a d :=
  Dev.Keeps.drop (Dev.postAll_keep d os type body) h
@[simp ↓] theorem Dev.set_sla_keeps (ps : List Part) (a d : Dev) (u : SlaU) (h : .sla ∈ ps) : Dev.Keeps ps a { d with sla := u } ↔ Dev.Keeps ps a d :=
  Dev.Keeps.drop (qs := [.sla]) (fun p hp => by cases p <;> first | rfl | exact ⟨rfl, rfl⟩ | exact ⟨rfl, rfl, rfl⟩ | exact absurd (List.mem_singleton.mpr rfl) hp) (by simpa using h)
@[simp ↓] theorem Dev.set_dram_keeps (ps : List Part) (a d : Dev) (u : DramU) (h : .dram ∈ ps) : Dev.Keeps ps a { d with dram := u } ↔ Dev.Keeps ps a d :=
  Dev.Keeps.drop (qs := [.dram]) (fun p hp => by cases p <;> first | rfl | exact ⟨rfl, rfl⟩ | exact ⟨rfl, rfl, rfl⟩ | exact absurd (List.mem_singleton.mpr rfl) hp) (by simpa using h)
@[simp ↓] theorem Dev.set_therm_keeps (ps : List Part) (a d : Dev) (u : ThermU) (h : .therm ∈ ps) : Dev.Keeps ps a { d with therm := u } ↔ Dev.Keeps ps a d :=
  Dev.Keeps.drop (qs := [.therm]) (fun p hp => by cases p <;> first | rfl | exact ⟨rfl, rfl⟩ | exact ⟨rfl, rfl, rfl⟩ | exact absurd (List.mem_singleton.mpr rfl) hp) (by simpa using h)
@[simp ↓] theorem Dev.set_txn_keeps (ps : List Part) (a d : Dev) (u : TxnU) (h : .txn ∈ ps) : Dev.Keeps ps a { d with txn := u } ↔ Dev.Keeps ps a d :=
  Dev.Keeps.drop (qs := [.txn]) (fun p hp => by cases p <;> first | rfl | exact ⟨rfl, rfl⟩ | exact ⟨rfl, rfl, rfl⟩ | exact absurd (List.mem_singleton.mpr rfl) hp) (by simpa using h)
@[simp ↓] theorem Dev.set_cfg_keeps (ps : List Part) (a d : Dev) (u : CfgU) (h : .cfg ∈ ps) : Dev.Keeps ps a { d with cfg := u } ↔ Dev.Keeps ps a d :=
  Dev.Keeps.drop (qs := [.cfg]) (fun p hp => by cases p <;> first | rfl | exact ⟨rfl, rfl⟩ | exact ⟨rfl, rfl, rfl⟩ | exact absurd (List.mem_singleton.mpr rfl) hp) (by simpa using h)
@[simp ↓] theorem Dev.set_xfer_keeps (ps : List Part) (a d : Dev) (u : XferU) (h : .xfer ∈ ps) : Dev.Keeps ps a { d with xfer := u } ↔ Dev.Keeps ps a d :=
  Dev.Keeps.drop (qs := [.xfer]) (fun p hp => by cases p <;> first | rfl | exact ⟨rfl, rfl⟩ | exact ⟨rfl, rfl, rfl⟩ | exact absurd (List.mem_singleton.mpr rfl) hp) (by simpa using h)
@[simp ↓] theorem Dev.set_qm_keeps (ps : List Part) (a d : Dev) (u : QmU) (h : .qm ∈ ps) : Dev.Keeps ps a { d with qm := u } ↔ Dev.Keeps ps a d :=
  Dev.Keeps.drop (qs := [.qm]) (fun p hp => by cases p <;> first | rfl | exact ⟨rfl, rfl⟩ | exact ⟨rfl, rfl, rfl⟩ | exact absurd (List.mem_singleton.mpr rfl) hp) (by simpa using h)
@[simp ↓] theorem Dev.setLatch_keeps (ps : List Part) (a d : Dev) (i b : Nat) (v : Option (Nat × Nat)) (h : .latch ∈ ps) : Dev.Keeps ps a (d.setLatch i b v) ↔ Dev.Keeps ps a d :=
  Dev.Keeps.drop (qs := [.latch]) (fun p hp => by cases p <;> first | rfl | exact ⟨rfl, rfl⟩ | exact ⟨rfl, rfl, rfl⟩ | exact absurd (List.mem_singleton.mpr rfl) hp) (by simpa using h)

end Sys2Proof.Machine
end

