-- ==== Sys2Proof/Laws/Exec.lean ====
section
/-!
SUPPORT. The three forms in which a meaning runs: when it answers a next state, and what that state is.
-/
namespace Sys2Proof.Machine

theorem guardNext_pos {ok : Bool} {f : Dev → Dev} {s : State} (h : ok = true) : guardNext ok f s = .next { s with dev := f s.dev } :=
  if_pos h
theorem guardFuse_pos {ok : Bool} {f : Fuses → Dev → Dev} {s : State} (h : ok = true) :
    guardFuse ok f s = .next { s with dev := f s.fuse s.dev } := if_pos h
theorem guardBurn_pos {ok : Bool} {f : Fuses → Dev → Fuses × Dev} {s : State} (h : ok = true) :
    guardBurn ok f s = .next { s with dev := (f s.fuse s.dev).2, fuse := (f s.fuse s.dev).1 } := if_pos h

/-- A command whose meaning is an effect on the device completes when its operands exist, with that effect. -/
theorem Completes.next {i : Instr} {s : State} {P : State → Prop} {ok : Bool} (f : Dev → Dev) (e : exec i s = guardNext ok f s)
    (h : ok = true) (p : P { s with dev := f s.dev }) : Completes i s P := ⟨_, e.trans (guardNext_pos h), p⟩
theorem Completes.fuse {i : Instr} {s : State} {P : State → Prop} {ok : Bool} (f : Fuses → Dev → Dev) (e : exec i s = guardFuse ok f s)
    (h : ok = true) (p : P { s with dev := f s.fuse s.dev }) : Completes i s P := ⟨_, e.trans (guardFuse_pos h), p⟩
theorem Completes.burn {i : Instr} {s : State} {P : State → Prop} {ok : Bool} (f : Fuses → Dev → Fuses × Dev)
    (e : exec i s = guardBurn ok f s) (h : ok = true)
    (p : P { s with dev := (f s.fuse s.dev).2, fuse := (f s.fuse s.dev).1 }) : Completes i s P := ⟨_, e.trans (guardBurn_pos h), p⟩

/-- An effect on the device that keeps its parts is a frame of the command. -/
theorem Keeps.of_dev {ps : List Part} {s : State} {d : Dev} (h : Dev.Keeps ps s.dev d) : Keeps ps s { s with dev := d } := ⟨rfl, rfl, h⟩

/-- A part outside the frame is unchanged. -/
theorem Keeps.part {ps : List Part} {s t : State} (h : Keeps ps s t) (p : Part) (k : p ∉ ps) : p.same s.dev t.dev := h.2.2 p k

end Sys2Proof.Machine
end

