-- ==== Sys2Proof/Laws/KeepsMore.lean ====
section
/-!
SUPPORT. For each operation on the device, the parts it can change (`_keep`), and the same as a rewrite rule (`_keeps`).
-/
namespace Sys2Proof.Machine

theorem Dev.Keeps.foldl_p {β γ : Type} {ps : List Part} {a : Dev} (p : γ → Dev) {f : γ → β → γ} (h : ∀ s x, Dev.Keeps ps (p s) (p (f s x))) :
    ∀ (l : List β) (s : γ), Dev.Keeps ps a (p (l.foldl f s)) ↔ Dev.Keeps ps a (p s)
  | [], _ => Iff.rfl
  | x :: l, s => (Dev.Keeps.foldl_p p h l (f s x)).trans ⟨fun k => fun q hq => ((k q hq).trans ((h s x) q hq).symm), fun k => k.trans (h s x)⟩

theorem Dev.setSpare_keep (d : Dev) (c : Nat) (n : Nat) (v : Spare) : Dev.Keeps [.graft] d (Dev.setSpare d c n v) := by unfold Dev.setSpare; repeat' (first | simp | refine (Dev.Keeps.foldl (fun b x => ?_) _ _).mpr ?_ | split)
@[simp ↓] theorem Dev.setSpare_keeps (ps : List Part) (a₀ d : Dev) (c : Nat) (n : Nat) (v : Spare) (hps : [.graft] ⊆ ps) : Dev.Keeps ps a₀ (Dev.setSpare d c n v) ↔ Dev.Keeps ps a₀ d :=
  Dev.Keeps.drop (Dev.setSpare_keep d c n v) hps
theorem Dev.setTrunk_keep (d : Dev) (t : Nat) (g : Nat) (v : Spare) : Dev.Keeps [.graft] d (Dev.setTrunk d t g v) := by unfold Dev.setTrunk; repeat' (first | simp | refine (Dev.Keeps.foldl (fun b x => ?_) _ _).mpr ?_ | split)
@[simp ↓] theorem Dev.setTrunk_keeps (ps : List Part) (a₀ d : Dev) (t : Nat) (g : Nat) (v : Spare) (hps : [.graft] ⊆ ps) : Dev.Keeps ps a₀ (Dev.setTrunk d t g v) ↔ Dev.Keeps ps a₀ d :=
  Dev.Keeps.drop (Dev.setTrunk_keep d t g v) hps
theorem Dev.elogWrite_keep (d : Dev) (e : ELog) : Dev.Keeps [.telem, .ecc, .csr] d (Dev.elogWrite d e) := by unfold Dev.elogWrite; repeat' (first | simp | refine (Dev.Keeps.foldl (fun b x => ?_) _ _).mpr ?_ | split)
@[simp ↓] theorem Dev.elogWrite_keeps (ps : List Part) (a₀ d : Dev) (e : ELog) (hps : [.telem, .ecc, .csr] ⊆ ps) : Dev.Keeps ps a₀ (Dev.elogWrite d e) ↔ Dev.Keeps ps a₀ d :=
  Dev.Keeps.drop (Dev.elogWrite_keep d e) hps
theorem Dev.repairDue_keep (d : Dev)  : Dev.Keeps [.graft] d (Dev.repairDue d) := by unfold Dev.repairDue; repeat' (first | simp | refine (Dev.Keeps.foldl (fun b x => ?_) _ _).mpr ?_ | split)
@[simp ↓] theorem Dev.repairDue_keeps (ps : List Part) (a₀ d : Dev)  (hps : [.graft] ⊆ ps) : Dev.Keeps ps a₀ (Dev.repairDue d) ↔ Dev.Keeps ps a₀ d :=
  Dev.Keeps.drop (Dev.repairDue_keep d ) hps
theorem Dev.degrade_keep (d : Dev) (c : Nat) : Dev.Keeps [.dram, .graft] d (Dev.degrade d c) := by unfold Dev.degrade; repeat' (first | simp | refine (Dev.Keeps.foldl (fun b x => ?_) _ _).mpr ?_ | split)
@[simp ↓] theorem Dev.degrade_keeps (ps : List Part) (a₀ d : Dev) (c : Nat) (hps : [.dram, .graft] ⊆ ps) : Dev.Keeps ps a₀ (Dev.degrade d c) ↔ Dev.Keeps ps a₀ d :=
  Dev.Keeps.drop (Dev.degrade_keep d c) hps
theorem Dev.degrade181_keep (d : Dev) (c : Nat) : Dev.Keeps [.fault, .mbox, .telem, .dram, .graft, .csr, .ctr] d (Dev.degrade181 d c) := by unfold Dev.degrade181; repeat' (first | simp | refine (Dev.Keeps.foldl (fun b x => ?_) _ _).mpr ?_ | split)
@[simp ↓] theorem Dev.degrade181_keeps (ps : List Part) (a₀ d : Dev) (c : Nat) (hps : [.fault, .mbox, .telem, .dram, .graft, .csr, .ctr] ⊆ ps) : Dev.Keeps ps a₀ (Dev.degrade181 d c) ↔ Dev.Keeps ps a₀ d :=
  Dev.Keeps.drop (Dev.degrade181_keep d c) hps
theorem Dev.availEvent_keep (d : Dev) (cond : Nat) (holds : Bool) (port : Nat) : Dev.Keeps [.fault, .mbox, .telem, .csr, .ctr] d (Dev.availEvent d cond holds port) := by unfold Dev.availEvent; repeat' (first | simp | refine (Dev.Keeps.foldl (fun b x => ?_) _ _).mpr ?_ | split)
@[simp ↓] theorem Dev.availEvent_keeps (ps : List Part) (a₀ d : Dev) (cond : Nat) (holds : Bool) (port : Nat) (hps : [.fault, .mbox, .telem, .csr, .ctr] ⊆ ps) : Dev.Keeps ps a₀ (Dev.availEvent d cond holds port) ↔ Dev.Keeps ps a₀ d :=
  Dev.Keeps.drop (Dev.availEvent_keep d cond holds port) hps
theorem Dev.failed_keep (d : Dev) (c : Nat) (lost : List Nat) :
    Dev.Keeps [.mem, .dram, .graft] d (((((d.degrade c).modCh c (fun x => { x with st := .degraded, failed := true, sr := none })).modMem
      (fun m => { m with lost := m.lost ++ lost })).modEvac c (fun e => { e with done := e.done + lost.length }))) := by simp
theorem Dev.reserveReport_keep (d e : Dev) : Dev.Keeps [.fault, .csr, .ctr, .mbox, .telem] e (Dev.reserveReport d e) := by
  unfold Dev.reserveReport; repeat' (first | simp | split)
@[simp ↓] theorem Dev.reserveReport_keeps (ps : List Part) (a d e : Dev) (hps : [.fault, .csr, .ctr, .mbox, .telem] ⊆ ps) :
    Dev.Keeps ps a (Dev.reserveReport d e) ↔ Dev.Keeps ps a e := Dev.Keeps.drop (Dev.reserveReport_keep d e) hps
theorem Dev.failChannel_keep (d : Dev) (c : Nat) (cause : Nat) : Dev.Keeps [.fault, .mbox, .telem, .mem, .dram, .graft, .csr, .ctr] d (Dev.failChannel d c cause) := by
  unfold Dev.failChannel; extract_lets lost d1 d2 d3 d4
  have h4 : Dev.Keeps [.fault, .mbox, .telem, .mem, .dram, .graft, .csr, .ctr] d d4 := (Dev.failed_keep d c lost).mono (by simp)
  clear_value d4
  split
  · exact Dev.Keeps.refl _ _
  · rw [Dev.reserveReport_keeps _ _ _ _ (by simp)]; simpa using h4
@[simp ↓] theorem Dev.failChannel_keeps (ps : List Part) (a₀ d : Dev) (c : Nat) (cause : Nat) (hps : [.fault, .mbox, .telem, .mem, .dram, .graft, .csr, .ctr] ⊆ ps) : Dev.Keeps ps a₀ (Dev.failChannel d c cause) ↔ Dev.Keeps ps a₀ d :=
  Dev.Keeps.drop (Dev.failChannel_keep d c cause) hps
theorem Dev.markPin_keep (d : Dev) (c : Nat) (p : Nat) : Dev.Keeps [.fault, .mbox, .telem, .dram, .graft, .csr, .ctr] d (Dev.markPin d c p) := by unfold Dev.markPin; repeat' (first | simp | refine (Dev.Keeps.foldl (fun b x => ?_) _ _).mpr ?_ | split)
@[simp ↓] theorem Dev.markPin_keeps (ps : List Part) (a₀ d : Dev) (c : Nat) (p : Nat) (hps : [.fault, .mbox, .telem, .dram, .graft, .csr, .ctr] ⊆ ps) : Dev.Keeps ps a₀ (Dev.markPin d c p) ↔ Dev.Keeps ps a₀ d :=
  Dev.Keeps.drop (Dev.markPin_keep d c p) hps
theorem Dev.graftTo_keep (d : Dev) (c : Nat) (l : Nat) (n : Nat) : Dev.Keeps [.fault, .mbox, .telem, .dram, .ecc, .graft, .csr, .ctr] d (Dev.graftTo d c l n) := by unfold Dev.graftTo; repeat' (first | simp | refine (Dev.Keeps.foldl (fun b x => ?_) _ _).mpr ?_ | split)
@[simp ↓] theorem Dev.graftTo_keeps (ps : List Part) (a₀ d : Dev) (c : Nat) (l : Nat) (n : Nat) (hps : [.fault, .mbox, .telem, .dram, .ecc, .graft, .csr, .ctr] ⊆ ps) : Dev.Keeps ps a₀ (Dev.graftTo d c l n) ↔ Dev.Keeps ps a₀ d :=
  Dev.Keeps.drop (Dev.graftTo_keep d c l n) hps
theorem Dev.roleFailed_keep (d : Dev) (c : Nat) (l : Nat) : Dev.Keeps [.fault, .mbox, .telem, .mem, .dram, .ecc, .graft, .csr, .ctr] d (Dev.roleFailed d c l) := by unfold Dev.roleFailed; repeat' (first | simp | refine (Dev.Keeps.foldl (fun b x => ?_) _ _).mpr ?_ | split)
@[simp ↓] theorem Dev.roleFailed_keeps (ps : List Part) (a₀ d : Dev) (c : Nat) (l : Nat) (hps : [.fault, .mbox, .telem, .mem, .dram, .ecc, .graft, .csr, .ctr] ⊆ ps) : Dev.Keeps ps a₀ (Dev.roleFailed d c l) ↔ Dev.Keeps ps a₀ d :=
  Dev.Keeps.drop (Dev.roleFailed_keep d c l) hps
theorem Dev.linkFailed_keep (d : Dev) (c : Nat) (l : Nat) (byRole : Bool) : Dev.Keeps [.fault, .mbox, .telem, .mem, .dram, .ecc, .graft, .csr, .ctr] d (Dev.linkFailed d c l byRole) := by unfold Dev.linkFailed; repeat' (first | simp | refine (Dev.Keeps.foldl (fun b x => ?_) _ _).mpr ?_ | split)
@[simp ↓] theorem Dev.linkFailed_keeps (ps : List Part) (a₀ d : Dev) (c : Nat) (l : Nat) (byRole : Bool) (hps : [.fault, .mbox, .telem, .mem, .dram, .ecc, .graft, .csr, .ctr] ⊆ ps) : Dev.Keeps ps a₀ (Dev.linkFailed d c l byRole) ↔ Dev.Keeps ps a₀ d :=
  Dev.Keeps.drop (Dev.linkFailed_keep d c l byRole) hps
theorem Dev.trunkFailed_keep (d : Dev) (t : Nat) (sig : Nat) : Dev.Keeps [.fault, .mbox, .telem, .mem, .dram, .graft, .csr, .ctr] d (Dev.trunkFailed d t sig) := by unfold Dev.trunkFailed; repeat' (first | simp | refine (Dev.Keeps.foldl (fun b x => ?_) _ _).mpr ?_ | split)
@[simp ↓] theorem Dev.trunkFailed_keeps (ps : List Part) (a₀ d : Dev) (t : Nat) (sig : Nat) (hps : [.fault, .mbox, .telem, .mem, .dram, .graft, .csr, .ctr] ⊆ ps) : Dev.Keeps ps a₀ (Dev.trunkFailed d t sig) ↔ Dev.Keeps ps a₀ d :=
  Dev.Keeps.drop (Dev.trunkFailed_keep d t sig) hps
theorem Dev.ceRoll_keep (d : Dev) (k : Nat) : Dev.Keeps [.ecc] d (Dev.ceRoll d k) := by unfold Dev.ceRoll; repeat' (first | simp | refine (Dev.Keeps.foldl (fun b x => ?_) _ _).mpr ?_ | split)
@[simp ↓] theorem Dev.ceRoll_keeps (ps : List Part) (a₀ d : Dev) (k : Nat) (hps : [.ecc] ⊆ ps) : Dev.Keeps ps a₀ (Dev.ceRoll d k) ↔ Dev.Keeps ps a₀ d :=
  Dev.Keeps.drop (Dev.ceRoll_keep d k) hps
theorem Dev.ceCount_keep (d : Dev) (k : Nat) : Dev.Keeps [.fault, .mbox, .telem, .ecc, .csr, .ctr] d (Dev.ceCount d k) := by unfold Dev.ceCount; repeat' (first | simp | refine (Dev.Keeps.foldl (fun b x => ?_) _ _).mpr ?_ | split)
@[simp ↓] theorem Dev.ceCount_keeps (ps : List Part) (a₀ d : Dev) (k : Nat) (hps : [.fault, .mbox, .telem, .ecc, .csr, .ctr] ⊆ ps) : Dev.Keeps ps a₀ (Dev.ceCount d k) ↔ Dev.Keeps ps a₀ d :=
  Dev.Keeps.drop (Dev.ceCount_keep d k) hps
theorem Dev.markRoll_keep (d : Dev) (c : Nat) : Dev.Keeps [.ecc] d (Dev.markRoll d c) := by unfold Dev.markRoll; repeat' (first | simp | refine (Dev.Keeps.foldl (fun b x => ?_) _ _).mpr ?_ | split)
@[simp ↓] theorem Dev.markRoll_keeps (ps : List Part) (a₀ d : Dev) (c : Nat) (hps : [.ecc] ⊆ ps) : Dev.Keeps ps a₀ (Dev.markRoll d c) ↔ Dev.Keeps ps a₀ d :=
  Dev.Keeps.drop (Dev.markRoll_keep d c) hps
theorem Dev.pinCount_keep (d : Dev) (c : Nat) (p : Nat) (unit : Nat) : Dev.Keeps [.fault, .mbox, .telem, .mem, .dram, .ecc, .graft, .csr, .ctr] d (Dev.pinCount d c p unit).1 := by unfold Dev.pinCount; repeat' (first | simp | refine (Dev.Keeps.foldl (fun b x => ?_) _ _).mpr ?_ | split)
@[simp ↓] theorem Dev.pinCount_keeps (ps : List Part) (a₀ d : Dev) (c : Nat) (p : Nat) (unit : Nat) (hps : [.fault, .mbox, .telem, .mem, .dram, .ecc, .graft, .csr, .ctr] ⊆ ps) : Dev.Keeps ps a₀ (Dev.pinCount d c p unit).1 ↔ Dev.Keeps ps a₀ d :=
  Dev.Keeps.drop (Dev.pinCount_keep d c p unit) hps
theorem Dev.rowRoll_keep (d : Dev) (c : Nat) : Dev.Keeps [.graft] d (Dev.rowRoll d c) := by unfold Dev.rowRoll; repeat' (first | simp | refine (Dev.Keeps.foldl (fun b x => ?_) _ _).mpr ?_ | split)
@[simp ↓] theorem Dev.rowRoll_keeps (ps : List Part) (a₀ d : Dev) (c : Nat) (hps : [.graft] ⊆ ps) : Dev.Keeps ps a₀ (Dev.rowRoll d c) ↔ Dev.Keeps ps a₀ d :=
  Dev.Keeps.drop (Dev.rowRoll_keep d c) hps
theorem Dev.rowCount_keep (d : Dev) (c : Nat) (p : Nat) : Dev.Keeps [.graft] d (Dev.rowCount d c p).1 := by unfold Dev.rowCount; repeat' (first | simp | refine (Dev.Keeps.foldl (fun b x => ?_) _ _).mpr ?_ | split)
@[simp ↓] theorem Dev.rowCount_keeps (ps : List Part) (a₀ d : Dev) (c : Nat) (p : Nat) (hps : [.graft] ⊆ ps) : Dev.Keeps ps a₀ (Dev.rowCount d c p).1 ↔ Dev.Keeps ps a₀ d :=
  Dev.Keeps.drop (Dev.rowCount_keep d c p) hps
theorem Dev.rollCe_keep (d : Dev)  : Dev.Keeps [.ecc] d (Dev.rollCe d) := by unfold Dev.rollCe; repeat' (first | simp | refine (Dev.Keeps.foldl (fun b x => ?_) _ _).mpr ?_ | split)
@[simp ↓] theorem Dev.rollCe_keeps (ps : List Part) (a₀ d : Dev)  (hps : [.ecc] ⊆ ps) : Dev.Keeps ps a₀ (Dev.rollCe d) ↔ Dev.Keeps ps a₀ d :=
  Dev.Keeps.drop (Dev.rollCe_keep d ) hps
theorem Dev.rollMark_keep (d : Dev)  : Dev.Keeps [.ecc] d (Dev.rollMark d) := by unfold Dev.rollMark; repeat' (first | simp | refine (Dev.Keeps.foldl (fun b x => ?_) _ _).mpr ?_ | split)
@[simp ↓] theorem Dev.rollMark_keeps (ps : List Part) (a₀ d : Dev)  (hps : [.ecc] ⊆ ps) : Dev.Keeps ps a₀ (Dev.rollMark d) ↔ Dev.Keeps ps a₀ d :=
  Dev.Keeps.drop (Dev.rollMark_keep d ) hps
theorem Dev.rollRow_keep (d : Dev)  : Dev.Keeps [.graft] d (Dev.rollRow d) := by unfold Dev.rollRow; repeat' (first | simp | refine (Dev.Keeps.foldl (fun b x => ?_) _ _).mpr ?_ | split)
@[simp ↓] theorem Dev.rollRow_keeps (ps : List Part) (a₀ d : Dev)  (hps : [.graft] ⊆ ps) : Dev.Keeps ps a₀ (Dev.rollRow d) ↔ Dev.Keeps ps a₀ d :=
  Dev.Keeps.drop (Dev.rollRow_keep d ) hps
theorem Dev.dramBad_keep (d : Dev) (p : Nat) (src : Nat) (kind : Nat) (pins : Nat) (ptn : Option Nat) : Dev.Keeps [.fault, .mbox, .telem, .dram, .ecc, .csr, .ctr] d (Dev.dramBad d p src kind pins ptn) := by unfold Dev.dramBad; repeat' (first | simp | refine (Dev.Keeps.foldl (fun b x => ?_) _ _).mpr ?_ | split)
@[simp ↓] theorem Dev.dramBad_keeps (ps : List Part) (a₀ d : Dev) (p : Nat) (src : Nat) (kind : Nat) (pins : Nat) (ptn : Option Nat) (hps : [.fault, .mbox, .telem, .dram, .ecc, .csr, .ctr] ⊆ ps) : Dev.Keeps ps a₀ (Dev.dramBad d p src kind pins ptn) ↔ Dev.Keeps ps a₀ d :=
  Dev.Keeps.drop (Dev.dramBad_keep d p src kind pins ptn) hps
theorem Dev.injDone_keep (d : Dev)  : Dev.Keeps [.csr, .ctr] d (Dev.injDone d) := by unfold Dev.injDone; repeat' (first | simp | refine (Dev.Keeps.foldl (fun b x => ?_) _ _).mpr ?_ | split)
@[simp ↓] theorem Dev.injDone_keeps (ps : List Part) (a₀ d : Dev)  (hps : [.csr, .ctr] ⊆ ps) : Dev.Keeps ps a₀ (Dev.injDone d) ↔ Dev.Keeps ps a₀ d :=
  Dev.Keeps.drop (Dev.injDone_keep d ) hps
theorem Dev.countCe_keep (d : Dev) (c : Nat) : Dev.Keeps [.fault, .mbox, .telem, .ecc, .csr, .ctr] d (Dev.countCe d c) := by unfold Dev.countCe; repeat' (first | simp | refine (Dev.Keeps.foldl (fun b x => ?_) _ _).mpr ?_ | split)
@[simp ↓] theorem Dev.countCe_keeps (ps : List Part) (a₀ d : Dev) (c : Nat) (hps : [.fault, .mbox, .telem, .ecc, .csr, .ctr] ⊆ ps) : Dev.Keeps ps a₀ (Dev.countCe d c) ↔ Dev.Keeps ps a₀ d :=
  Dev.Keeps.drop (Dev.countCe_keep d c) hps
theorem Dev.writeBack_keep (d : Dev) (p : Nat) (q : Nat) (e : Nat) : Dev.Keeps [.mem, .csr, .ctr] d (Dev.writeBack d p q e) := by unfold Dev.writeBack; repeat' (first | simp | refine (Dev.Keeps.foldl (fun b x => ?_) _ _).mpr ?_ | split)
@[simp ↓] theorem Dev.writeBack_keeps (ps : List Part) (a₀ d : Dev) (p : Nat) (q : Nat) (e : Nat) (hps : [.mem, .csr, .ctr] ⊆ ps) : Dev.Keeps ps a₀ (Dev.writeBack d p q e) ↔ Dev.Keeps ps a₀ d :=
  Dev.Keeps.drop (Dev.writeBack_keep d p q e) hps
theorem Dev.rowCopy_keep (d : Dev) (c : Nat) (bank : Nat) (row : Nat) : Dev.Keeps [.fault, .mbox, .telem, .mem, .dram, .ecc, .csr, .ctr, .free] d (Dev.rowCopy d c bank row) := by unfold Dev.rowCopy; repeat' (first | simp | refine (Dev.Keeps.foldl (fun b x => ?_) _ _).mpr ?_ | split)
@[simp ↓] theorem Dev.rowCopy_keeps (ps : List Part) (a₀ d : Dev) (c : Nat) (bank : Nat) (row : Nat) (hps : [.fault, .mbox, .telem, .mem, .dram, .ecc, .csr, .ctr, .free] ⊆ ps) : Dev.Keeps ps a₀ (Dev.rowCopy d c bank row) ↔ Dev.Keeps ps a₀ d :=
  Dev.Keeps.drop (Dev.rowCopy_keep d c bank row) hps
theorem Dev.fillMark_keep (d : Dev) (blk : Nat) (i : Nat) (tc : Nat) (chipid : Nat) : Dev.Keeps [.mem] d (Dev.fillMark d blk i tc chipid) := by unfold Dev.fillMark; repeat' (first | simp | refine (Dev.Keeps.foldl (fun b x => ?_) _ _).mpr ?_ | split)
@[simp ↓] theorem Dev.fillMark_keeps (ps : List Part) (a₀ d : Dev) (blk : Nat) (i : Nat) (tc : Nat) (chipid : Nat) (hps : [.mem] ⊆ ps) : Dev.Keeps ps a₀ (Dev.fillMark d blk i tc chipid) ↔ Dev.Keeps ps a₀ d :=
  Dev.Keeps.drop (Dev.fillMark_keep d blk i tc chipid) hps
theorem Dev.writeUnit_keep (d : Dev) (p : Nat) (bs : List Byte) (tc : Nat) (chipid : Nat) : Dev.Keeps [.mem, .csr, .ctr] d (Dev.writeUnit d p bs tc chipid).1 := by unfold Dev.writeUnit; repeat' (first | simp | refine (Dev.Keeps.foldl (fun b x => ?_) _ _).mpr ?_ | split)
@[simp ↓] theorem Dev.writeUnit_keeps (ps : List Part) (a₀ d : Dev) (p : Nat) (bs : List Byte) (tc : Nat) (chipid : Nat) (hps : [.mem, .csr, .ctr] ⊆ ps) : Dev.Keeps ps a₀ (Dev.writeUnit d p bs tc chipid).1 ↔ Dev.Keeps ps a₀ d :=
  Dev.Keeps.drop (Dev.writeUnit_keep d p bs tc chipid) hps
theorem Dev.supersede_keep (d : Dev) (p : Nat) : Dev.Keeps [.dram] d (Dev.supersede d p) := by unfold Dev.supersede; repeat' (first | simp | refine (Dev.Keeps.foldl (fun b x => ?_) _ _).mpr ?_ | split)
@[simp ↓] theorem Dev.supersede_keeps (ps : List Part) (a₀ d : Dev) (p : Nat) (hps : [.dram] ⊆ ps) : Dev.Keeps ps a₀ (Dev.supersede d p) ↔ Dev.Keeps ps a₀ d :=
  Dev.Keeps.drop (Dev.supersede_keep d p) hps
theorem Dev.writeNow_keep (d : Dev) (p : Nat) (bs : List Byte) (tc : Nat) (chipid : Nat) : Dev.Keeps [.mem, .dram, .csr, .ctr] d (Dev.writeNow d p bs tc chipid) := by unfold Dev.writeNow; repeat' (first | simp | refine (Dev.Keeps.foldl (fun b x => ?_) _ _).mpr ?_ | split)
@[simp ↓] theorem Dev.writeNow_keeps (ps : List Part) (a₀ d : Dev) (p : Nat) (bs : List Byte) (tc : Nat) (chipid : Nat) (hps : [.mem, .dram, .csr, .ctr] ⊆ ps) : Dev.Keeps ps a₀ (Dev.writeNow d p bs tc chipid) ↔ Dev.Keeps ps a₀ d :=
  Dev.Keeps.drop (Dev.writeNow_keep d p bs tc chipid) hps
theorem Dev.sramBad_keep (d : Dev) (a : Nat) (src : Nat) (ptn : Option Nat) : Dev.Keeps [.fault, .mbox, .telem, .ecc, .csr, .ctr] d (Dev.sramBad d a src ptn) := by unfold Dev.sramBad; repeat' (first | simp | refine (Dev.Keeps.foldl (fun b x => ?_) _ _).mpr ?_ | split)
@[simp ↓] theorem Dev.sramBad_keeps (ps : List Part) (a₀ d : Dev) (a : Nat) (src : Nat) (ptn : Option Nat) (hps : [.fault, .mbox, .telem, .ecc, .csr, .ctr] ⊆ ps) : Dev.Keeps ps a₀ (Dev.sramBad d a src ptn) ↔ Dev.Keeps ps a₀ d :=
  Dev.Keeps.drop (Dev.sramBad_keep d a src ptn) hps
theorem Dev.readSByte_keep (d : Dev) (a : Nat) (src : Nat) (ptn : Option Nat) : Dev.Keeps [.fault, .mbox, .telem, .mem, .ecc, .csr, .ctr, .free] d (Dev.readSByte d a src ptn).2.2 := by unfold Dev.readSByte; repeat' (first | simp | refine (Dev.Keeps.foldl (fun b x => ?_) _ _).mpr ?_ | split)
@[simp ↓] theorem Dev.readSByte_keeps (ps : List Part) (a₀ d : Dev) (a : Nat) (src : Nat) (ptn : Option Nat) (hps : [.fault, .mbox, .telem, .mem, .ecc, .csr, .ctr, .free] ⊆ ps) : Dev.Keeps ps a₀ (Dev.readSByte d a src ptn).2.2 ↔ Dev.Keeps ps a₀ d :=
  Dev.Keeps.drop (Dev.readSByte_keep d a src ptn) hps
theorem Dev.readSram_keep (d : Dev) (a : Nat) (n : Nat) (src : Nat) (ptn : Option Nat) : Dev.Keeps [.fault, .mbox, .telem, .mem, .ecc, .csr, .ctr, .free] d (Dev.readSram d a n src ptn).2.2 := by
  unfold Dev.readSram; extract_lets r
  have h : Dev.Keeps [.fault, .mbox, .telem, .mem, .ecc, .csr, .ctr, .free] d r.2.2 := (Dev.Keeps.foldl_p (γ := List Byte × Bool × Dev) (fun s => s.2.2) (fun s x => by simp) _ _).mpr (by simp)
  split <;> exact h
@[simp ↓] theorem Dev.readSram_keeps (ps : List Part) (a₀ d : Dev) (a : Nat) (n : Nat) (src : Nat) (ptn : Option Nat) (hps : [.fault, .mbox, .telem, .mem, .ecc, .csr, .ctr, .free] ⊆ ps) : Dev.Keeps ps a₀ (Dev.readSram d a n src ptn).2.2 ↔ Dev.Keeps ps a₀ d :=
  Dev.Keeps.drop (Dev.readSram_keep d a n src ptn) hps
theorem Dev.injWritten_keep (d : Dev) (words : List Nat) (hit : Nat → Bool) : Dev.Keeps [.mem, .csr, .ctr] d (Dev.injWritten d words hit) := by unfold Dev.injWritten; repeat' (first | simp | refine (Dev.Keeps.foldl (fun b x => ?_) _ _).mpr ?_ | split)
@[simp ↓] theorem Dev.injWritten_keeps (ps : List Part) (a₀ d : Dev) (words : List Nat) (hit : Nat → Bool) (hps : [.mem, .csr, .ctr] ⊆ ps) : Dev.Keeps ps a₀ (Dev.injWritten d words hit) ↔ Dev.Keeps ps a₀ d :=
  Dev.Keeps.drop (Dev.injWritten_keep d words hit) hps
theorem Dev.writeSram_keep (d : Dev) (a : Nat) (bs : List (Nat × Byte)) : Dev.Keeps [.mem, .csr, .ctr] d (Dev.writeSram d a bs) := by unfold Dev.writeSram; repeat' (first | simp | refine (Dev.Keeps.foldl (fun b x => ?_) _ _).mpr ?_ | split)
@[simp ↓] theorem Dev.writeSram_keeps (ps : List Part) (a₀ d : Dev) (a : Nat) (bs : List (Nat × Byte)) (hps : [.mem, .csr, .ctr] ⊆ ps) : Dev.Keeps ps a₀ (Dev.writeSram d a bs) ↔ Dev.Keeps ps a₀ d :=
  Dev.Keeps.drop (Dev.writeSram_keep d a bs) hps
theorem Dev.storeWritten_keep (d : Dev) (a : Nat) (n : Nat) : Dev.Keeps [.mem, .csr, .ctr] d (Dev.storeWritten d a n) := by unfold Dev.storeWritten; repeat' (first | simp | refine (Dev.Keeps.foldl (fun b x => ?_) _ _).mpr ?_ | split)
@[simp ↓] theorem Dev.storeWritten_keeps (ps : List Part) (a₀ d : Dev) (a : Nat) (n : Nat) (hps : [.mem, .csr, .ctr] ⊆ ps) : Dev.Keeps ps a₀ (Dev.storeWritten d a n) ↔ Dev.Keeps ps a₀ d :=
  Dev.Keeps.drop (Dev.storeWritten_keep d a n) hps
theorem Dev.holdTag_keep (d : Dev) (k : Nat) (tag : Nat) : Dev.Keeps [.txn] d (Dev.holdTag d k tag) := by unfold Dev.holdTag; repeat' (first | simp | refine (Dev.Keeps.foldl (fun b x => ?_) _ _).mpr ?_ | split)
@[simp ↓] theorem Dev.holdTag_keeps (ps : List Part) (a₀ d : Dev) (k : Nat) (tag : Nat) (hps : [.txn] ⊆ ps) : Dev.Keeps ps a₀ (Dev.holdTag d k tag) ↔ Dev.Keeps ps a₀ d :=
  Dev.Keeps.drop (Dev.holdTag_keep d k tag) hps
theorem Dev.freeTag_keep (d : Dev) (k : Nat) (tag : Nat) : Dev.Keeps [.txn] d (Dev.freeTag d k tag) := by unfold Dev.freeTag; repeat' (first | simp | refine (Dev.Keeps.foldl (fun b x => ?_) _ _).mpr ?_ | split)
@[simp ↓] theorem Dev.freeTag_keeps (ps : List Part) (a₀ d : Dev) (k : Nat) (tag : Nat) (hps : [.txn] ⊆ ps) : Dev.Keeps ps a₀ (Dev.freeTag d k tag) ↔ Dev.Keeps ps a₀ d :=
  Dev.Keeps.drop (Dev.freeTag_keep d k tag) hps
theorem Dev.refuseVc3_keep (d : Dev) (k : Nat) (port : Nat) (raw : Nat) : Dev.Keeps [.fault, .mbox, .telem, .csr, .ctr] d (Dev.refuseVc3 d k port raw) := by unfold Dev.refuseVc3; repeat' (first | simp | refine (Dev.Keeps.foldl (fun b x => ?_) _ _).mpr ?_ | split)
@[simp ↓] theorem Dev.refuseVc3_keeps (ps : List Part) (a₀ d : Dev) (k : Nat) (port : Nat) (raw : Nat) (hps : [.fault, .mbox, .telem, .csr, .ctr] ⊆ ps) : Dev.Keeps ps a₀ (Dev.refuseVc3 d k port raw) ↔ Dev.Keeps ps a₀ d :=
  Dev.Keeps.drop (Dev.refuseVc3_keep d k port raw) hps
theorem Dev.dropReq_keep (d : Dev) (id : Nat) : Dev.Keeps [.txn] d (Dev.dropReq d id) := by unfold Dev.dropReq; repeat' (first | simp | refine (Dev.Keeps.foldl (fun b x => ?_) _ _).mpr ?_ | split)
@[simp ↓] theorem Dev.dropReq_keeps (ps : List Part) (a₀ d : Dev) (id : Nat) (hps : [.txn] ⊆ ps) : Dev.Keeps ps a₀ (Dev.dropReq d id) ↔ Dev.Keeps ps a₀ d :=
  Dev.Keeps.drop (Dev.dropReq_keep d id) hps
theorem Dev.modReq_keep (d : Dev) (id : Nat) (f : Req → Req) : Dev.Keeps [.txn] d (Dev.modReq d id f) := by unfold Dev.modReq; repeat' (first | simp | refine (Dev.Keeps.foldl (fun b x => ?_) _ _).mpr ?_ | split)
@[simp ↓] theorem Dev.modReq_keeps (ps : List Part) (a₀ d : Dev) (id : Nat) (f : Req → Req) (hps : [.txn] ⊆ ps) : Dev.Keeps ps a₀ (Dev.modReq d id f) ↔ Dev.Keeps ps a₀ d :=
  Dev.Keeps.drop (Dev.modReq_keep d id f) hps
theorem Dev.arbStamp_keep (d : Dev) (k : Nat) (tag : Nat) : Dev.Keeps [.telem, .txn] d (Dev.arbStamp d k tag) := by unfold Dev.arbStamp; repeat' (first | simp | refine (Dev.Keeps.foldl (fun b x => ?_) _ _).mpr ?_ | split)
@[simp ↓] theorem Dev.arbStamp_keeps (ps : List Part) (a₀ d : Dev) (k : Nat) (tag : Nat) (hps : [.telem, .txn] ⊆ ps) : Dev.Keeps ps a₀ (Dev.arbStamp d k tag) ↔ Dev.Keeps ps a₀ d :=
  Dev.Keeps.drop (Dev.arbStamp_keep d k tag) hps
theorem Dev.waitRoom_keep (d : Dev) (id : Nat) : Dev.Keeps [.txn] d (Dev.waitRoom d id) := by unfold Dev.waitRoom; repeat' (first | simp | refine (Dev.Keeps.foldl (fun b x => ?_) _ _).mpr ?_ | split)
@[simp ↓] theorem Dev.waitRoom_keeps (ps : List Part) (a₀ d : Dev) (id : Nat) (hps : [.txn] ⊆ ps) : Dev.Keeps ps a₀ (Dev.waitRoom d id) ↔ Dev.Keeps ps a₀ d :=
  Dev.Keeps.drop (Dev.waitRoom_keep d id) hps
theorem Dev.unreserve_keep (d : Dev) (k : Nat) (a : Nat) (b : Nat) : Dev.Keeps [.txn] d (Dev.unreserve d k a b) := by unfold Dev.unreserve; repeat' (first | simp | refine (Dev.Keeps.foldl (fun b x => ?_) _ _).mpr ?_ | split)
@[simp ↓] theorem Dev.unreserve_keeps (ps : List Part) (a₀ d : Dev) (k : Nat) (a : Nat) (b : Nat) (hps : [.txn] ⊆ ps) : Dev.Keeps ps a₀ (Dev.unreserve d k a b) ↔ Dev.Keeps ps a₀ d :=
  Dev.Keeps.drop (Dev.unreserve_keep d k a b) hps
theorem Dev.modFrag_keep (d : Dev) (id : Nat) (fidx : Nat) (g : FragSt → FragSt) : Dev.Keeps [.txn] d (Dev.modFrag d id fidx g) := by unfold Dev.modFrag; repeat' (first | simp | refine (Dev.Keeps.foldl (fun b x => ?_) _ _).mpr ?_ | split)
@[simp ↓] theorem Dev.modFrag_keeps (ps : List Part) (a₀ d : Dev) (id : Nat) (fidx : Nat) (g : FragSt → FragSt) (hps : [.txn] ⊆ ps) : Dev.Keeps ps a₀ (Dev.modFrag d id fidx g) ↔ Dev.Keeps ps a₀ d :=
  Dev.Keeps.drop (Dev.modFrag_keep d id fidx g) hps
theorem Dev.accReturn_keep (d : Dev) (id : Nat) (fidx : Nat) (ch : Nat) (u : UnitVal) : Dev.Keeps [.txn] d (Dev.accReturn d id fidx ch u) := by unfold Dev.accReturn; repeat' (first | simp | refine (Dev.Keeps.foldl (fun b x => ?_) _ _).mpr ?_ | split)
@[simp ↓] theorem Dev.accReturn_keeps (ps : List Part) (a₀ d : Dev) (id : Nat) (fidx : Nat) (ch : Nat) (u : UnitVal) (hps : [.txn] ⊆ ps) : Dev.Keeps ps a₀ (Dev.accReturn d id fidx ch u) ↔ Dev.Keeps ps a₀ d :=
  Dev.Keeps.drop (Dev.accReturn_keep d id fidx ch u) hps
theorem Dev.landed_keep (d : Dev) (id : Nat) (st : Status) : Dev.Keeps [.txn] d (Dev.landed d id st) := by unfold Dev.landed; repeat' (first | simp | refine (Dev.Keeps.foldl (fun b x => ?_) _ _).mpr ?_ | split)
@[simp ↓] theorem Dev.landed_keeps (ps : List Part) (a₀ d : Dev) (id : Nat) (st : Status) (hps : [.txn] ⊆ ps) : Dev.Keeps ps a₀ (Dev.landed d id st) ↔ Dev.Keeps ps a₀ d :=
  Dev.Keeps.drop (Dev.landed_keep d id st) hps
theorem Dev.claim_keep (d : Dev) (src : Nat) : Dev.Keeps [.telem, .txn, .ctr] d (Dev.claim d src) := by unfold Dev.claim; repeat' (first | simp | refine (Dev.Keeps.foldl (fun b x => ?_) _ _).mpr ?_ | split)
@[simp ↓] theorem Dev.claim_keeps (ps : List Part) (a₀ d : Dev) (src : Nat) (hps : [.telem, .txn, .ctr] ⊆ ps) : Dev.Keeps ps a₀ (Dev.claim d src) ↔ Dev.Keeps ps a₀ d :=
  Dev.Keeps.drop (Dev.claim_keep d src) hps
theorem Dev.freeCtx_keep (d : Dev)  : Dev.Keeps [.txn] d (Dev.freeCtx d) := by unfold Dev.freeCtx; repeat' (first | simp | refine (Dev.Keeps.foldl (fun b x => ?_) _ _).mpr ?_ | split)
@[simp ↓] theorem Dev.freeCtx_keeps (ps : List Part) (a₀ d : Dev)  (hps : [.txn] ⊆ ps) : Dev.Keeps ps a₀ (Dev.freeCtx d) ↔ Dev.Keeps ps a₀ d :=
  Dev.Keeps.drop (Dev.freeCtx_keep d ) hps
theorem Dev.freeUnit_keep (d : Dev) (u : Nat) : Dev.Keeps [.qm] d (Dev.freeUnit d u) := by unfold Dev.freeUnit; repeat' (first | simp | refine (Dev.Keeps.foldl (fun b x => ?_) _ _).mpr ?_ | split)
@[simp ↓] theorem Dev.freeUnit_keeps (ps : List Part) (a₀ d : Dev) (u : Nat) (hps : [.qm] ⊆ ps) : Dev.Keeps ps a₀ (Dev.freeUnit d u) ↔ Dev.Keeps ps a₀ d :=
  Dev.Keeps.drop (Dev.freeUnit_keep d u) hps
theorem Dev.freeCells_keep (d : Dev) (cs : List Nat) : Dev.Keeps [.qm] d (Dev.freeCells d cs) := by unfold Dev.freeCells; repeat' (first | simp | refine (Dev.Keeps.foldl (fun b x => ?_) _ _).mpr ?_ | split)
@[simp ↓] theorem Dev.freeCells_keeps (ps : List Part) (a₀ d : Dev) (cs : List Nat) (hps : [.qm] ⊆ ps) : Dev.Keeps ps a₀ (Dev.freeCells d cs) ↔ Dev.Keeps ps a₀ d :=
  Dev.Keeps.drop (Dev.freeCells_keep d cs) hps
theorem Dev.modOpen_keep (d : Dev) (id : Nat) (f : OpenEnq → OpenEnq) : Dev.Keeps [.qm] d (Dev.modOpen d id f) := by unfold Dev.modOpen; repeat' (first | simp | refine (Dev.Keeps.foldl (fun b x => ?_) _ _).mpr ?_ | split)
@[simp ↓] theorem Dev.modOpen_keeps (ps : List Part) (a₀ d : Dev) (id : Nat) (f : OpenEnq → OpenEnq) (hps : [.qm] ⊆ ps) : Dev.Keeps ps a₀ (Dev.modOpen d id f) ↔ Dev.Keeps ps a₀ d :=
  Dev.Keeps.drop (Dev.modOpen_keep d id f) hps
theorem Dev.rxFree_keep (d : Dev) (port : Nat) (vc : Nat) (n : Nat) : Dev.Keeps [.rx] d (Dev.rxFree d port vc n) := by unfold Dev.rxFree; repeat' (first | simp | refine (Dev.Keeps.foldl (fun b x => ?_) _ _).mpr ?_ | split)
@[simp ↓] theorem Dev.rxFree_keeps (ps : List Part) (a₀ d : Dev) (port : Nat) (vc : Nat) (n : Nat) (hps : [.rx] ⊆ ps) : Dev.Keeps ps a₀ (Dev.rxFree d port vc n) ↔ Dev.Keeps ps a₀ d :=
  Dev.Keeps.drop (Dev.rxFree_keep d port vc n) hps
theorem Dev.setArr_keep (d : Dev) (port : Nat) (a : Arriving) : Dev.Keeps [.qm] d (Dev.setArr d port a) := by unfold Dev.setArr; repeat' (first | simp | refine (Dev.Keeps.foldl (fun b x => ?_) _ _).mpr ?_ | split)
@[simp ↓] theorem Dev.setArr_keeps (ps : List Part) (a₀ d : Dev) (port : Nat) (a : Arriving) (hps : [.qm] ⊆ ps) : Dev.Keeps ps a₀ (Dev.setArr d port a) ↔ Dev.Keeps ps a₀ d :=
  Dev.Keeps.drop (Dev.setArr_keep d port a) hps
theorem Dev.arrDiscard_keep (d : Dev) (port : Nat) : Dev.Keeps [.rx, .qm] d (Dev.arrDiscard d port) := by unfold Dev.arrDiscard; repeat' (first | simp | refine (Dev.Keeps.foldl (fun b x => ?_) _ _).mpr ?_ | split)
@[simp ↓] theorem Dev.arrDiscard_keeps (ps : List Part) (a₀ d : Dev) (port : Nat) (hps : [.rx, .qm] ⊆ ps) : Dev.Keeps ps a₀ (Dev.arrDiscard d port) ↔ Dev.Keeps ps a₀ d :=
  Dev.Keeps.drop (Dev.arrDiscard_keep d port) hps
theorem Dev.enqGiveUp_keep (d : Dev) (o : OpenEnq) : Dev.Keeps [.rx, .txn, .qm] d (Dev.enqGiveUp d o) := by unfold Dev.enqGiveUp; repeat' (first | simp | refine (Dev.Keeps.foldl (fun b x => ?_) _ _).mpr ?_ | split)
@[simp ↓] theorem Dev.enqGiveUp_keeps (ps : List Part) (a₀ d : Dev) (o : OpenEnq) (hps : [.rx, .txn, .qm] ⊆ ps) : Dev.Keeps ps a₀ (Dev.enqGiveUp d o) ↔ Dev.Keeps ps a₀ d :=
  Dev.Keeps.drop (Dev.enqGiveUp_keep d o) hps
theorem Dev.qPost_keep (d : Dev) (q : Nat) (type : Nat) (body : List Byte) (mg : Bool) : Dev.Keeps [.fault, .mbox, .telem, .csr, .ctr] d (Dev.qPost d q type body mg) := by unfold Dev.qPost; repeat' (first | simp | refine (Dev.Keeps.foldl (fun b x => ?_) _ _).mpr ?_ | split)
@[simp ↓] theorem Dev.qPost_keeps (ps : List Part) (a₀ d : Dev) (q : Nat) (type : Nat) (body : List Byte) (mg : Bool) (hps : [.fault, .mbox, .telem, .csr, .ctr] ⊆ ps) : Dev.Keeps ps a₀ (Dev.qPost d q type body mg) ↔ Dev.Keeps ps a₀ d :=
  Dev.Keeps.drop (Dev.qPost_keep d q type body mg) hps
theorem Dev.unpark_keep (d : Dev) (id : Nat) : Dev.Keeps [.qm] d (Dev.unpark d id) := by unfold Dev.unpark; repeat' (first | simp | refine (Dev.Keeps.foldl (fun b x => ?_) _ _).mpr ?_ | split)
@[simp ↓] theorem Dev.unpark_keeps (ps : List Part) (a₀ d : Dev) (id : Nat) (hps : [.qm] ⊆ ps) : Dev.Keeps ps a₀ (Dev.unpark d id) ↔ Dev.Keeps ps a₀ d :=
  Dev.Keeps.drop (Dev.unpark_keep d id) hps
theorem Dev.sramScan_keep (d : Dev) (base : Nat) (n : Nat) (space : Nat) (src : Nat) : Dev.Keeps [.fault, .mbox, .telem, .mem, .ecc, .csr, .ctr, .free] d (Dev.sramScan d base n space src).1 := by
  unfold Dev.sramScan
  refine (Dev.Keeps.foldl_p (γ := Dev × Bool) (fun s => s.1) (fun s x => ?_) _ _).mpr (by simp)
  dsimp only; repeat' split
  all_goals simp
@[simp ↓] theorem Dev.sramScan_keeps (ps : List Part) (a₀ d : Dev) (base : Nat) (n : Nat) (space : Nat) (src : Nat) (hps : [.fault, .mbox, .telem, .mem, .ecc, .csr, .ctr, .free] ⊆ ps) : Dev.Keeps ps a₀ (Dev.sramScan d base n space src).1 ↔ Dev.Keeps ps a₀ d :=
  Dev.Keeps.drop (Dev.sramScan_keep d base n space src) hps
theorem Dev.xStop_keep (d : Dev) (x : Nat) (code : Nat) : Dev.Keeps [.xfer] d (Dev.xStop d x code) := by unfold Dev.xStop; repeat' (first | simp | refine (Dev.Keeps.foldl (fun b x => ?_) _ _).mpr ?_ | split)
@[simp ↓] theorem Dev.xStop_keeps (ps : List Part) (a₀ d : Dev) (x : Nat) (code : Nat) (hps : [.xfer] ⊆ ps) : Dev.Keeps ps a₀ (Dev.xStop d x code) ↔ Dev.Keeps ps a₀ d :=
  Dev.Keeps.drop (Dev.xStop_keep d x code) hps
theorem Dev.xFail_keep (d : Dev) (x : Nat) (code : Nat) : Dev.Keeps [.fault, .mbox, .telem, .xfer, .csr, .ctr] d (Dev.xFail d x code) := by unfold Dev.xFail; repeat' (first | simp | refine (Dev.Keeps.foldl (fun b x => ?_) _ _).mpr ?_ | split)
@[simp ↓] theorem Dev.xFail_keeps (ps : List Part) (a₀ d : Dev) (x : Nat) (code : Nat) (hps : [.fault, .mbox, .telem, .xfer, .csr, .ctr] ⊆ ps) : Dev.Keeps ps a₀ (Dev.xFail d x code) ↔ Dev.Keeps ps a₀ d :=
  Dev.Keeps.drop (Dev.xFail_keep d x code) hps
theorem Dev.xReturn_keep (d : Dev) (x : Nat) (seq : Nat) (n : Nat) (a : Access) (bs : List Byte) (bad : Bool) : Dev.Keeps [.fault, .mbox, .telem, .xfer, .csr, .ctr] d (Dev.xReturn d x seq n a bs bad) := by unfold Dev.xReturn; repeat' (first | simp | refine (Dev.Keeps.foldl (fun b x => ?_) _ _).mpr ?_ | split)
@[simp ↓] theorem Dev.xReturn_keeps (ps : List Part) (a₀ d : Dev) (x : Nat) (seq : Nat) (n : Nat) (a : Access) (bs : List Byte) (bad : Bool) (hps : [.fault, .mbox, .telem, .xfer, .csr, .ctr] ⊆ ps) : Dev.Keeps ps a₀ (Dev.xReturn d x seq n a bs bad) ↔ Dev.Keeps ps a₀ d :=
  Dev.Keeps.drop (Dev.xReturn_keep d x seq n a bs bad) hps
theorem Dev.rescalePost_keep (d : Dev) (o : Nat) (ids : List Nat) : Dev.Keeps [.fault, .mbox, .telem, .reg, .csr, .ctr] d (Dev.rescalePost d o ids) := by unfold Dev.rescalePost; repeat' (first | simp | refine (Dev.Keeps.foldl (fun b x => ?_) _ _).mpr ?_ | split)
@[simp ↓] theorem Dev.rescalePost_keeps (ps : List Part) (a₀ d : Dev) (o : Nat) (ids : List Nat) (hps : [.fault, .mbox, .telem, .reg, .csr, .ctr] ⊆ ps) : Dev.Keeps ps a₀ (Dev.rescalePost d o ids) ↔ Dev.Keeps ps a₀ d :=
  Dev.Keeps.drop (Dev.rescalePost_keep d o ids) hps
theorem Dev.rescaleReport_keep (d : Dev) (ids : List Nat) : Dev.Keeps [.fault, .mbox, .telem, .reg, .csr, .ctr] d (Dev.rescaleReport d ids) := by unfold Dev.rescaleReport; repeat' (first | simp | refine (Dev.Keeps.foldl (fun b x => ?_) _ _).mpr ?_ | split)
@[simp ↓] theorem Dev.rescaleReport_keeps (ps : List Part) (a₀ d : Dev) (ids : List Nat) (hps : [.fault, .mbox, .telem, .reg, .csr, .ctr] ⊆ ps) : Dev.Keeps ps a₀ (Dev.rescaleReport d ids) ↔ Dev.Keeps ps a₀ d :=
  Dev.Keeps.drop (Dev.rescaleReport_keep d ids) hps
theorem Dev.capRecord_keep (d : Dev)  : Dev.Keeps [.telem] d (Dev.capRecord d) := by unfold Dev.capRecord; repeat' (first | simp | refine (Dev.Keeps.foldl (fun b x => ?_) _ _).mpr ?_ | split)
@[simp ↓] theorem Dev.capRecord_keeps (ps : List Part) (a₀ d : Dev)  (hps : [.telem] ⊆ ps) : Dev.Keeps ps a₀ (Dev.capRecord d) ↔ Dev.Keeps ps a₀ d :=
  Dev.Keeps.drop (Dev.capRecord_keep d ) hps
theorem Dev.epochSync_keep (d : Dev)  : Dev.Keeps [.dram, .reg] d (Dev.epochSync d) := by unfold Dev.epochSync; repeat' (first | simp | refine (Dev.Keeps.foldl (fun b x => ?_) _ _).mpr ?_ | split)
@[simp ↓] theorem Dev.epochSync_keeps (ps : List Part) (a₀ d : Dev)  (hps : [.dram, .reg] ⊆ ps) : Dev.Keeps ps a₀ (Dev.epochSync d) ↔ Dev.Keeps ps a₀ d :=
  Dev.Keeps.drop (Dev.epochSync_keep d ) hps
theorem Dev.epochCompute_keep (d : Dev)  : Dev.Keeps [.fault, .mbox, .telem, .dram, .reg, .csr, .ctr] d (Dev.epochCompute d) := by
  refine Dev.Keeps.trans (b := d.epochSync) (by simp) ?_
  unfold Dev.epochCompute; extract_lets d0 share old oldOf causes hadExcess was
  change Dev.Keeps [.fault, .mbox, .telem, .dram, .reg, .csr, .ctr] d0 _
  clear_value d0
  split
  extract_lets es changed fell scaled moved full d1 d3 d4 d5 d6 d7 d8
  have h1 : Dev.Keeps [.fault, .mbox, .telem, .dram, .reg, .csr, .ctr] d0 d1 := (Dev.modReg_keeps _ _ _ _ (by simp)).mpr (Dev.Keeps.refl _ _)
  clear_value d1
  have h3 : Dev.Keeps [.fault, .mbox, .telem, .dram, .reg, .csr, .ctr] d0 d3 := by unfold d3; clear_value fell; split <;> simpa using h1
  clear_value d3
  have h4 : Dev.Keeps [.fault, .mbox, .telem, .dram, .reg, .csr, .ctr] d0 d4 := by unfold d4; clear_value was scaled; split <;> simpa using h3
  clear_value d4
  have h5 : Dev.Keeps [.fault, .mbox, .telem, .dram, .reg, .csr, .ctr] d0 d5 := by unfold d5; clear_value changed; split <;> simpa using h4
  clear_value d5
  have h6 : Dev.Keeps [.fault, .mbox, .telem, .dram, .reg, .csr, .ctr] d0 d6 := by unfold d6; clear_value moved; split <;> simpa using h5
  clear_value d6
  have h7 : Dev.Keeps [.fault, .mbox, .telem, .dram, .reg, .csr, .ctr] d0 d7 := by unfold d7; clear_value was scaled; split <;> simpa using h6
  clear_value d7
  have h8 : Dev.Keeps [.fault, .mbox, .telem, .dram, .reg, .csr, .ctr] d0 d8 := by
    unfold d8; clear_value causes
    split
    · split <;> simpa using h7
    · exact h7
  clear_value d8 changed
  simpa using h8
@[simp ↓] theorem Dev.epochCompute_keeps (ps : List Part) (a₀ d : Dev)  (hps : [.fault, .mbox, .telem, .dram, .reg, .csr, .ctr] ⊆ ps) : Dev.Keeps ps a₀ (Dev.epochCompute d) ↔ Dev.Keeps ps a₀ d :=
  Dev.Keeps.drop (Dev.epochCompute_keep d ) hps
theorem Dev.chargeAcc_keep (d : Dev) (chipid : Nat) (tc : Nat) (c : Nat) (cost : Nat) : Dev.Keeps [.reg, .ctr] d (Dev.chargeAcc d chipid tc c cost) := by unfold Dev.chargeAcc; repeat' (first | simp | refine (Dev.Keeps.foldl (fun b x => ?_) _ _).mpr ?_ | split)
@[simp ↓] theorem Dev.chargeAcc_keeps (ps : List Part) (a₀ d : Dev) (chipid : Nat) (tc : Nat) (c : Nat) (cost : Nat) (hps : [.reg, .ctr] ⊆ ps) : Dev.Keeps ps a₀ (Dev.chargeAcc d chipid tc c cost) ↔ Dev.Keeps ps a₀ d :=
  Dev.Keeps.drop (Dev.chargeAcc_keep d chipid tc c cost) hps
theorem Dev.burst_keep (d : Dev) (c : Nat) (n : Nat) : Dev.Keeps [.graft] d (Dev.burst d c n) := by unfold Dev.burst; repeat' (first | simp | refine (Dev.Keeps.foldl (fun b x => ?_) _ _).mpr ?_ | split)
@[simp ↓] theorem Dev.burst_keeps (ps : List Part) (a₀ d : Dev) (c : Nat) (n : Nat) (hps : [.graft] ⊆ ps) : Dev.Keeps ps a₀ (Dev.burst d c n) ↔ Dev.Keeps ps a₀ d :=
  Dev.Keeps.drop (Dev.burst_keep d c n) hps
theorem Dev.trackRow_keep (d : Dev) (c : Nat) (b : Nat) (r : Nat) : Dev.Keeps [.dram] d (Dev.trackRow d c b r) := by
  have hs : ∀ (a : Dev) (t : Tab (List (Nat × Nat))), Dev.Keeps [.dram] a { a with dram := { a.dram with track := t } } := fun a t => by simp
  unfold Dev.trackRow; extract_lets k l set
  split
  · split
    · rw [Dev.modCh_keeps _ _ _ _ _ (by simp)]; exact hs _ _
    · exact hs _ _
  · split <;> exact hs _ _
@[simp ↓] theorem Dev.trackRow_keeps (ps : List Part) (a₀ d : Dev) (c : Nat) (b : Nat) (r : Nat) (hps : [.dram] ⊆ ps) : Dev.Keeps ps a₀ (Dev.trackRow d c b r) ↔ Dev.Keeps ps a₀ d :=
  Dev.Keeps.drop (Dev.trackRow_keep d c b r) hps
theorem Dev.activate_keep (d : Dev) (c : Nat) (b : Nat) (r : Nat) (arrive : Nat) (openRow : Bool) : Dev.Keeps [.dram, .graft, .ctr] d (Dev.activate d c b r arrive openRow) := by unfold Dev.activate; repeat' (first | simp | refine (Dev.Keeps.foldl (fun b x => ?_) _ _).mpr ?_ | split)
@[simp ↓] theorem Dev.activate_keeps (ps : List Part) (a₀ d : Dev) (c : Nat) (b : Nat) (r : Nat) (arrive : Nat) (openRow : Bool) (hps : [.dram, .graft, .ctr] ⊆ ps) : Dev.Keeps ps a₀ (Dev.activate d c b r arrive openRow) ↔ Dev.Keeps ps a₀ d :=
  Dev.Keeps.drop (Dev.activate_keep d c b r arrive openRow) hps
theorem Dev.column_keep (d : Dev) (c : Nat) (b : Nat) (wr : Bool) : Dev.Keeps [.dram, .ctr] d (Dev.column d c b wr) := by unfold Dev.column; repeat' (first | simp | refine (Dev.Keeps.foldl (fun b x => ?_) _ _).mpr ?_ | split)
@[simp ↓] theorem Dev.column_keeps (ps : List Part) (a₀ d : Dev) (c : Nat) (b : Nat) (wr : Bool) (hps : [.dram, .ctr] ⊆ ps) : Dev.Keeps ps a₀ (Dev.column d c b wr) ↔ Dev.Keeps ps a₀ d :=
  Dev.Keeps.drop (Dev.column_keep d c b wr) hps
theorem Dev.upsetAt_keep (d : Dev) (q : Nat) (upset : Nat) : Dev.Keeps [.mem] d (Dev.upsetAt d q upset) := by unfold Dev.upsetAt; repeat' (first | simp | refine (Dev.Keeps.foldl (fun b x => ?_) _ _).mpr ?_ | split)
@[simp ↓] theorem Dev.upsetAt_keeps (ps : List Part) (a₀ d : Dev) (q : Nat) (upset : Nat) (hps : [.mem] ⊆ ps) : Dev.Keeps ps a₀ (Dev.upsetAt d q upset) ↔ Dev.Keeps ps a₀ d :=
  Dev.Keeps.drop (Dev.upsetAt_keep d q upset) hps
theorem Dev.queueIdle_keep (d : Dev) (c : Nat) : Dev.Keeps [.dram] d (Dev.queueIdle d c) := by unfold Dev.queueIdle; repeat' (first | simp | refine (Dev.Keeps.foldl (fun b x => ?_) _ _).mpr ?_ | split)
@[simp ↓] theorem Dev.queueIdle_keeps (ps : List Part) (a₀ d : Dev) (c : Nat) (hps : [.dram] ⊆ ps) : Dev.Keeps ps a₀ (Dev.queueIdle d c) ↔ Dev.Keeps ps a₀ d :=
  Dev.Keeps.drop (Dev.queueIdle_keep d c) hps
theorem Dev.drainSync_keep (d : Dev) (c : Nat) : Dev.Keeps [.dram] d (Dev.drainSync d c) := by unfold Dev.drainSync; repeat' (first | simp | refine (Dev.Keeps.foldl (fun b x => ?_) _ _).mpr ?_ | split)
@[simp ↓] theorem Dev.drainSync_keeps (ps : List Part) (a₀ d : Dev) (c : Nat) (hps : [.dram] ⊆ ps) : Dev.Keeps ps a₀ (Dev.drainSync d c) ↔ Dev.Keeps ps a₀ d :=
  Dev.Keeps.drop (Dev.drainSync_keep d c) hps
theorem Dev.gapArrive_keep (d : Dev) (c : Nat) : Dev.Keeps [.dram] d (Dev.gapArrive d c) := by unfold Dev.gapArrive; repeat' (first | simp | refine (Dev.Keeps.foldl (fun b x => ?_) _ _).mpr ?_ | split)
@[simp ↓] theorem Dev.gapArrive_keeps (ps : List Part) (a₀ d : Dev) (c : Nat) (hps : [.dram] ⊆ ps) : Dev.Keeps ps a₀ (Dev.gapArrive d c) ↔ Dev.Keeps ps a₀ d :=
  Dev.Keeps.drop (Dev.gapArrive_keep d c) hps
theorem Dev.advanceRef_keep (d : Dev) (c : Nat) : Dev.Keeps [.dram] d (Dev.advanceRef d c) := by unfold Dev.advanceRef; repeat' (first | simp | refine (Dev.Keeps.foldl (fun b x => ?_) _ _).mpr ?_ | split)
@[simp ↓] theorem Dev.advanceRef_keeps (ps : List Part) (a₀ d : Dev) (c : Nat) (hps : [.dram] ⊆ ps) : Dev.Keeps ps a₀ (Dev.advanceRef d c) ↔ Dev.Keeps ps a₀ d :=
  Dev.Keeps.drop (Dev.advanceRef_keep d c) hps
theorem Dev.refresh_keep (d : Dev) (c : Nat) : Dev.Keeps [.dram, .ctr] d (Dev.refresh d c) := by unfold Dev.refresh; repeat' (first | simp | refine (Dev.Keeps.foldl (fun b x => ?_) _ _).mpr ?_ | split)
@[simp ↓] theorem Dev.refresh_keeps (ps : List Part) (a₀ d : Dev) (c : Nat) (hps : [.dram, .ctr] ⊆ ps) : Dev.Keeps ps a₀ (Dev.refresh d c) ↔ Dev.Keeps ps a₀ d :=
  Dev.Keeps.drop (Dev.refresh_keep d c) hps
theorem Dev.targeted_keep (d : Dev) (c : Nat) (x : Trr) : Dev.Keeps [.dram, .graft, .csr, .ctr] d (Dev.targeted d c x) := by unfold Dev.targeted; repeat' (first | simp | refine (Dev.Keeps.foldl (fun b x => ?_) _ _).mpr ?_ | split)
@[simp ↓] theorem Dev.targeted_keeps (ps : List Part) (a₀ d : Dev) (c : Nat) (x : Trr) (hps : [.dram, .graft, .csr, .ctr] ⊆ ps) : Dev.Keeps ps a₀ (Dev.targeted d c x) ↔ Dev.Keeps ps a₀ d :=
  Dev.Keeps.drop (Dev.targeted_keep d c x) hps
theorem Dev.bgAccess_keep (d : Dev) (q : Nat) (n : Nat) (wr : Bool) : Dev.Keeps [.dram, .graft, .ctr] d (Dev.bgAccess d q n wr) := by unfold Dev.bgAccess; repeat' (first | simp | refine (Dev.Keeps.foldl (fun b x => ?_) _ _).mpr ?_ | split)
@[simp ↓] theorem Dev.bgAccess_keeps (ps : List Part) (a₀ d : Dev) (q : Nat) (n : Nat) (wr : Bool) (hps : [.dram, .graft, .ctr] ⊆ ps) : Dev.Keeps ps a₀ (Dev.bgAccess d q n wr) ↔ Dev.Keeps ps a₀ d :=
  Dev.Keeps.drop (Dev.bgAccess_keep d q n wr) hps
theorem Dev.bandUp_keep (d : Dev) (c : Nat) (b : Nat) : Dev.Keeps [.dram, .csr] d (Dev.bandUp d c b) := by unfold Dev.bandUp; repeat' (first | simp | refine (Dev.Keeps.foldl (fun b x => ?_) _ _).mpr ?_ | split)
@[simp ↓] theorem Dev.bandUp_keeps (ps : List Part) (a₀ d : Dev) (c : Nat) (b : Nat) (hps : [.dram, .csr] ⊆ ps) : Dev.Keeps ps a₀ (Dev.bandUp d c b) ↔ Dev.Keeps ps a₀ d :=
  Dev.Keeps.drop (Dev.bandUp_keep d c b) hps
theorem Dev.bandDown_keep (d : Dev) (c : Nat) (b : Nat) : Dev.Keeps [.dram, .csr] d (Dev.bandDown d c b) := by unfold Dev.bandDown; repeat' (first | simp | refine (Dev.Keeps.foldl (fun b x => ?_) _ _).mpr ?_ | split)
@[simp ↓] theorem Dev.bandDown_keeps (ps : List Part) (a₀ d : Dev) (c : Nat) (b : Nat) (hps : [.dram, .csr] ⊆ ps) : Dev.Keeps ps a₀ (Dev.bandDown d c b) ↔ Dev.Keeps ps a₀ d :=
  Dev.Keeps.drop (Dev.bandDown_keep d c b) hps
theorem Dev.precharge_keep (d : Dev) (c : Nat) : Dev.Keeps [.dram] d (Dev.precharge d c) := by unfold Dev.precharge; repeat' (first | simp | refine (Dev.Keeps.foldl (fun b x => ?_) _ _).mpr ?_ | split)
@[simp ↓] theorem Dev.precharge_keeps (ps : List Part) (a₀ d : Dev) (c : Nat) (hps : [.dram] ⊆ ps) : Dev.Keeps ps a₀ (Dev.precharge d c) ↔ Dev.Keeps ps a₀ d :=
  Dev.Keeps.drop (Dev.precharge_keep d c) hps
theorem Dev.sendSre_keep (d : Dev) (c : Nat) : Dev.Keeps [.dram] d (Dev.sendSre d c) := by unfold Dev.sendSre; repeat' (first | simp | refine (Dev.Keeps.foldl (fun b x => ?_) _ _).mpr ?_ | split)
@[simp ↓] theorem Dev.sendSre_keeps (ps : List Part) (a₀ d : Dev) (c : Nat) (hps : [.dram] ⊆ ps) : Dev.Keeps ps a₀ (Dev.sendSre d c) ↔ Dev.Keeps ps a₀ d :=
  Dev.Keeps.drop (Dev.sendSre_keep d c) hps
theorem Dev.sreDrained_keep (d : Dev) (c : Nat) : Dev.Keeps [.dram] d (Dev.sreDrained d c) := by unfold Dev.sreDrained; repeat' (first | simp | refine (Dev.Keeps.foldl (fun b x => ?_) _ _).mpr ?_ | split)
@[simp ↓] theorem Dev.sreDrained_keeps (ps : List Part) (a₀ d : Dev) (c : Nat) (hps : [.dram] ⊆ ps) : Dev.Keeps ps a₀ (Dev.sreDrained d c) ↔ Dev.Keeps ps a₀ d :=
  Dev.Keeps.drop (Dev.sreDrained_keep d c) hps
theorem Dev.sreSoon_keep (d : Dev) (c : Nat) : Dev.Keeps [.dram] d (Dev.sreSoon d c) := by unfold Dev.sreSoon; repeat' (first | simp | refine (Dev.Keeps.foldl (fun b x => ?_) _ _).mpr ?_ | split)
@[simp ↓] theorem Dev.sreSoon_keeps (ps : List Part) (a₀ d : Dev) (c : Nat) (hps : [.dram] ⊆ ps) : Dev.Keeps ps a₀ (Dev.sreSoon d c) ↔ Dev.Keeps ps a₀ d :=
  Dev.Keeps.drop (Dev.sreSoon_keep d c) hps
theorem Dev.sendSrx_keep (d : Dev) (c : Nat) : Dev.Keeps [.dram] d (Dev.sendSrx d c) := by unfold Dev.sendSrx; repeat' (first | simp | refine (Dev.Keeps.foldl (fun b x => ?_) _ _).mpr ?_ | split)
@[simp ↓] theorem Dev.sendSrx_keeps (ps : List Part) (a₀ d : Dev) (c : Nat) (hps : [.dram] ⊆ ps) : Dev.Keeps ps a₀ (Dev.sendSrx d c) ↔ Dev.Keeps ps a₀ d :=
  Dev.Keeps.drop (Dev.sendSrx_keep d c) hps
theorem Dev.srAck_keep (d : Dev) (c : Nat) : Dev.Keeps [.dram, .csr] d (Dev.srAck d c) := by unfold Dev.srAck; repeat' (first | simp | refine (Dev.Keeps.foldl (fun b x => ?_) _ _).mpr ?_ | split)
@[simp ↓] theorem Dev.srAck_keeps (ps : List Part) (a₀ d : Dev) (c : Nat) (hps : [.dram, .csr] ⊆ ps) : Dev.Keeps ps a₀ (Dev.srAck d c) ↔ Dev.Keeps ps a₀ d :=
  Dev.Keeps.drop (Dev.srAck_keep d c) hps
theorem Dev.srAckTimeout_keep (d : Dev) (c : Nat) : Dev.Keeps [.fault, .mbox, .telem, .mem, .dram, .graft, .csr, .ctr, .free] d (Dev.srAckTimeout d c) := by unfold Dev.srAckTimeout; repeat' (first | simp | refine (Dev.Keeps.foldl (fun b x => ?_) _ _).mpr ?_ | split)
@[simp ↓] theorem Dev.srAckTimeout_keeps (ps : List Part) (a₀ d : Dev) (c : Nat) (hps : [.fault, .mbox, .telem, .mem, .dram, .graft, .csr, .ctr, .free] ⊆ ps) : Dev.Keeps ps a₀ (Dev.srAckTimeout d c) ↔ Dev.Keeps ps a₀ d :=
  Dev.Keeps.drop (Dev.srAckTimeout_keep d c) hps
theorem Dev.reserve_keep (d : Dev) (i k n a b : Nat) (e : Dev) (h : d.reserve i k n = some (a, b, e)) : Dev.Keeps [.txn] d e := by
  unfold Dev.reserve at h; extract_lets at h; split at h
  · have := congrArg (fun o => (o.map (fun x => x.2.2)).getD d) h; simp only [Option.map, Option.getD] at this; rw [← this]; simp
  · cases h
theorem Dev.tableStart_keep (d : Dev) (id : Nat) : Dev.Keeps [.txn, .sla, .csr] d (Dev.tableStart d id) := by
  unfold Dev.tableStart
  split
  · simp
  split
  · simp
  split
  · simp
  · rename_i a b d1 h
    have h1 := (Dev.reserve_keep _ _ _ _ _ _ _ h).mono (ps := [.txn, .sla, .csr]) (by simp)
    extract_lets n old d2
    have h2 : Dev.Keeps [.txn, .sla, .csr] d d2 := by unfold d2; simpa using h1
    clear_value d2
    simpa using h2
@[simp ↓] theorem Dev.tableStart_keeps (ps : List Part) (a₀ d : Dev) (id : Nat) (hps : [.txn, .sla, .csr] ⊆ ps) : Dev.Keeps ps a₀ (Dev.tableStart d id) ↔ Dev.Keeps ps a₀ d :=
  Dev.Keeps.drop (Dev.tableStart_keep d id) hps
theorem Dev.stepIssue_keep (d : Dev) (r : Req) : Dev.Keeps [.txn] d (Dev.stepIssue d r) := by unfold Dev.stepIssue; repeat' (first | simp | refine (Dev.Keeps.foldl (fun b x => ?_) _ _).mpr ?_ | split)
@[simp ↓] theorem Dev.stepIssue_keeps (ps : List Part) (a₀ d : Dev) (r : Req) (hps : [.txn] ⊆ ps) : Dev.Keeps ps a₀ (Dev.stepIssue d r) ↔ Dev.Keeps ps a₀ d :=
  Dev.Keeps.drop (Dev.stepIssue_keep d r) hps
theorem Dev.tableDone_keep (d : Dev) (r : Req) (st : Status) (data : List Byte) (aux : Nat) (ops : Nat) : Dev.Keeps [.txn, .csr, .ctr] d (Dev.tableDone d r st data aux ops) := by unfold Dev.tableDone; repeat' (first | simp | refine (Dev.Keeps.foldl (fun b x => ?_) _ _).mpr ?_ | split)
@[simp ↓] theorem Dev.tableDone_keeps (ps : List Part) (a₀ d : Dev) (r : Req) (st : Status) (data : List Byte) (aux : Nat) (ops : Nat) (hps : [.txn, .csr, .ctr] ⊆ ps) : Dev.Keeps ps a₀ (Dev.tableDone d r st data aux ops) ↔ Dev.Keeps ps a₀ d :=
  Dev.Keeps.drop (Dev.tableDone_keep d r st data aux ops) hps
theorem Dev.nextStep_keep (d : Dev) (r : Req) : Dev.Keeps [.txn] d (Dev.nextStep d r) := by unfold Dev.nextStep; repeat' (first | simp | refine (Dev.Keeps.foldl (fun b x => ?_) _ _).mpr ?_ | split)
@[simp ↓] theorem Dev.nextStep_keeps (ps : List Part) (a₀ d : Dev) (r : Req) (hps : [.txn] ⊆ ps) : Dev.Keeps ps a₀ (Dev.nextStep d r) ↔ Dev.Keeps ps a₀ d :=
  Dev.Keeps.drop (Dev.nextStep_keep d r) hps
theorem Dev.tableWrite_keep (d : Dev) (r : Req) (a : Nat) (bs : List Byte) (st : Status) (data : List Byte) (aux : Nat) (ops : Nat) : Dev.Keeps [.txn, .mem, .dram, .csr, .ctr] d (Dev.tableWrite d r a bs st data aux ops) := by unfold Dev.tableWrite; repeat' (first | simp | refine (Dev.Keeps.foldl (fun b x => ?_) _ _).mpr ?_ | split)
@[simp ↓] theorem Dev.tableWrite_keeps (ps : List Part) (a₀ d : Dev) (r : Req) (a : Nat) (bs : List Byte) (st : Status) (data : List Byte) (aux : Nat) (ops : Nat) (hps : [.txn, .mem, .dram, .csr, .ctr] ⊆ ps) : Dev.Keeps ps a₀ (Dev.tableWrite d r a bs st data aux ops) ↔ Dev.Keeps ps a₀ d :=
  Dev.Keeps.drop (Dev.tableWrite_keep d r a bs st data aux ops) hps
theorem Dev.emStep_keep (d : Dev) (r : Req) : Dev.Keeps [.txn, .mem, .dram, .csr, .ctr] d (Dev.emStep d r) := by unfold Dev.emStep; repeat' (first | simp | refine (Dev.Keeps.foldl (fun b x => ?_) _ _).mpr ?_ | split)
@[simp ↓] theorem Dev.emStep_keeps (ps : List Part) (a₀ d : Dev) (r : Req) (hps : [.txn, .mem, .dram, .csr, .ctr] ⊆ ps) : Dev.Keeps ps a₀ (Dev.emStep d r) ↔ Dev.Keeps ps a₀ d :=
  Dev.Keeps.drop (Dev.emStep_keep d r) hps
theorem Dev.lpmStep_keep (d : Dev) (r : Req) : Dev.Keeps [.fault, .mbox, .telem, .txn, .csr, .ctr] d (Dev.lpmStep d r) := by unfold Dev.lpmStep; repeat' (first | simp | refine (Dev.Keeps.foldl (fun b x => ?_) _ _).mpr ?_ | split)
@[simp ↓] theorem Dev.lpmStep_keeps (ps : List Part) (a₀ d : Dev) (r : Req) (hps : [.fault, .mbox, .telem, .txn, .csr, .ctr] ⊆ ps) : Dev.Keeps ps a₀ (Dev.lpmStep d r) ↔ Dev.Keeps ps a₀ d :=
  Dev.Keeps.drop (Dev.lpmStep_keep d r) hps
theorem Dev.countStep_keep (d : Dev) (r : Req) : Dev.Keeps [.txn, .mem, .dram, .csr, .ctr] d (Dev.countStep d r) := by unfold Dev.countStep; repeat' (first | simp | refine (Dev.Keeps.foldl (fun b x => ?_) _ _).mpr ?_ | split)
@[simp ↓] theorem Dev.countStep_keeps (ps : List Part) (a₀ d : Dev) (r : Req) (hps : [.txn, .mem, .dram, .csr, .ctr] ⊆ ps) : Dev.Keeps ps a₀ (Dev.countStep d r) ↔ Dev.Keeps ps a₀ d :=
  Dev.Keeps.drop (Dev.countStep_keep d r) hps
theorem Dev.policeStep_keep (d : Dev) (r : Req) : Dev.Keeps [.txn, .mem, .dram, .csr, .ctr] d (Dev.policeStep d r) := by unfold Dev.policeStep; repeat' (first | simp | refine (Dev.Keeps.foldl (fun b x => ?_) _ _).mpr ?_ | split)
@[simp ↓] theorem Dev.policeStep_keeps (ps : List Part) (a₀ d : Dev) (r : Req) (hps : [.txn, .mem, .dram, .csr, .ctr] ⊆ ps) : Dev.Keeps ps a₀ (Dev.policeStep d r) ↔ Dev.Keeps ps a₀ d :=
  Dev.Keeps.drop (Dev.policeStep_keep d r) hps
theorem Dev.stepSram_keep (d : Dev) (r : Req) : Dev.Keeps [.fault, .mbox, .telem, .txn, .mem, .ecc, .csr, .ctr, .free] d (Dev.stepSram d r) := by unfold Dev.stepSram; repeat' (first | simp | refine (Dev.Keeps.foldl (fun b x => ?_) _ _).mpr ?_ | split)
@[simp ↓] theorem Dev.stepSram_keeps (ps : List Part) (a₀ d : Dev) (r : Req) (hps : [.fault, .mbox, .telem, .txn, .mem, .ecc, .csr, .ctr, .free] ⊆ ps) : Dev.Keeps ps a₀ (Dev.stepSram d r) ↔ Dev.Keeps ps a₀ d :=
  Dev.Keeps.drop (Dev.stepSram_keep d r) hps
theorem Dev.headWritten_keep (d : Dev) (q : Nat) : Dev.Keeps [.mem, .csr, .ctr] d (Dev.headWritten d q) := by unfold Dev.headWritten; repeat' (first | simp | refine (Dev.Keeps.foldl (fun b x => ?_) _ _).mpr ?_ | split)
@[simp ↓] theorem Dev.headWritten_keeps (ps : List Part) (a₀ d : Dev) (q : Nat) (hps : [.mem, .csr, .ctr] ⊆ ps) : Dev.Keeps ps a₀ (Dev.headWritten d q) ↔ Dev.Keeps ps a₀ d :=
  Dev.Keeps.drop (Dev.headWritten_keep d q) hps
theorem Dev.tailWritten_keep (d : Dev) (q : Nat) : Dev.Keeps [.mem, .csr, .ctr] d (Dev.tailWritten d q) := by unfold Dev.tailWritten; repeat' (first | simp | refine (Dev.Keeps.foldl (fun b x => ?_) _ _).mpr ?_ | split)
@[simp ↓] theorem Dev.tailWritten_keeps (ps : List Part) (a₀ d : Dev) (q : Nat) (hps : [.mem, .csr, .ctr] ⊆ ps) : Dev.Keeps ps a₀ (Dev.tailWritten d q) ↔ Dev.Keeps ps a₀ d :=
  Dev.Keeps.drop (Dev.tailWritten_keep d q) hps
theorem Dev.patchUnit_keep (d : Dev) (p : Nat) (bs : List Byte) : Dev.Keeps [.mem, .dram] d (Dev.patchUnit d p bs) := by unfold Dev.patchUnit; repeat' (first | simp | refine (Dev.Keeps.foldl (fun b x => ?_) _ _).mpr ?_ | split)
@[simp ↓] theorem Dev.patchUnit_keeps (ps : List Part) (a₀ d : Dev) (p : Nat) (bs : List Byte) (hps : [.mem, .dram] ⊆ ps) : Dev.Keeps ps a₀ (Dev.patchUnit d p bs) ↔ Dev.Keeps ps a₀ d :=
  Dev.Keeps.drop (Dev.patchUnit_keep d p bs) hps
theorem Dev.wmRearm_keep (d : Dev) (q : Nat) (qwm : Nat) : Dev.Keeps [.qm] d (Dev.wmRearm d q qwm) := by unfold Dev.wmRearm; repeat' (first | simp | refine (Dev.Keeps.foldl (fun b x => ?_) _ _).mpr ?_ | split)
@[simp ↓] theorem Dev.wmRearm_keeps (ps : List Part) (a₀ d : Dev) (q : Nat) (qwm : Nat) (hps : [.qm] ⊆ ps) : Dev.Keeps ps a₀ (Dev.wmRearm d q qwm) ↔ Dev.Keeps ps a₀ d :=
  Dev.Keeps.drop (Dev.wmRearm_keep d q qwm) hps
theorem Dev.takeUnit_keep (d : Dev) (u : Nat) (e : Dev) (h : d.takeUnit = some (u, e)) : Dev.Keeps [.qm] d e := by
  unfold Dev.takeUnit at h; extract_lets r at h; clear_value r
  cases r with
  | none => cases h
  | some x =>
    have := congrArg (fun o => (o.map (fun x => x.2)).getD d) h; simp only [Option.map, Option.getD] at this; rw [← this]; simp
theorem Dev.undo_keep (d : Dev) (r : Req) : Dev.Keeps [.txn, .mem, .qm, .csr, .ctr] d (Dev.undo d r) := by
  have hb : ∀ (a : Dev), Dev.Keeps [.txn, .mem, .qm, .csr, .ctr] a ((a.bump 0 bQm 0x330 1)) := fun a => (Dev.bump_keeps _ _ _ _ _ _ _ (by simp)).mpr (Dev.Keeps.refl _ _)
  have hb2 : ∀ (a : Dev), Dev.Keeps [.txn, .mem, .qm, .csr, .ctr] a ((a.bump 0 bQm 0x308 (2 ^ 64 - 1))) := fun a => (Dev.bump_keeps _ _ _ _ _ _ _ (by simp)).mpr (Dev.Keeps.refl _ _)
  have hq : ∀ (a : Dev) (f : QmU → QmU), Dev.Keeps [.txn, .mem, .qm, .csr, .ctr] a (a.modQm f) := fun a f => (Dev.modQm_keeps _ _ _ _ (by simp)).mpr (Dev.Keeps.refl _ _)
  have ht : ∀ (a : Dev) (f : TxnU → TxnU), Dev.Keeps [.txn, .mem, .qm, .csr, .ctr] a (a.modTxn f) := fun a f => (Dev.modTxn_keeps _ _ _ _ (by simp)).mpr (Dev.Keeps.refl _ _)
  have hu : ∀ (a : Dev) (q : Nat) (f : Queue → Queue), Dev.Keeps [.txn, .mem, .qm, .csr, .ctr] a (a.modQueue q f) := fun a q f => (Dev.modQueue_keeps _ _ _ _ _ (by simp)).mpr (Dev.Keeps.refl _ _)
  unfold Dev.undo; extract_lets q n back all k rest d1 d2 d3 d4
  have h1 : Dev.Keeps [.txn, .mem, .qm, .csr, .ctr] d d1 := (hu _ _ _).trans ((Dev.headWritten_keep _ _).mono (by simp))
  have h2 : Dev.Keeps [.txn, .mem, .qm, .csr, .ctr] d1 d2 := by
    unfold d2; clear_value d1 rest
    refine (Dev.Keeps.foldl (fun b x => ?_) _ _).mpr (Dev.Keeps.refl _ _)
    split
    · exact Dev.Keeps.refl _ _
    · rename_i h; exact (((Dev.takeUnit_keep _ _ _ h).mono (by simp)).trans (ht _ _)).trans (hu _ _ _)
  have h4 : Dev.Keeps [.txn, .mem, .qm, .csr, .ctr] d d4 := ((h1.trans h2).trans (hq _ _)).trans (hb _)
  clear_value d4
  split
  · exact Dev.Keeps.refl _ _
  · split
    · exact h4.trans (hb2 _)
    · exact h4
@[simp ↓] theorem Dev.undo_keeps (ps : List Part) (a₀ d : Dev) (r : Req) (hps : [.txn, .mem, .qm, .csr, .ctr] ⊆ ps) : Dev.Keeps ps a₀ (Dev.undo d r) ↔ Dev.Keeps ps a₀ d :=
  Dev.Keeps.drop (Dev.undo_keep d r) hps
theorem Dev.enqPump_keep : ∀ (n : Nat) (d : Dev) (id : Nat), Dev.Keeps [.txn, .qm] d (Dev.enqPump n d id)
  | 0, d, _ => Dev.Keeps.refl _ d
  | n + 1, d, id => by
    unfold Dev.enqPump
    split
    · simp
    split
    · simp
    split
    · split
      · simp
      · exact Dev.Keeps.trans (by simp) (Dev.enqPump_keep n _ id)
    split
    · exact Dev.Keeps.trans (by simp) (Dev.enqPump_keep n _ id)
    · simp
theorem Dev.enqFeed_keep (d : Dev) (id : Nat) (bs : List Byte) : Dev.Keeps [.txn, .qm] d (Dev.enqFeed d id bs) := (Dev.Keeps.trans (by simp) (Dev.enqPump_keep _ _ _) : _)
@[simp ↓] theorem Dev.enqFeed_keeps (ps : List Part) (a₀ d : Dev) (id : Nat) (bs : List Byte) (hps : [.txn, .qm] ⊆ ps) : Dev.Keeps ps a₀ (Dev.enqFeed d id bs) ↔ Dev.Keeps ps a₀ d :=
  Dev.Keeps.drop (Dev.enqFeed_keep d id bs) hps
theorem Dev.enqDrain_keep : ∀ (k : Nat) (d : Dev) (port : Nat), Dev.Keeps [.rx, .txn, .qm] d (Dev.enqDrain k d port)
  | 0, d, _ => Dev.Keeps.refl _ d
  | k + 1, d, port => by
    unfold Dev.enqDrain
    split
    · split
      · exact Dev.Keeps.refl _ _
      · exact Dev.Keeps.trans (by simp) (Dev.enqDrain_keep k _ port)
    · exact Dev.Keeps.refl _ _
@[simp ↓] theorem Dev.enqDrain_keeps (ps : List Part) (a₀ d : Dev) (k port : Nat) (hps : [.rx, .txn, .qm] ⊆ ps) :
    Dev.Keeps ps a₀ (Dev.enqDrain k d port) ↔ Dev.Keeps ps a₀ d := Dev.Keeps.drop (Dev.enqDrain_keep k d port) hps
theorem Dev.enqDrainAll_keep (d : Dev)  : Dev.Keeps [.rx, .txn, .qm] d (Dev.enqDrainAll d) := by unfold Dev.enqDrainAll; repeat' (first | simp | refine (Dev.Keeps.foldl (fun b x => ?_) _ _).mpr ?_ | split)
@[simp ↓] theorem Dev.enqDrainAll_keeps (ps : List Part) (a₀ d : Dev)  (hps : [.rx, .txn, .qm] ⊆ ps) : Dev.Keeps ps a₀ (Dev.enqDrainAll d) ↔ Dev.Keeps ps a₀ d :=
  Dev.Keeps.drop (Dev.enqDrainAll_keep d ) hps
theorem Dev.expect_keep (d : Dev) (port : Nat) (left : Nat) (enq : Option Nat) : Dev.Keeps [.qm] d (Dev.expect d port left enq) := by unfold Dev.expect; repeat' (first | simp | refine (Dev.Keeps.foldl (fun b x => ?_) _ _).mpr ?_ | split)
@[simp ↓] theorem Dev.expect_keeps (ps : List Part) (a₀ d : Dev) (port : Nat) (left : Nat) (enq : Option Nat) (hps : [.qm] ⊆ ps) : Dev.Keeps ps a₀ (Dev.expect d port left enq) ↔ Dev.Keeps ps a₀ d :=
  Dev.Keeps.drop (Dev.expect_keep d port left enq) hps
theorem Dev.enqFlit_keep (d : Dev) (port : Nat) (bs : List Byte) : Dev.Keeps [.rx, .txn, .qm] d (Dev.enqFlit d port bs) := by unfold Dev.enqFlit; repeat' (first | simp | refine (Dev.Keeps.foldl (fun b x => ?_) _ _).mpr ?_ | split)
@[simp ↓] theorem Dev.enqFlit_keeps (ps : List Part) (a₀ d : Dev) (port : Nat) (bs : List Byte) (hps : [.rx, .txn, .qm] ⊆ ps) : Dev.Keeps ps a₀ (Dev.enqFlit d port bs) ↔ Dev.Keeps ps a₀ d :=
  Dev.Keeps.drop (Dev.enqFlit_keep d port bs) hps
theorem Dev.enqAdmit_keep (d : Dev) (r : Req) (need : Nat) : Dev.Keeps [.qm] d (Dev.enqAdmit d r need) := by unfold Dev.enqAdmit; repeat' (first | simp | refine (Dev.Keeps.foldl (fun b x => ?_) _ _).mpr ?_ | split)
@[simp ↓] theorem Dev.enqAdmit_keeps (ps : List Part) (a₀ d : Dev) (r : Req) (need : Nat) (hps : [.qm] ⊆ ps) : Dev.Keeps ps a₀ (Dev.enqAdmit d r need) ↔ Dev.Keeps ps a₀ d :=
  Dev.Keeps.drop (Dev.enqAdmit_keep d r need) hps
theorem Dev.enqSpill_keep (d : Dev) (o : OpenEnq) (groups : List (List Desc)) : Dev.Keeps [.txn, .qm] d (Dev.enqSpill d o groups) := by
  unfold Dev.enqSpill; extract_lets d0
  refine Dev.Keeps.trans (b := d0) (by simp [d0]) ?_
  clear_value d0
  refine (Dev.Keeps.foldl (fun b x => ?_) _ _).mpr (Dev.Keeps.refl _ _)
  split
  · exact Dev.Keeps.refl _ _
  · rename_i h; exact ((Dev.takeUnit_keep _ _ _ h).mono (by simp)).trans (by simp)
@[simp ↓] theorem Dev.enqSpill_keeps (ps : List Part) (a₀ d : Dev) (o : OpenEnq) (groups : List (List Desc)) (hps : [.txn, .qm] ⊆ ps) : Dev.Keeps ps a₀ (Dev.enqSpill d o groups) ↔ Dev.Keeps ps a₀ d :=
  Dev.Keeps.drop (Dev.enqSpill_keep d o groups) hps
theorem Dev.enqJoin_keep (d : Dev) (o : OpenEnq) (sp : Spilled) : Dev.Keeps [.mem, .qm, .dram, .csr, .ctr] d (Dev.enqJoin d o sp) := by
  unfold Dev.enqJoin; extract_lets q us last d1 y d2
  have h2 : Dev.Keeps [.mem, .qm, .dram, .csr, .ctr] d d2 := by
    refine Dev.Keeps.trans (b := d1) (by simp [d1]) ?_
    unfold d2; clear_value d1 y last
    exact (Dev.Keeps.foldl (fun b x => by split <;> simp) _ _).mpr (Dev.Keeps.refl _ _)
  clear_value d2
  simpa using h2
@[simp ↓] theorem Dev.enqJoin_keeps (ps : List Part) (a₀ d : Dev) (o : OpenEnq) (sp : Spilled) (hps : [.mem, .qm, .dram, .csr, .ctr] ⊆ ps) : Dev.Keeps ps a₀ (Dev.enqJoin d o sp) ↔ Dev.Keeps ps a₀ d :=
  Dev.Keeps.drop (Dev.enqJoin_keep d o sp) hps
theorem Dev.enqDiscard_keep (d : Dev) (o : OpenEnq) : Dev.Keeps [.rx, .txn, .qm] d (Dev.enqDiscard d o) := by unfold Dev.enqDiscard; repeat' (first | simp | refine (Dev.Keeps.foldl (fun b x => ?_) _ _).mpr ?_ | split)
@[simp ↓] theorem Dev.enqDiscard_keeps (ps : List Part) (a₀ d : Dev) (o : OpenEnq) (hps : [.rx, .txn, .qm] ⊆ ps) : Dev.Keeps ps a₀ (Dev.enqDiscard d o) ↔ Dev.Keeps ps a₀ d :=
  Dev.Keeps.drop (Dev.enqDiscard_keep d o) hps
theorem Dev.flushQueue_keep (d : Dev) (q : Nat) : Dev.Keeps [.mem, .qm, .csr, .ctr] d (Dev.flushQueue d q).1 := by unfold Dev.flushQueue; repeat' (first | simp | refine (Dev.Keeps.foldl (fun b x => ?_) _ _).mpr ?_ | split)
@[simp ↓] theorem Dev.flushQueue_keeps (ps : List Part) (a₀ d : Dev) (q : Nat) (hps : [.mem, .qm, .csr, .ctr] ⊆ ps) : Dev.Keeps ps a₀ (Dev.flushQueue d q).1 ↔ Dev.Keeps ps a₀ d :=
  Dev.Keeps.drop (Dev.flushQueue_keep d q) hps
theorem Dev.rewriteUnit_keep (d : Dev) (q : Nat) (u : Nat) : Dev.Keeps [.mem, .dram, .csr, .ctr] d (Dev.rewriteUnit d q u) := by unfold Dev.rewriteUnit; repeat' (first | simp | refine (Dev.Keeps.foldl (fun b x => ?_) _ _).mpr ?_ | split)
@[simp ↓] theorem Dev.rewriteUnit_keeps (ps : List Part) (a₀ d : Dev) (q : Nat) (u : Nat) (hps : [.mem, .dram, .csr, .ctr] ⊆ ps) : Dev.Keeps ps a₀ (Dev.rewriteUnit d q u) ↔ Dev.Keeps ps a₀ d :=
  Dev.Keeps.drop (Dev.rewriteUnit_keep d q u) hps
theorem Dev.movesEnd_keep (d : Dev)  : Dev.Keeps [.qm, .graft, .csr] d (Dev.movesEnd d) := by unfold Dev.movesEnd; repeat' (first | simp | refine (Dev.Keeps.foldl (fun b x => ?_) _ _).mpr ?_ | split)
@[simp ↓] theorem Dev.movesEnd_keeps (ps : List Part) (a₀ d : Dev)  (hps : [.qm, .graft, .csr] ⊆ ps) : Dev.Keeps ps a₀ (Dev.movesEnd d) ↔ Dev.Keeps ps a₀ d :=
  Dev.Keeps.drop (Dev.movesEnd_keep d ) hps
theorem Dev.xPush_keep (d : Dev) (a : Access) : Dev.Keeps [.txn] d (Dev.xPush d a) := by unfold Dev.xPush; repeat' (first | simp | refine (Dev.Keeps.foldl (fun b x => ?_) _ _).mpr ?_ | split)
@[simp ↓] theorem Dev.xPush_keeps (ps : List Part) (a₀ d : Dev) (a : Access) (hps : [.txn] ⊆ ps) : Dev.Keeps ps a₀ (Dev.xPush d a) ↔ Dev.Keeps ps a₀ d :=
  Dev.Keeps.drop (Dev.xPush_keep d a) hps
theorem Dev.xWriteIssue_keep (d : Dev) (x : Nat) (a : Nat) (n : Nat) (bs : List (Nat × Byte)) : Dev.Keeps [.txn, .mem, .xfer, .csr, .ctr] d (Dev.xWriteIssue d x a n bs).1 := by unfold Dev.xWriteIssue; repeat' (first | simp | refine (Dev.Keeps.foldl (fun b x => ?_) _ _).mpr ?_ | split)
@[simp ↓] theorem Dev.xWriteIssue_keeps (ps : List Part) (a₀ d : Dev) (x : Nat) (a : Nat) (n : Nat) (bs : List (Nat × Byte)) (hps : [.txn, .mem, .xfer, .csr, .ctr] ⊆ ps) : Dev.Keeps ps a₀ (Dev.xWriteIssue d x a n bs).1 ↔ Dev.Keeps ps a₀ d :=
  Dev.Keeps.drop (Dev.xWriteIssue_keep d x a n bs) hps
theorem Dev.xLast_keep (d : Dev) (x : Nat) : Dev.Keeps [.xfer] d (Dev.xLast d x) := by unfold Dev.xLast; repeat' (first | simp | refine (Dev.Keeps.foldl (fun b x => ?_) _ _).mpr ?_ | split)
@[simp ↓] theorem Dev.xLast_keeps (ps : List Part) (a₀ d : Dev) (x : Nat) (hps : [.xfer] ⊆ ps) : Dev.Keeps ps a₀ (Dev.xLast d x) ↔ Dev.Keeps ps a₀ d :=
  Dev.Keeps.drop (Dev.xLast_keep d x) hps
theorem Dev.xNextStep_keep (d : Dev) (x : Nat) : Dev.Keeps [.xfer] d (Dev.xNextStep d x) := by unfold Dev.xNextStep; repeat' (first | simp | refine (Dev.Keeps.foldl (fun b x => ?_) _ _).mpr ?_ | split)
@[simp ↓] theorem Dev.xNextStep_keeps (ps : List Part) (a₀ d : Dev) (x : Nat) (hps : [.xfer] ⊆ ps) : Dev.Keeps ps a₀ (Dev.xNextStep d x) ↔ Dev.Keeps ps a₀ d :=
  Dev.Keeps.drop (Dev.xNextStep_keep d x) hps
theorem Dev.xDescRead_keep (d : Dev) (x : Nat) : Dev.Keeps [.fault, .mbox, .telem, .mem, .ecc, .csr, .ctr, .free] d (Dev.xDescRead d x).2.2 := by unfold Dev.xDescRead; repeat' (first | simp | refine (Dev.Keeps.foldl (fun b x => ?_) _ _).mpr ?_ | split)
@[simp ↓] theorem Dev.xDescRead_keeps (ps : List Part) (a₀ d : Dev) (x : Nat) (hps : [.fault, .mbox, .telem, .mem, .ecc, .csr, .ctr, .free] ⊆ ps) : Dev.Keeps ps a₀ (Dev.xDescRead d x).2.2 ↔ Dev.Keeps ps a₀ d :=
  Dev.Keeps.drop (Dev.xDescRead_keep d x) hps
theorem Dev.xLink_keep (d : Dev) (x : Nat) : Dev.Keeps [.fault, .mbox, .telem, .mem, .ecc, .xfer, .csr, .ctr, .free] d (Dev.xLink d x) := by
  unfold Dev.xLink; extract_lets c
  split
  rename_i bs bad d2 h
  have h2 : Dev.Keeps [.fault, .mbox, .telem, .mem, .ecc, .xfer, .csr, .ctr, .free] d d2 := by
    have h2 := congrArg (fun x => x.2.2) h; simp only at h2; rw [← h2]; simp
  split; · simpa using h2
  split
  · extract_lets d3; split <;> simpa [d3] using h2
  split <;> simpa using h2
@[simp ↓] theorem Dev.xLink_keeps (ps : List Part) (a₀ d : Dev) (x : Nat) (hps : [.fault, .mbox, .telem, .mem, .ecc, .xfer, .csr, .ctr, .free] ⊆ ps) : Dev.Keeps ps a₀ (Dev.xLink d x) ↔ Dev.Keeps ps a₀ d :=
  Dev.Keeps.drop (Dev.xLink_keep d x) hps
theorem Dev.xFetch_keep (d : Dev) (x : Nat) : Dev.Keeps [.fault, .mbox, .telem, .mem, .ecc, .xfer, .csr, .ctr, .free] d (Dev.xFetch d x) := by
  unfold Dev.xFetch; extract_lets c
  split; · simp
  split; · simp
  split; · simp
  rename_i d0 _ _ _
  have h0 : Dev.Keeps [.fault, .mbox, .telem, .mem, .ecc, .xfer, .csr, .ctr, .free] d d0 := by simp [d0]
  clear_value d0
  split
  rename_i bs bad d2 h
  have h2 : Dev.Keeps [.fault, .mbox, .telem, .mem, .ecc, .xfer, .csr, .ctr, .free] d d2 := by
    have h2 := congrArg (fun x => x.2.2) h; simp only at h2; rw [← h2]; simpa using h0
  repeat' split
  all_goals simpa using h2
@[simp ↓] theorem Dev.xFetch_keeps (ps : List Part) (a₀ d : Dev) (x : Nat) (hps : [.fault, .mbox, .telem, .mem, .ecc, .xfer, .csr, .ctr, .free] ⊆ ps) : Dev.Keeps ps a₀ (Dev.xFetch d x) ↔ Dev.Keeps ps a₀ d :=
  Dev.Keeps.drop (Dev.xFetch_keep d x) hps
theorem Dev.xComplete_keep (d : Dev) (x : Nat) : Dev.Keeps [.fault, .mbox, .telem, .txn, .xfer, .csr, .ctr] d (Dev.xComplete d x) := by unfold Dev.xComplete; repeat' (first | simp | refine (Dev.Keeps.foldl (fun b x => ?_) _ _).mpr ?_ | split)
@[simp ↓] theorem Dev.xComplete_keeps (ps : List Part) (a₀ d : Dev) (x : Nat) (hps : [.fault, .mbox, .telem, .txn, .xfer, .csr, .ctr] ⊆ ps) : Dev.Keeps ps a₀ (Dev.xComplete d x) ↔ Dev.Keeps ps a₀ d :=
  Dev.Keeps.drop (Dev.xComplete_keep d x) hps
theorem Dev.xStopAll_keep (d : Dev) (code : Nat) (own : Nat → Bool) : Dev.Keeps [.xfer] d (Dev.xStopAll d code own) := by unfold Dev.xStopAll; repeat' (first | simp | refine (Dev.Keeps.foldl (fun b x => ?_) _ _).mpr ?_ | split)
@[simp ↓] theorem Dev.xStopAll_keeps (ps : List Part) (a₀ d : Dev) (code : Nat) (own : Nat → Bool) (hps : [.xfer] ⊆ ps) : Dev.Keeps ps a₀ (Dev.xStopAll d code own) ↔ Dev.Keeps ps a₀ d :=
  Dev.Keeps.drop (Dev.xStopAll_keep d code own) hps
theorem Dev.xReclaim_keep (d : Dev) (k : Nat) : Dev.Keeps [.telem, .xfer] d (Dev.xReclaim d k) := by unfold Dev.xReclaim; repeat' (first | simp | refine (Dev.Keeps.foldl (fun b x => ?_) _ _).mpr ?_ | split)
@[simp ↓] theorem Dev.xReclaim_keeps (ps : List Part) (a₀ d : Dev) (k : Nat) (hps : [.telem, .xfer] ⊆ ps) : Dev.Keeps ps a₀ (Dev.xReclaim d k) ↔ Dev.Keeps ps a₀ d :=
  Dev.Keeps.drop (Dev.xReclaim_keep d k) hps
theorem Dev.totalsEvent_keep (d : Dev) (cause : Nat) (dc : Int) (ds : Int) : Dev.Keeps [.fault, .mbox, .telem, .csr, .ctr] d (Dev.totalsEvent d cause dc ds) := by unfold Dev.totalsEvent; repeat' (first | simp | refine (Dev.Keeps.foldl (fun b x => ?_) _ _).mpr ?_ | split)
@[simp ↓] theorem Dev.totalsEvent_keeps (ps : List Part) (a₀ d : Dev) (cause : Nat) (dc : Int) (ds : Int) (hps : [.fault, .mbox, .telem, .csr, .ctr] ⊆ ps) : Dev.Keeps ps a₀ (Dev.totalsEvent d cause dc ds) ↔ Dev.Keeps ps a₀ d :=
  Dev.Keeps.drop (Dev.totalsEvent_keep d cause dc ds) hps
theorem Dev.evacDesc_keep (d : Dev) (c : Nat) (link : Bool) (e : Dev) (h : d.evacDesc c link = some e) : Dev.Keeps [.xfer] d e := by
  unfold Dev.evacDesc at h
  split at h
  · cases h
  · split at h
    · cases h
    · have e1 := Option.some.inj h; rw [← e1]; simp
theorem Dev.evacStart_keep (d : Dev) (c : Nat) : Dev.Keeps [.xfer, .graft] d (Dev.evacStart d c) := by
  unfold Dev.evacStart; extract_lets d1
  split
  · split
    · rename_i h
      rw [Dev.modXc_keeps _ _ _ _ _ (by simp)]
      exact Dev.Keeps.trans (b := d1) (by simp [d1]) ((Dev.evacDesc_keep _ _ _ _ h).mono (by simp))
    · simp [d1]
  · exact Dev.Keeps.refl _ _
@[simp ↓] theorem Dev.evacStart_keeps (ps : List Part) (a₀ d : Dev) (c : Nat) (hps : [.xfer, .graft] ⊆ ps) : Dev.Keeps ps a₀ (Dev.evacStart d c) ↔ Dev.Keeps ps a₀ d :=
  Dev.Keeps.drop (Dev.evacStart_keep d c) hps
theorem Dev.evacStop_keep (d : Dev) (c : Nat) : Dev.Keeps [.xfer, .graft] d (Dev.evacStop d c) := by unfold Dev.evacStop; repeat' (first | simp | refine (Dev.Keeps.foldl (fun b x => ?_) _ _).mpr ?_ | split)
@[simp ↓] theorem Dev.evacStop_keeps (ps : List Part) (a₀ d : Dev) (c : Nat) (hps : [.xfer, .graft] ⊆ ps) : Dev.Keeps ps a₀ (Dev.evacStop d c) ↔ Dev.Keeps ps a₀ d :=
  Dev.Keeps.drop (Dev.evacStop_keep d c) hps
theorem Dev.evacStuck_keep (d : Dev) (c : Nat) (b : Nat) : Dev.Keeps [.fault, .mbox, .telem, .graft, .csr, .ctr] d (Dev.evacStuck d c b) := by unfold Dev.evacStuck; repeat' (first | simp | refine (Dev.Keeps.foldl (fun b x => ?_) _ _).mpr ?_ | split)
@[simp ↓] theorem Dev.evacStuck_keeps (ps : List Part) (a₀ d : Dev) (c : Nat) (b : Nat) (hps : [.fault, .mbox, .telem, .graft, .csr, .ctr] ⊆ ps) : Dev.Keeps ps a₀ (Dev.evacStuck d c b) ↔ Dev.Keeps ps a₀ d :=
  Dev.Keeps.drop (Dev.evacStuck_keep d c b) hps
theorem Dev.evacReady_keep (d : Dev) (c : Nat) : Dev.Keeps [.fault, .mbox, .telem, .mem, .ecc, .xfer, .csr, .ctr, .free] d (Dev.evacReady d c) := by
  unfold Dev.evacReady; extract_lets x d1
  have h1 : Dev.Keeps [.fault, .mbox, .telem, .mem, .ecc, .xfer, .csr, .ctr, .free] d d1 := by
    unfold d1; split
    · split
      · rename_i h; rw [Dev.modXc_keeps _ _ _ _ _ (by simp)]; exact (Dev.evacDesc_keep _ _ _ _ h).mono (by simp)
      · exact Dev.Keeps.refl _ _
    · split
      · split
        · rename_i h; rw [Dev.xLink_keeps _ _ _ _ (by simp)]; exact (Dev.evacDesc_keep _ _ _ _ h).mono (by simp)
        · exact Dev.Keeps.refl _ _
      · exact Dev.Keeps.refl _ _
  clear_value d1
  split
  · rw [Dev.xFetch_keeps _ _ _ _ (by simp)]; exact h1
  · exact h1
@[simp ↓] theorem Dev.evacReady_keeps (ps : List Part) (a₀ d : Dev) (c : Nat) (hps : [.fault, .mbox, .telem, .mem, .ecc, .xfer, .csr, .ctr, .free] ⊆ ps) : Dev.Keeps ps a₀ (Dev.evacReady d c) ↔ Dev.Keeps ps a₀ d :=
  Dev.Keeps.drop (Dev.evacReady_keep d c) hps
theorem Dev.mapRetired_keep (d : Dev) (c : Nat) : Dev.Keeps [.fault, .mbox, .telem, .mem, .xfer, .csr, .ctr] d (Dev.mapRetired d c) := by
  have hx : ∀ (a : Dev) (u : XferU), Dev.Keeps [.fault, .mbox, .telem, .mem, .xfer, .csr, .ctr] a { a with xfer := u } := fun a u => (Dev.set_xfer_keeps _ _ _ _ (by simp)).mpr (Dev.Keeps.refl _ _)
  unfold Dev.mapRetired; extract_lets r src u d1
  have h : Dev.Keeps [.fault, .mbox, .telem, .mem, .xfer, .csr, .ctr] d r.1 := (Dev.Keeps.foldl_p (γ := Dev × Nat × List Nat) (fun s => s.1) (fun s x => by split <;> simp) _ _).mpr (by simp)
  have h1 : Dev.Keeps [.fault, .mbox, .telem, .mem, .xfer, .csr, .ctr] d d1 := h.trans (hx _ _)
  clear_value d1
  split <;> simpa using h1
@[simp ↓] theorem Dev.mapRetired_keeps (ps : List Part) (a₀ d : Dev) (c : Nat) (hps : [.fault, .mbox, .telem, .mem, .xfer, .csr, .ctr] ⊆ ps) : Dev.Keeps ps a₀ (Dev.mapRetired d c) ↔ Dev.Keeps ps a₀ d :=
  Dev.Keeps.drop (Dev.mapRetired_keep d c) hps
theorem Dev.setLaneEnable_keep (d : Dev) (l : Nat) (on : Bool) : Dev.Keeps [.csr] d (Dev.setLaneEnable d l on) := by unfold Dev.setLaneEnable; repeat' (first | simp | refine (Dev.Keeps.foldl (fun b x => ?_) _ _).mpr ?_ | split)
@[simp ↓] theorem Dev.setLaneEnable_keeps (ps : List Part) (a₀ d : Dev) (l : Nat) (on : Bool) (hps : [.csr] ⊆ ps) : Dev.Keeps ps a₀ (Dev.setLaneEnable d l on) ↔ Dev.Keeps ps a₀ d :=
  Dev.Keeps.drop (Dev.setLaneEnable_keep d l on) hps
theorem Dev.octStop_keep (d : Dev) (o : Nat) : Dev.Keeps [.oct] d (Dev.octStop d o) := by unfold Dev.octStop; repeat' (first | simp | refine (Dev.Keeps.foldl (fun b x => ?_) _ _).mpr ?_ | split)
@[simp ↓] theorem Dev.octStop_keeps (ps : List Part) (a₀ d : Dev) (o : Nat) (hps : [.oct] ⊆ ps) : Dev.Keeps ps a₀ (Dev.octStop d o) ↔ Dev.Keeps ps a₀ d :=
  Dev.Keeps.drop (Dev.octStop_keep d o) hps
theorem Dev.octStart_keep (d : Dev) (o : Nat) : Dev.Keeps [.oct] d (Dev.octStart d o) := by unfold Dev.octStart; repeat' (first | simp | refine (Dev.Keeps.foldl (fun b x => ?_) _ _).mpr ?_ | split)
@[simp ↓] theorem Dev.octStart_keeps (ps : List Part) (a₀ d : Dev) (o : Nat) (hps : [.oct] ⊆ ps) : Dev.Keeps ps a₀ (Dev.octStart d o) ↔ Dev.Keeps ps a₀ d :=
  Dev.Keeps.drop (Dev.octStart_keep d o) hps
theorem Dev.octGates_keep (d : Dev)  : Dev.Keeps [.oct] d (Dev.octGates d) := by unfold Dev.octGates; repeat' (first | simp | refine (Dev.Keeps.foldl (fun b x => ?_) _ _).mpr ?_ | split)
@[simp ↓] theorem Dev.octGates_keeps (ps : List Part) (a₀ d : Dev)  (hps : [.oct] ⊆ ps) : Dev.Keeps ps a₀ (Dev.octGates d) ↔ Dev.Keeps ps a₀ d :=
  Dev.Keeps.drop (Dev.octGates_keep d ) hps
theorem Dev.octLock_keep (d : Dev) (o : Nat) : Dev.Keeps [.oct, .free] d (Dev.octLock d o) := by unfold Dev.octLock; repeat' (first | simp | refine (Dev.Keeps.foldl (fun b x => ?_) _ _).mpr ?_ | split)
@[simp ↓] theorem Dev.octLock_keeps (ps : List Part) (a₀ d : Dev) (o : Nat) (hps : [.oct, .free] ⊆ ps) : Dev.Keeps ps a₀ (Dev.octLock d o) ↔ Dev.Keeps ps a₀ d :=
  Dev.Keeps.drop (Dev.octLock_keep d o) hps
theorem Dev.octLocked_keep (d : Dev) (o : Nat) : Dev.Keeps [.oct, .free] d (Dev.octLocked d o) := by unfold Dev.octLocked; repeat' (first | simp | refine (Dev.Keeps.foldl (fun b x => ?_) _ _).mpr ?_ | split)
@[simp ↓] theorem Dev.octLocked_keeps (ps : List Part) (a₀ d : Dev) (o : Nat) (hps : [.oct, .free] ⊆ ps) : Dev.Keeps ps a₀ (Dev.octLocked d o) ↔ Dev.Keeps ps a₀ d :=
  Dev.Keeps.drop (Dev.octLocked_keep d o) hps
theorem Dev.calWithdraw_keep (d : Dev) (n : Nat) (gap : Bool) : Dev.Keeps [.telem, .therm, .ctr] d (Dev.calWithdraw d n gap) := by unfold Dev.calWithdraw; repeat' (first | simp | refine (Dev.Keeps.foldl (fun b x => ?_) _ _).mpr ?_ | split)
@[simp ↓] theorem Dev.calWithdraw_keeps (ps : List Part) (a₀ d : Dev) (n : Nat) (gap : Bool) (hps : [.telem, .therm, .ctr] ⊆ ps) : Dev.Keeps ps a₀ (Dev.calWithdraw d n gap) ↔ Dev.Keeps ps a₀ d :=
  Dev.Keeps.drop (Dev.calWithdraw_keep d n gap) hps
theorem Dev.gapsNow_keep (d : Dev) (l : Nat) : Dev.Keeps [.telem, .therm, .ctr] d (Dev.gapsNow d l) := by unfold Dev.gapsNow; repeat' (first | simp | refine (Dev.Keeps.foldl (fun b x => ?_) _ _).mpr ?_ | split)
@[simp ↓] theorem Dev.gapsNow_keeps (ps : List Part) (a₀ d : Dev) (l : Nat) (hps : [.telem, .therm, .ctr] ⊆ ps) : Dev.Keeps ps a₀ (Dev.gapsNow d l) ↔ Dev.Keeps ps a₀ d :=
  Dev.Keeps.drop (Dev.gapsNow_keep d l) hps
theorem Dev.frameOut_keep (d : Dev) (l : Nat) (f : Nat) (payload : List Byte) : Dev.Keeps [.lout] d (Dev.frameOut d l f payload) := by unfold Dev.frameOut; repeat' (first | simp | refine (Dev.Keeps.foldl (fun b x => ?_) _ _).mpr ?_ | split)
@[simp ↓] theorem Dev.frameOut_keeps (ps : List Part) (a₀ d : Dev) (l : Nat) (f : Nat) (payload : List Byte) (hps : [.lout] ⊆ ps) : Dev.Keeps ps a₀ (Dev.frameOut d l f payload) ↔ Dev.Keeps ps a₀ d :=
  Dev.Keeps.drop (Dev.frameOut_keep d l f payload) hps
theorem Dev.slotOut_keep (d : Dev) (l : Nat) (off : Nat) (bytes : List Byte) : Dev.Keeps [.lout] d (Dev.slotOut d l off bytes) := by unfold Dev.slotOut; repeat' (first | simp | refine (Dev.Keeps.foldl (fun b x => ?_) _ _).mpr ?_ | split)
@[simp ↓] theorem Dev.slotOut_keeps (ps : List Part) (a₀ d : Dev) (l : Nat) (off : Nat) (bytes : List Byte) (hps : [.lout] ⊆ ps) : Dev.Keeps ps a₀ (Dev.slotOut d l off bytes) ↔ Dev.Keeps ps a₀ d :=
  Dev.Keeps.drop (Dev.slotOut_keep d l off bytes) hps
theorem Dev.laneSend_keep (d : Dev) (l : Nat) : Dev.Keeps [.lout] d (Dev.laneSend d l) := by unfold Dev.laneSend; repeat' (first | simp | refine (Dev.Keeps.foldl (fun b x => ?_) _ _).mpr ?_ | split)
@[simp ↓] theorem Dev.laneSend_keeps (ps : List Part) (a₀ d : Dev) (l : Nat) (hps : [.lout] ⊆ ps) : Dev.Keeps ps a₀ (Dev.laneSend d l) ↔ Dev.Keeps ps a₀ d :=
  Dev.Keeps.drop (Dev.laneSend_keep d l) hps
theorem Dev.prbsSync_keep (d : Dev) (l : Nat) : Dev.Keeps [.lane, .lout, .oct] d (Dev.prbsSync d l) := by unfold Dev.prbsSync; repeat' (first | simp | refine (Dev.Keeps.foldl (fun b x => ?_) _ _).mpr ?_ | split)
@[simp ↓] theorem Dev.prbsSync_keeps (ps : List Part) (a₀ d : Dev) (l : Nat) (hps : [.lane, .lout, .oct] ⊆ ps) : Dev.Keeps ps a₀ (Dev.prbsSync d l) ↔ Dev.Keeps ps a₀ d :=
  Dev.Keeps.drop (Dev.prbsSync_keep d l) hps
theorem Dev.laneDown_keep (d : Dev) (l : Nat) : Dev.Keeps [.csr] d (Dev.laneDown d l) := by unfold Dev.laneDown; repeat' (first | simp | refine (Dev.Keeps.foldl (fun b x => ?_) _ _).mpr ?_ | split)
@[simp ↓] theorem Dev.laneDown_keeps (ps : List Part) (a₀ d : Dev) (l : Nat) (hps : [.csr] ⊆ ps) : Dev.Keeps ps a₀ (Dev.laneDown d l) ↔ Dev.Keeps ps a₀ d :=
  Dev.Keeps.drop (Dev.laneDown_keep d l) hps
theorem Dev.linDrop_keep (d : Dev) (l : Nat) : Dev.Keeps [.lin] d (Dev.linDrop d l) := by unfold Dev.linDrop; repeat' (first | simp | refine (Dev.Keeps.foldl (fun b x => ?_) _ _).mpr ?_ | split)
@[simp ↓] theorem Dev.linDrop_keeps (ps : List Part) (a₀ d : Dev) (l : Nat) (hps : [.lin] ⊆ ps) : Dev.Keeps ps a₀ (Dev.linDrop d l) ↔ Dev.Keeps ps a₀ d :=
  Dev.Keeps.drop (Dev.linDrop_keep d l) hps
theorem Dev.laneOff_keep (d : Dev) (l : Nat) : Dev.Keeps [.lane, .lin, .lout, .oct, .csr] d (Dev.laneOff d l) := by unfold Dev.laneOff; repeat' (first | simp | refine (Dev.Keeps.foldl (fun b x => ?_) _ _).mpr ?_ | split)
@[simp ↓] theorem Dev.laneOff_keeps (ps : List Part) (a₀ d : Dev) (l : Nat) (hps : [.lane, .lin, .lout, .oct, .csr] ⊆ ps) : Dev.Keeps ps a₀ (Dev.laneOff d l) ↔ Dev.Keeps ps a₀ d :=
  Dev.Keeps.drop (Dev.laneOff_keep d l) hps
theorem Dev.laneDetect_keep (d : Dev) (l : Nat) : Dev.Keeps [.lane, .lin, .lout, .oct, .csr] d (Dev.laneDetect d l) := by unfold Dev.laneDetect; repeat' (first | simp | refine (Dev.Keeps.foldl (fun b x => ?_) _ _).mpr ?_ | split)
@[simp ↓] theorem Dev.laneDetect_keeps (ps : List Part) (a₀ d : Dev) (l : Nat) (hps : [.lane, .lin, .lout, .oct, .csr] ⊆ ps) : Dev.Keeps ps a₀ (Dev.laneDetect d l) ↔ Dev.Keeps ps a₀ d :=
  Dev.Keeps.drop (Dev.laneDetect_keep d l) hps
theorem Dev.laneTrain_keep (d : Dev) (l : Nat) : Dev.Keeps [.lane, .lin, .lout, .csr] d (Dev.laneTrain d l) := by unfold Dev.laneTrain; repeat' (first | simp | refine (Dev.Keeps.foldl (fun b x => ?_) _ _).mpr ?_ | split)
@[simp ↓] theorem Dev.laneTrain_keeps (ps : List Part) (a₀ d : Dev) (l : Nat) (hps : [.lane, .lin, .lout, .csr] ⊆ ps) : Dev.Keeps ps a₀ (Dev.laneTrain d l) ↔ Dev.Keeps ps a₀ d :=
  Dev.Keeps.drop (Dev.laneTrain_keep d l) hps
theorem Dev.laneLock_keep (d : Dev) (l : Nat) : Dev.Keeps [.lane, .lout] d (Dev.laneLock d l) := by unfold Dev.laneLock; repeat' (first | simp | refine (Dev.Keeps.foldl (fun b x => ?_) _ _).mpr ?_ | split)
@[simp ↓] theorem Dev.laneLock_keeps (ps : List Part) (a₀ d : Dev) (l : Nat) (hps : [.lane, .lout] ⊆ ps) : Dev.Keeps ps a₀ (Dev.laneLock d l) ↔ Dev.Keeps ps a₀ d :=
  Dev.Keeps.drop (Dev.laneLock_keep d l) hps
theorem Dev.laneFail_keep (d : Dev) (l : Nat) (cause : Nat) : Dev.Keeps [.lane, .lin, .lout, .oct] d (Dev.laneFail d l cause) := by unfold Dev.laneFail; repeat' (first | simp | refine (Dev.Keeps.foldl (fun b x => ?_) _ _).mpr ?_ | split)
@[simp ↓] theorem Dev.laneFail_keeps (ps : List Part) (a₀ d : Dev) (l : Nat) (cause : Nat) (hps : [.lane, .lin, .lout, .oct] ⊆ ps) : Dev.Keeps ps a₀ (Dev.laneFail d l cause) ↔ Dev.Keeps ps a₀ d :=
  Dev.Keeps.drop (Dev.laneFail_keep d l cause) hps
theorem Dev.laneActive_keep (d : Dev) (l : Nat) : Dev.Keeps [.lane, .lin, .lout, .csr] d (Dev.laneActive d l) := by unfold Dev.laneActive; repeat' (first | simp | refine (Dev.Keeps.foldl (fun b x => ?_) _ _).mpr ?_ | split)
@[simp ↓] theorem Dev.laneActive_keeps (ps : List Part) (a₀ d : Dev) (l : Nat) (hps : [.lane, .lin, .lout, .csr] ⊆ ps) : Dev.Keeps ps a₀ (Dev.laneActive d l) ↔ Dev.Keeps ps a₀ d :=
  Dev.Keeps.drop (Dev.laneActive_keep d l) hps
theorem Dev.laneEnable_keep (d : Dev) (l : Nat) : Dev.Keeps [.lane, .lin, .lout, .oct, .csr] d (Dev.laneEnable d l) := by unfold Dev.laneEnable; repeat' (first | simp | refine (Dev.Keeps.foldl (fun b x => ?_) _ _).mpr ?_ | split)
@[simp ↓] theorem Dev.laneEnable_keeps (ps : List Part) (a₀ d : Dev) (l : Nat) (hps : [.lane, .lin, .lout, .oct, .csr] ⊆ ps) : Dev.Keeps ps a₀ (Dev.laneEnable d l) ↔ Dev.Keeps ps a₀ d :=
  Dev.Keeps.drop (Dev.laneEnable_keep d l) hps
theorem Dev.sendLsig_keep (d : Dev) (l : Nat) (sig : Nat) : Dev.Keeps [.lane, .lout] d (Dev.sendLsig d l sig) := by unfold Dev.sendLsig; repeat' (first | simp | refine (Dev.Keeps.foldl (fun b x => ?_) _ _).mpr ?_ | split)
@[simp ↓] theorem Dev.sendLsig_keeps (ps : List Part) (a₀ d : Dev) (l : Nat) (sig : Nat) (hps : [.lane, .lout] ⊆ ps) : Dev.Keeps ps a₀ (Dev.sendLsig d l sig) ↔ Dev.Keeps ps a₀ d :=
  Dev.Keeps.drop (Dev.sendLsig_keep d l sig) hps
theorem Dev.laneRetrainNow_keep (d : Dev) (l : Nat) : Dev.Keeps [.lane, .lin, .lout, .csr] d (Dev.laneRetrainNow d l) := by unfold Dev.laneRetrainNow; repeat' (first | simp | refine (Dev.Keeps.foldl (fun b x => ?_) _ _).mpr ?_ | split)
@[simp ↓] theorem Dev.laneRetrainNow_keeps (ps : List Part) (a₀ d : Dev) (l : Nat) (hps : [.lane, .lin, .lout, .csr] ⊆ ps) : Dev.Keeps ps a₀ (Dev.laneRetrainNow d l) ↔ Dev.Keeps ps a₀ d :=
  Dev.Keeps.drop (Dev.laneRetrainNow_keep d l) hps
theorem Dev.laneRetrain_keep (d : Dev) (l : Nat) : Dev.Keeps [.lane, .lin, .lout, .oct, .csr] d (Dev.laneRetrain d l) := by unfold Dev.laneRetrain; repeat' (first | simp | refine (Dev.Keeps.foldl (fun b x => ?_) _ _).mpr ?_ | split)
@[simp ↓] theorem Dev.laneRetrain_keeps (ps : List Part) (a₀ d : Dev) (l : Nat) (hps : [.lane, .lin, .lout, .oct, .csr] ⊆ ps) : Dev.Keeps ps a₀ (Dev.laneRetrain d l) ↔ Dev.Keeps ps a₀ d :=
  Dev.Keeps.drop (Dev.laneRetrain_keep d l) hps
theorem Dev.laneRest_keep (d : Dev) (l : Nat) (s : LaneSt) (sig : Nat) : Dev.Keeps [.lane, .lin, .lout, .oct] d (Dev.laneRest d l s sig) := by unfold Dev.laneRest; repeat' (first | simp | refine (Dev.Keeps.foldl (fun b x => ?_) _ _).mpr ?_ | split)
@[simp ↓] theorem Dev.laneRest_keeps (ps : List Part) (a₀ d : Dev) (l : Nat) (s : LaneSt) (sig : Nat) (hps : [.lane, .lin, .lout, .oct] ⊆ ps) : Dev.Keeps ps a₀ (Dev.laneRest d l s sig) ↔ Dev.Keeps ps a₀ d :=
  Dev.Keeps.drop (Dev.laneRest_keep d l s sig) hps
theorem Dev.laneQuiet_keep (d : Dev) (l : Nat) : Dev.Keeps [.lane, .lin, .lout, .oct, .csr] d (Dev.laneQuiet d l) := by unfold Dev.laneQuiet; repeat' (first | simp | refine (Dev.Keeps.foldl (fun b x => ?_) _ _).mpr ?_ | split)
@[simp ↓] theorem Dev.laneQuiet_keeps (ps : List Part) (a₀ d : Dev) (l : Nat) (hps : [.lane, .lin, .lout, .oct, .csr] ⊆ ps) : Dev.Keeps ps a₀ (Dev.laneQuiet d l) ↔ Dev.Keeps ps a₀ d :=
  Dev.Keeps.drop (Dev.laneQuiet_keep d l) hps
theorem Dev.laneDeep_keep (d : Dev) (l : Nat) : Dev.Keeps [.lane, .lin, .lout, .oct, .csr] d (Dev.laneDeep d l) := by unfold Dev.laneDeep; repeat' (first | simp | refine (Dev.Keeps.foldl (fun b x => ?_) _ _).mpr ?_ | split)
@[simp ↓] theorem Dev.laneDeep_keeps (ps : List Part) (a₀ d : Dev) (l : Nat) (hps : [.lane, .lin, .lout, .oct, .csr] ⊆ ps) : Dev.Keeps ps a₀ (Dev.laneDeep d l) ↔ Dev.Keeps ps a₀ d :=
  Dev.Keeps.drop (Dev.laneDeep_keep d l) hps
theorem Dev.laneWake_keep (d : Dev) (l : Nat) : Dev.Keeps [.lane, .lin, .lout, .oct, .telem, .therm, .csr, .ctr] d (Dev.laneWake d l) := by unfold Dev.laneWake; repeat' (first | simp | refine (Dev.Keeps.foldl (fun b x => ?_) _ _).mpr ?_ | split)
@[simp ↓] theorem Dev.laneWake_keeps (ps : List Part) (a₀ d : Dev) (l : Nat) (hps : [.lane, .lin, .lout, .oct, .telem, .therm, .csr, .ctr] ⊆ ps) : Dev.Keeps ps a₀ (Dev.laneWake d l) ↔ Dev.Keeps ps a₀ d :=
  Dev.Keeps.drop (Dev.laneWake_keep d l) hps
theorem Dev.laneAdapt_keep (d : Dev) (l : Nat) : Dev.Keeps [.lane, .free] d (Dev.laneAdapt d l) := by unfold Dev.laneAdapt; repeat' (first | simp | refine (Dev.Keeps.foldl (fun b x => ?_) _ _).mpr ?_ | split)
@[simp ↓] theorem Dev.laneAdapt_keeps (ps : List Part) (a₀ d : Dev) (l : Nat) (hps : [.lane, .free] ⊆ ps) : Dev.Keeps ps a₀ (Dev.laneAdapt d l) ↔ Dev.Keeps ps a₀ d :=
  Dev.Keeps.drop (Dev.laneAdapt_keep d l) hps
theorem Dev.trainAsk_keep (d : Dev) (l : Nat) : Dev.Keeps [.lane, .free] d (Dev.trainAsk d l) := by unfold Dev.trainAsk; repeat' (first | simp | refine (Dev.Keeps.foldl (fun b x => ?_) _ _).mpr ?_ | split)
@[simp ↓] theorem Dev.trainAsk_keeps (ps : List Part) (a₀ d : Dev) (l : Nat) (hps : [.lane, .free] ⊆ ps) : Dev.Keeps ps a₀ (Dev.trainAsk d l) ↔ Dev.Keeps ps a₀ d :=
  Dev.Keeps.drop (Dev.trainAsk_keep d l) hps
theorem Dev.trainFrame_keep (d : Dev) (l : Nat) (ctl : Word) (inv : Word) (inverted : Bool) (adapted : Bool) : Dev.Keeps [.lane, .lout, .free] d (Dev.trainFrame d l ctl inv inverted adapted) := by unfold Dev.trainFrame; repeat' (first | simp | refine (Dev.Keeps.foldl (fun b x => ?_) _ _).mpr ?_ | split)
@[simp ↓] theorem Dev.trainFrame_keeps (ps : List Part) (a₀ d : Dev) (l : Nat) (ctl : Word) (inv : Word) (inverted : Bool) (adapted : Bool) (hps : [.lane, .lout, .free] ⊆ ps) : Dev.Keeps ps a₀ (Dev.trainFrame d l ctl inv inverted adapted) ↔ Dev.Keeps ps a₀ d :=
  Dev.Keeps.drop (Dev.trainFrame_keep d l ctl inv inverted adapted) hps
theorem Dev.capBlock_keep (d : Dev) (l : Nat) (b : List Byte) : Dev.Keeps [.lane, .lin, .lout, .oct, .csr] d (Dev.capBlock d l b) := by unfold Dev.capBlock; repeat' (first | simp | refine (Dev.Keeps.foldl (fun b x => ?_) _ _).mpr ?_ | split)
@[simp ↓] theorem Dev.capBlock_keeps (ps : List Part) (a₀ d : Dev) (l : Nat) (b : List Byte) (hps : [.lane, .lin, .lout, .oct, .csr] ⊆ ps) : Dev.Keeps ps a₀ (Dev.capBlock d l b) ↔ Dev.Keeps ps a₀ d :=
  Dev.Keeps.drop (Dev.capBlock_keep d l b) hps
theorem Dev.laneWindow_keep (d : Dev) (l : Nat) : Dev.Keeps [.lane] d (Dev.laneWindow d l) := by unfold Dev.laneWindow; repeat' (first | simp | refine (Dev.Keeps.foldl (fun b x => ?_) _ _).mpr ?_ | split)
@[simp ↓] theorem Dev.laneWindow_keeps (ps : List Part) (a₀ d : Dev) (l : Nat) (hps : [.lane] ⊆ ps) : Dev.Keeps ps a₀ (Dev.laneWindow d l) ↔ Dev.Keeps ps a₀ d :=
  Dev.Keeps.drop (Dev.laneWindow_keep d l) hps
theorem Dev.respond_keep (d : Dev) (o : Nat) (i : Nat) (status : Nat) (result : List Byte) : Dev.Keeps [.mbox, .boot, .ctr] d (Dev.respond d o i status result) := by unfold Dev.respond; repeat' (first | simp | refine (Dev.Keeps.foldl (fun b x => ?_) _ _).mpr ?_ | split)
@[simp ↓] theorem Dev.respond_keeps (ps : List Part) (a₀ d : Dev) (o : Nat) (i : Nat) (status : Nat) (result : List Byte) (hps : [.mbox, .boot, .ctr] ⊆ ps) : Dev.Keeps ps a₀ (Dev.respond d o i status result) ↔ Dev.Keeps ps a₀ d :=
  Dev.Keeps.drop (Dev.respond_keep d o i status result) hps
theorem Dev.postCmd_keep (d : Dev) (o : Nat) (i : Nat) (img : List Byte) (port : Option Nat) : Dev.Keeps [.mbox, .txn, .boot, .csr, .ctr] d (Dev.postCmd d o i img port) := by unfold Dev.postCmd; repeat' (first | simp | refine (Dev.Keeps.foldl (fun b x => ?_) _ _).mpr ?_ | split)
@[simp ↓] theorem Dev.postCmd_keeps (ps : List Part) (a₀ d : Dev) (o : Nat) (i : Nat) (img : List Byte) (port : Option Nat) (hps : [.mbox, .txn, .boot, .csr, .ctr] ⊆ ps) : Dev.Keeps ps a₀ (Dev.postCmd d o i img port) ↔ Dev.Keeps ps a₀ d :=
  Dev.Keeps.drop (Dev.postCmd_keep d o i img port) hps
theorem Dev.restartPairs_keep (d : Dev)  : Dev.Keeps [.mbox, .boot, .ctr] d (Dev.restartPairs d) := by unfold Dev.restartPairs; repeat' (first | simp | refine (Dev.Keeps.foldl (fun b x => ?_) _ _).mpr ?_ | split)
@[simp ↓] theorem Dev.restartPairs_keeps (ps : List Part) (a₀ d : Dev)  (hps : [.mbox, .boot, .ctr] ⊆ ps) : Dev.Keeps ps a₀ (Dev.restartPairs d) ↔ Dev.Keeps ps a₀ d :=
  Dev.Keeps.drop (Dev.restartPairs_keep d ) hps
theorem Dev.answerPosted_keep (d : Dev) (o : Nat) (status : Nat) : Dev.Keeps [.mbox, .boot, .ctr] d (Dev.answerPosted d o status) := by unfold Dev.answerPosted; repeat' (first | simp | refine (Dev.Keeps.foldl (fun b x => ?_) _ _).mpr ?_ | split)
@[simp ↓] theorem Dev.answerPosted_keeps (ps : List Part) (a₀ d : Dev) (o : Nat) (status : Nat) (hps : [.mbox, .boot, .ctr] ⊆ ps) : Dev.Keeps ps a₀ (Dev.answerPosted d o status) ↔ Dev.Keeps ps a₀ d :=
  Dev.Keeps.drop (Dev.answerPosted_keep d o status) hps
theorem Dev.mboxReclaim_keep (d : Dev) (o : Nat) : Dev.Keeps [.mbox] d (Dev.mboxReclaim d o) := by unfold Dev.mboxReclaim; repeat' (first | simp | refine (Dev.Keeps.foldl (fun b x => ?_) _ _).mpr ?_ | split)
@[simp ↓] theorem Dev.mboxReclaim_keeps (ps : List Part) (a₀ d : Dev) (o : Nat) (hps : [.mbox] ⊆ ps) : Dev.Keeps ps a₀ (Dev.mboxReclaim d o) ↔ Dev.Keeps ps a₀ d :=
  Dev.Keeps.drop (Dev.mboxReclaim_keep d o) hps
theorem Dev.spareCheck_keep (d : Dev) (k : Nat) : Dev.Keeps [.ptn, .fault, .mbox, .telem, .csr, .ctr] d (Dev.spareCheck d k) := by unfold Dev.spareCheck; repeat' (first | simp | refine (Dev.Keeps.foldl (fun b x => ?_) _ _).mpr ?_ | split)
@[simp ↓] theorem Dev.spareCheck_keeps (ps : List Part) (a₀ d : Dev) (k : Nat) (hps : [.ptn, .fault, .mbox, .telem, .csr, .ctr] ⊆ ps) : Dev.Keeps ps a₀ (Dev.spareCheck d k) ↔ Dev.Keeps ps a₀ d :=
  Dev.Keeps.drop (Dev.spareCheck_keep d k) hps
theorem Dev.dropArriving_keep (d : Dev) (n : Nat) : Dev.Keeps [.rx, .txn, .qm] d (Dev.dropArriving d n) := by unfold Dev.dropArriving; repeat' (first | simp | refine (Dev.Keeps.foldl (fun b x => ?_) _ _).mpr ?_ | split)
@[simp ↓] theorem Dev.dropArriving_keeps (ps : List Part) (a₀ d : Dev) (n : Nat) (hps : [.rx, .txn, .qm] ⊆ ps) : Dev.Keeps ps a₀ (Dev.dropArriving d n) ↔ Dev.Keeps ps a₀ d :=
  Dev.Keeps.drop (Dev.dropArriving_keep d n) hps
theorem Dev.rspDropped_keep (d : Dev) (k : Nat) : Dev.Keeps [.ptn, .fault, .mbox, .telem, .csr, .ctr] d (Dev.rspDropped d k) := by unfold Dev.rspDropped; repeat' (first | simp | refine (Dev.Keeps.foldl (fun b x => ?_) _ _).mpr ?_ | split)
@[simp ↓] theorem Dev.rspDropped_keeps (ps : List Part) (a₀ d : Dev) (k : Nat) (hps : [.ptn, .fault, .mbox, .telem, .csr, .ctr] ⊆ ps) : Dev.Keeps ps a₀ (Dev.rspDropped d k) ↔ Dev.Keeps ps a₀ d :=
  Dev.Keeps.drop (Dev.rspDropped_keep d k) hps
theorem Dev.dropVc3_keep (d : Dev) (n : Nat) : Dev.Keeps [.ptn, .fault, .mbox, .telem, .csr, .ctr] d (Dev.dropVc3 d n) := by unfold Dev.dropVc3; repeat' (first | simp | refine (Dev.Keeps.foldl (fun b x => ?_) _ _).mpr ?_ | split)
@[simp ↓] theorem Dev.dropVc3_keeps (ps : List Part) (a₀ d : Dev) (n : Nat) (hps : [.ptn, .fault, .mbox, .telem, .csr, .ctr] ⊆ ps) : Dev.Keeps ps a₀ (Dev.dropVc3 d n) ↔ Dev.Keeps ps a₀ d :=
  Dev.Keeps.drop (Dev.dropVc3_keep d n) hps
theorem Dev.portClear_keep (d : Dev) (n : Nat) : Dev.Keeps [.port, .rx, .tx, .ptx, .ptn, .fault, .mbox, .telem, .txn, .qm, .csr, .ctr] d (Dev.portClear d n) := by
  unfold Dev.portClear; extract_lets d1
  have h : Dev.Keeps [.port, .rx, .tx, .ptx, .ptn, .fault, .mbox, .telem, .txn, .qm, .csr, .ctr] d d1 := by unfold d1; simp
  clear_value d1
  exact h.trans (fun p hp => by cases p <;> first | rfl | exact ⟨rfl, rfl⟩ | exact ⟨rfl, rfl, rfl⟩ | exact absurd (by simp) hp)
@[simp ↓] theorem Dev.portClear_keeps (ps : List Part) (a₀ d : Dev) (n : Nat) (hps : [.port, .rx, .tx, .ptx, .ptn, .fault, .mbox, .telem, .txn, .qm, .csr, .ctr] ⊆ ps) : Dev.Keeps ps a₀ (Dev.portClear d n) ↔ Dev.Keeps ps a₀ d :=
  Dev.Keeps.drop (Dev.portClear_keep d n) hps
theorem Dev.portDown_keep (d : Dev) (n : Nat) : Dev.Keeps [.csr] d (Dev.portDown d n) := by unfold Dev.portDown; repeat' (first | simp | refine (Dev.Keeps.foldl (fun b x => ?_) _ _).mpr ?_ | split)
@[simp ↓] theorem Dev.portDown_keeps (ps : List Part) (a₀ d : Dev) (n : Nat) (hps : [.csr] ⊆ ps) : Dev.Keeps ps a₀ (Dev.portDown d n) ↔ Dev.Keeps ps a₀ d :=
  Dev.Keeps.drop (Dev.portDown_keep d n) hps
theorem Dev.portNeg_keep (d : Dev) (n : Nat) : Dev.Keeps [.port] d (Dev.portNeg d n) := by unfold Dev.portNeg; repeat' (first | simp | refine (Dev.Keeps.foldl (fun b x => ?_) _ _).mpr ?_ | split)
@[simp ↓] theorem Dev.portNeg_keeps (ps : List Part) (a₀ d : Dev) (n : Nat) (hps : [.port] ⊆ ps) : Dev.Keeps ps a₀ (Dev.portNeg d n) ↔ Dev.Keeps ps a₀ d :=
  Dev.Keeps.drop (Dev.portNeg_keep d n) hps
theorem Dev.portBond_keep (d : Dev) (n : Nat) (fresh : Bool) : Dev.Keeps [.port, .rx, .tx, .ptx, .ptn, .fault, .mbox, .telem, .txn, .qm, .csr, .ctr] d (Dev.portBond d n fresh) := by unfold Dev.portBond; repeat' (first | simp | refine (Dev.Keeps.foldl (fun b x => ?_) _ _).mpr ?_ | split)
@[simp ↓] theorem Dev.portBond_keeps (ps : List Part) (a₀ d : Dev) (n : Nat) (fresh : Bool) (hps : [.port, .rx, .tx, .ptx, .ptn, .fault, .mbox, .telem, .txn, .qm, .csr, .ctr] ⊆ ps) : Dev.Keeps ps a₀ (Dev.portBond d n fresh) ↔ Dev.Keeps ps a₀ d :=
  Dev.Keeps.drop (Dev.portBond_keep d n fresh) hps
theorem Dev.raiseLaw_keep (d : Dev) (law : Nat) (k : Nat) (vc : Nat) (diff : Int) (inj : Bool) : Dev.Keeps [.fault, .mbox, .telem, .csr, .ctr] d (Dev.raiseLaw d law k vc diff inj) := by unfold Dev.raiseLaw; repeat' (first | simp | refine (Dev.Keeps.foldl (fun b x => ?_) _ _).mpr ?_ | split)
@[simp ↓] theorem Dev.raiseLaw_keeps (ps : List Part) (a₀ d : Dev) (law : Nat) (k : Nat) (vc : Nat) (diff : Int) (inj : Bool) (hps : [.fault, .mbox, .telem, .csr, .ctr] ⊆ ps) : Dev.Keeps ps a₀ (Dev.raiseLaw d law k vc diff inj) ↔ Dev.Keeps ps a₀ d :=
  Dev.Keeps.drop (Dev.raiseLaw_keep d law k vc diff inj) hps
theorem Dev.departReq_keep (d : Dev) (r : Req) : Dev.Keeps [.txn, .mem, .qm, .csr, .ctr] d (Dev.departReq d r) := by unfold Dev.departReq; repeat' (first | simp | refine (Dev.Keeps.foldl (fun b x => ?_) _ _).mpr ?_ | split)
@[simp ↓] theorem Dev.departReq_keeps (ps : List Part) (a₀ d : Dev) (r : Req) (hps : [.txn, .mem, .qm, .csr, .ctr] ⊆ ps) : Dev.Keeps ps a₀ (Dev.departReq d r) ↔ Dev.Keeps ps a₀ d :=
  Dev.Keeps.drop (Dev.departReq_keep d r) hps
theorem Dev.departFrags_keep (d : Dev) (k : Nat) : Dev.Keeps [.txn] d (Dev.departFrags d k) := by unfold Dev.departFrags; repeat' (first | simp | refine (Dev.Keeps.foldl (fun b x => ?_) _ _).mpr ?_ | split)
@[simp ↓] theorem Dev.departFrags_keeps (ps : List Part) (a₀ d : Dev) (k : Nat) (hps : [.txn] ⊆ ps) : Dev.Keeps ps a₀ (Dev.departFrags d k) ↔ Dev.Keeps ps a₀ d :=
  Dev.Keeps.drop (Dev.departFrags_keep d k) hps
theorem Dev.depart_keep (d : Dev) (k : Nat) (abrupt : Bool) (keep : Option Nat) : Dev.Keeps [.port, .rx, .tx, .ptx, .ptn, .fault, .mbox, .telem, .txn, .mem, .qm, .xfer, .csr, .ctr, .sel] d (Dev.depart d k abrupt keep) := by
  unfold Dev.depart; extract_lets ports ms d1 d2 d3 d4 d5 d6
  have h1 : Dev.Keeps [.port, .rx, .tx, .ptx, .ptn, .fault, .mbox, .telem, .txn, .mem, .qm, .xfer, .csr, .ctr, .sel] d d1 := by simp [d1]
  clear_value d1
  have h2 : Dev.Keeps [.port, .rx, .tx, .ptx, .ptn, .fault, .mbox, .telem, .txn, .mem, .qm, .xfer, .csr, .ctr, .sel] d d2 := h1.trans ((Dev.Keeps.foldl (fun b x => by split <;> simp) _ _).mpr (Dev.Keeps.refl _ _))
  clear_value d2
  have h3 : Dev.Keeps [.port, .rx, .tx, .ptx, .ptn, .fault, .mbox, .telem, .txn, .mem, .qm, .xfer, .csr, .ctr, .sel] d d3 := h2.trans ((Dev.Keeps.foldl (fun b x => by simp) _ _).mpr (Dev.Keeps.refl _ _))
  clear_value d3
  have h4 : Dev.Keeps [.port, .rx, .tx, .ptx, .ptn, .fault, .mbox, .telem, .txn, .mem, .qm, .xfer, .csr, .ctr, .sel] d d4 := by simpa [d4] using h3
  clear_value d4
  have h5 : Dev.Keeps [.port, .rx, .tx, .ptx, .ptn, .fault, .mbox, .telem, .txn, .mem, .qm, .xfer, .csr, .ctr, .sel] d d5 := h4.trans ((Dev.Keeps.foldl (fun b x => by split <;> simp) _ _).mpr (Dev.Keeps.refl _ _))
  clear_value d5
  have h6 : Dev.Keeps [.port, .rx, .tx, .ptx, .ptn, .fault, .mbox, .telem, .txn, .mem, .qm, .xfer, .csr, .ctr, .sel] d d6 := by simpa [d6] using h5
  clear_value d6
  split
  · exact Dev.Keeps.refl _ _
  · split <;> simpa using h6
@[simp ↓] theorem Dev.depart_keeps (ps : List Part) (a₀ d : Dev) (k : Nat) (abrupt : Bool) (keep : Option Nat) (hps : [.port, .rx, .tx, .ptx, .ptn, .fault, .mbox, .telem, .txn, .mem, .qm, .xfer, .csr, .ctr, .sel] ⊆ ps) : Dev.Keeps ps a₀ (Dev.depart d k abrupt keep) ↔ Dev.Keeps ps a₀ d :=
  Dev.Keeps.drop (Dev.depart_keep d k abrupt keep) hps
theorem Dev.tellLost_keep (d : Dev) (n : Nat) (anew : Bool) : Dev.Keeps [.port, .rx, .tx, .ptx, .ptn, .fault, .mbox, .telem, .txn, .mem, .qm, .xfer, .csr, .ctr, .sel] d (Dev.tellLost d n anew) := by unfold Dev.tellLost; repeat' (first | simp | refine (Dev.Keeps.foldl (fun b x => ?_) _ _).mpr ?_ | split)
@[simp ↓] theorem Dev.tellLost_keeps (ps : List Part) (a₀ d : Dev) (n : Nat) (anew : Bool) (hps : [.port, .rx, .tx, .ptx, .ptn, .fault, .mbox, .telem, .txn, .mem, .qm, .xfer, .csr, .ctr, .sel] ⊆ ps) : Dev.Keeps ps a₀ (Dev.tellLost d n anew) ↔ Dev.Keeps ps a₀ d :=
  Dev.Keeps.drop (Dev.tellLost_keep d n anew) hps
theorem Dev.setLastNo_keep (d : Dev) (t : Tab Nat) : Dev.Keeps [.ptn] d { d with link := { d.link with lastNo := t } } :=
  fun p hp => by cases p <;> first | rfl | exact ⟨rfl, rfl⟩ | exact ⟨rfl, rfl, rfl⟩ | exact absurd (by simp) hp
@[simp ↓] theorem Dev.setLastNo_keeps (ps : List Part) (a₀ d : Dev) (t : Tab Nat) (hps : .ptn ∈ ps) :
    Dev.Keeps ps a₀ { d with link := { d.link with lastNo := t } } ↔ Dev.Keeps ps a₀ d := Dev.Keeps.drop (Dev.setLastNo_keep d t) (by simpa using hps)
theorem Dev.attach_keep (d : Dev) (n : Nat) (k : Nat) : Dev.Keeps [.port, .ptn, .fault, .mbox, .telem, .csr, .ctr, .sel] d (Dev.attach d n k) := by unfold Dev.attach; repeat' (first | simp | refine (Dev.Keeps.foldl (fun b x => ?_) _ _).mpr ?_ | split)
@[simp ↓] theorem Dev.attach_keeps (ps : List Part) (a₀ d : Dev) (n : Nat) (k : Nat) (hps : [.port, .ptn, .fault, .mbox, .telem, .csr, .ctr, .sel] ⊆ ps) : Dev.Keeps ps a₀ (Dev.attach d n k) ↔ Dev.Keeps ps a₀ d :=
  Dev.Keeps.drop (Dev.attach_keep d n k) hps
theorem Dev.join_keep (d : Dev) (n : Nat) (k : Nat) : Dev.Keeps [.port, .ptn, .fault, .mbox, .telem, .csr, .ctr] d (Dev.join d n k) := by unfold Dev.join; repeat' (first | simp | refine (Dev.Keeps.foldl (fun b x => ?_) _ _).mpr ?_ | split)
@[simp ↓] theorem Dev.join_keeps (ps : List Part) (a₀ d : Dev) (n : Nat) (k : Nat) (hps : [.port, .ptn, .fault, .mbox, .telem, .csr, .ctr] ⊆ ps) : Dev.Keeps ps a₀ (Dev.join d n k) ↔ Dev.Keeps ps a₀ d :=
  Dev.Keeps.drop (Dev.join_keep d n k) hps
theorem Dev.portUp_keep (d : Dev) (n : Nat) : Dev.Keeps [.port, .csr] d (Dev.portUp d n) := by unfold Dev.portUp; repeat' (first | simp | refine (Dev.Keeps.foldl (fun b x => ?_) _ _).mpr ?_ | split)
@[simp ↓] theorem Dev.portUp_keeps (ps : List Part) (a₀ d : Dev) (n : Nat) (hps : [.port, .csr] ⊆ ps) : Dev.Keeps ps a₀ (Dev.portUp d n) ↔ Dev.Keeps ps a₀ d :=
  Dev.Keeps.drop (Dev.portUp_keep d n) hps
theorem Dev.portLanesUp_keep (d : Dev) (n : Nat) : Dev.Keeps [.lane, .lin, .lout, .oct, .port, .fault, .mbox, .telem, .csr, .ctr] d (Dev.portLanesUp d n) := by unfold Dev.portLanesUp; repeat' (first | simp | refine (Dev.Keeps.foldl (fun b x => ?_) _ _).mpr ?_ | split)
@[simp ↓] theorem Dev.portLanesUp_keeps (ps : List Part) (a₀ d : Dev) (n : Nat) (hps : [.lane, .lin, .lout, .oct, .port, .fault, .mbox, .telem, .csr, .ctr] ⊆ ps) : Dev.Keeps ps a₀ (Dev.portLanesUp d n) ↔ Dev.Keeps ps a₀ d :=
  Dev.Keeps.drop (Dev.portLanesUp_keep d n) hps
theorem Dev.pmTell_keep (d : Dev) (n : Nat) : Dev.Keeps [.port, .fault, .mbox, .telem, .csr, .ctr] d (Dev.pmTell d n) := by unfold Dev.pmTell; repeat' (first | simp | refine (Dev.Keeps.foldl (fun b x => ?_) _ _).mpr ?_ | split)
@[simp ↓] theorem Dev.pmTell_keeps (ps : List Part) (a₀ d : Dev) (n : Nat) (hps : [.port, .fault, .mbox, .telem, .csr, .ctr] ⊆ ps) : Dev.Keeps ps a₀ (Dev.pmTell d n) ↔ Dev.Keeps ps a₀ d :=
  Dev.Keeps.drop (Dev.pmTell_keep d n) hps
theorem Dev.portFinish_keep (d : Dev) (n : Nat) : Dev.Keeps [.lane, .lin, .lout, .oct, .port, .ptn, .fault, .mbox, .telem, .csr, .ctr, .sel] d (Dev.portFinish d n) := by unfold Dev.portFinish; repeat' (first | simp | refine (Dev.Keeps.foldl (fun b x => ?_) _ _).mpr ?_ | split)
@[simp ↓] theorem Dev.portFinish_keeps (ps : List Part) (a₀ d : Dev) (n : Nat) (hps : [.lane, .lin, .lout, .oct, .port, .ptn, .fault, .mbox, .telem, .csr, .ctr, .sel] ⊆ ps) : Dev.Keeps ps a₀ (Dev.portFinish d n) ↔ Dev.Keeps ps a₀ d :=
  Dev.Keeps.drop (Dev.portFinish_keep d n) hps
theorem Dev.retryPorts_keep (d : Dev)  : Dev.Keeps [.lane, .lin, .lout, .oct, .port, .ptn, .fault, .mbox, .telem, .csr, .ctr, .sel] d (Dev.retryPorts d) := by unfold Dev.retryPorts; repeat' (first | simp | refine (Dev.Keeps.foldl (fun b x => ?_) _ _).mpr ?_ | split)
@[simp ↓] theorem Dev.retryPorts_keeps (ps : List Part) (a₀ d : Dev)  (hps : [.lane, .lin, .lout, .oct, .port, .ptn, .fault, .mbox, .telem, .csr, .ctr, .sel] ⊆ ps) : Dev.Keeps ps a₀ (Dev.retryPorts d) ↔ Dev.Keeps ps a₀ d :=
  Dev.Keeps.drop (Dev.retryPorts_keep d ) hps
theorem Dev.retryOf_keep (d : Dev) (n : Nat) (chip : Nat) : Dev.Keeps [.lane, .lin, .lout, .oct, .port, .ptn, .fault, .mbox, .telem, .csr, .ctr, .sel] d (Dev.retryOf d n chip) := by unfold Dev.retryOf; repeat' (first | simp | refine (Dev.Keeps.foldl (fun b x => ?_) _ _).mpr ?_ | split)
@[simp ↓] theorem Dev.retryOf_keeps (ps : List Part) (a₀ d : Dev) (n : Nat) (chip : Nat) (hps : [.lane, .lin, .lout, .oct, .port, .ptn, .fault, .mbox, .telem, .csr, .ctr, .sel] ⊆ ps) : Dev.Keeps ps a₀ (Dev.retryOf d n chip) ↔ Dev.Keeps ps a₀ d :=
  Dev.Keeps.drop (Dev.retryOf_keep d n chip) hps
theorem Dev.reclaimDone_keep (d : Dev) (k : Nat) : Dev.Keeps [.lane, .lin, .lout, .oct, .port, .ptn, .fault, .mbox, .telem, .csr, .ctr, .sel] d (Dev.reclaimDone d k) := by unfold Dev.reclaimDone; repeat' (first | simp | refine (Dev.Keeps.foldl (fun b x => ?_) _ _).mpr ?_ | split)
@[simp ↓] theorem Dev.reclaimDone_keeps (ps : List Part) (a₀ d : Dev) (k : Nat) (hps : [.lane, .lin, .lout, .oct, .port, .ptn, .fault, .mbox, .telem, .csr, .ctr, .sel] ⊆ ps) : Dev.Keeps ps a₀ (Dev.reclaimDone d k) ↔ Dev.Keeps ps a₀ d :=
  Dev.Keeps.drop (Dev.reclaimDone_keep d k) hps
theorem Dev.portLost_keep (d : Dev) (n : Nat) (anew : Bool) : Dev.Keeps [.lane, .lin, .lout, .oct, .port, .rx, .tx, .ptx, .ptn, .fault, .mbox, .telem, .txn, .mem, .qm, .xfer, .csr, .ctr, .sel] d (Dev.portLost d n anew) := by unfold Dev.portLost; repeat' (first | simp | refine (Dev.Keeps.foldl (fun b x => ?_) _ _).mpr ?_ | split)
@[simp ↓] theorem Dev.portLost_keeps (ps : List Part) (a₀ d : Dev) (n : Nat) (anew : Bool) (hps : [.lane, .lin, .lout, .oct, .port, .rx, .tx, .ptx, .ptn, .fault, .mbox, .telem, .txn, .mem, .qm, .xfer, .csr, .ctr, .sel] ⊆ ps) : Dev.Keeps ps a₀ (Dev.portLost d n anew) ↔ Dev.Keeps ps a₀ d :=
  Dev.Keeps.drop (Dev.portLost_keep d n anew) hps
theorem Dev.portFail_keep (d : Dev) (n : Nat) (cause : Nat) : Dev.Keeps [.lane, .lin, .lout, .oct, .port, .rx, .tx, .ptx, .ptn, .fault, .mbox, .telem, .txn, .mem, .qm, .xfer, .csr, .ctr, .sel] d (Dev.portFail d n cause) := by unfold Dev.portFail; repeat' (first | simp | refine (Dev.Keeps.foldl (fun b x => ?_) _ _).mpr ?_ | split)
@[simp ↓] theorem Dev.portFail_keeps (ps : List Part) (a₀ d : Dev) (n : Nat) (cause : Nat) (hps : [.lane, .lin, .lout, .oct, .port, .rx, .tx, .ptx, .ptn, .fault, .mbox, .telem, .txn, .mem, .qm, .xfer, .csr, .ctr, .sel] ⊆ ps) : Dev.Keeps ps a₀ (Dev.portFail d n cause) ↔ Dev.Keeps ps a₀ d :=
  Dev.Keeps.drop (Dev.portFail_keep d n cause) hps
theorem Dev.violation_keep (d : Dev) (n : Nat) : Dev.Keeps [.lane, .lin, .lout, .oct, .port, .rx, .tx, .ptx, .ptn, .fault, .mbox, .telem, .txn, .mem, .qm, .xfer, .csr, .ctr, .sel] d (Dev.violation d n) := by unfold Dev.violation; repeat' (first | simp | refine (Dev.Keeps.foldl (fun b x => ?_) _ _).mpr ?_ | split)
@[simp ↓] theorem Dev.violation_keeps (ps : List Part) (a₀ d : Dev) (n : Nat) (hps : [.lane, .lin, .lout, .oct, .port, .rx, .tx, .ptx, .ptn, .fault, .mbox, .telem, .txn, .mem, .qm, .xfer, .csr, .ctr, .sel] ⊆ ps) : Dev.Keeps ps a₀ (Dev.violation d n) ↔ Dev.Keeps ps a₀ d :=
  Dev.Keeps.drop (Dev.violation_keep d n) hps
theorem Dev.portAccept_keep (d : Dev) (n : Nat) (i : Nat) (r : Bool) : Dev.Keeps [.port] d (Dev.portAccept d n i r) := by unfold Dev.portAccept; repeat' (first | simp | refine (Dev.Keeps.foldl (fun b x => ?_) _ _).mpr ?_ | split)
@[simp ↓] theorem Dev.portAccept_keeps (ps : List Part) (a₀ d : Dev) (n : Nat) (i : Nat) (r : Bool) (hps : [.port] ⊆ ps) : Dev.Keeps ps a₀ (Dev.portAccept d n i r) ↔ Dev.Keeps ps a₀ d :=
  Dev.Keeps.drop (Dev.portAccept_keep d n i r) hps
theorem Dev.portCollect_keep (d : Dev) (n : Nat) : Dev.Keeps [.lane, .lin, .lout, .oct, .port, .rx, .tx, .ptx, .ptn, .fault, .mbox, .telem, .txn, .mem, .qm, .xfer, .csr, .ctr, .sel] d (Dev.portCollect d n) := by unfold Dev.portCollect; repeat' (first | simp | refine (Dev.Keeps.foldl (fun b x => ?_) _ _).mpr ?_ | split)
@[simp ↓] theorem Dev.portCollect_keeps (ps : List Part) (a₀ d : Dev) (n : Nat) (hps : [.lane, .lin, .lout, .oct, .port, .rx, .tx, .ptx, .ptn, .fault, .mbox, .telem, .txn, .mem, .qm, .xfer, .csr, .ctr, .sel] ⊆ ps) : Dev.Keeps ps a₀ (Dev.portCollect d n) ↔ Dev.Keeps ps a₀ d :=
  Dev.Keeps.drop (Dev.portCollect_keep d n) hps
theorem Dev.portRebond_keep (d : Dev) (n : Nat) (fresh : Bool) : Dev.Keeps [.lane, .lin, .lout, .oct, .port, .rx, .tx, .ptx, .ptn, .fault, .mbox, .telem, .txn, .mem, .qm, .xfer, .csr, .ctr, .sel] d (Dev.portRebond d n fresh) := by unfold Dev.portRebond; repeat' (first | simp | refine (Dev.Keeps.foldl (fun b x => ?_) _ _).mpr ?_ | split)
@[simp ↓] theorem Dev.portRebond_keeps (ps : List Part) (a₀ d : Dev) (n : Nat) (fresh : Bool) (hps : [.lane, .lin, .lout, .oct, .port, .rx, .tx, .ptx, .ptn, .fault, .mbox, .telem, .txn, .mem, .qm, .xfer, .csr, .ctr, .sel] ⊆ ps) : Dev.Keeps ps a₀ (Dev.portRebond d n fresh) ↔ Dev.Keeps ps a₀ d :=
  Dev.Keeps.drop (Dev.portRebond_keep d n fresh) hps
theorem Dev.collectAll_keep (d : Dev) (ns : List Nat) : Dev.Keeps [.lane, .lin, .lout, .oct, .port, .rx, .tx, .ptx, .ptn, .fault, .mbox, .telem, .txn, .mem, .qm, .xfer, .csr, .ctr, .sel] d (Dev.collectAll d ns) := by unfold Dev.collectAll; repeat' (first | simp | refine (Dev.Keeps.foldl (fun b x => ?_) _ _).mpr ?_ | split)
@[simp ↓] theorem Dev.collectAll_keeps (ps : List Part) (a₀ d : Dev) (ns : List Nat) (hps : [.lane, .lin, .lout, .oct, .port, .rx, .tx, .ptx, .ptn, .fault, .mbox, .telem, .txn, .mem, .qm, .xfer, .csr, .ctr, .sel] ⊆ ps) : Dev.Keeps ps a₀ (Dev.collectAll d ns) ↔ Dev.Keeps ps a₀ d :=
  Dev.Keeps.drop (Dev.collectAll_keep d ns) hps
theorem Dev.portHold_keep (d : Dev) (n : Nat) (timed : Bool) : Dev.Keeps [.lane, .lin, .lout, .oct, .port, .rx, .tx, .ptx, .ptn, .fault, .mbox, .telem, .txn, .mem, .qm, .xfer, .csr, .ctr, .sel] d (Dev.portHold d n timed) := by unfold Dev.portHold; repeat' (first | simp | refine (Dev.Keeps.foldl (fun b x => ?_) _ _).mpr ?_ | split)
@[simp ↓] theorem Dev.portHold_keeps (ps : List Part) (a₀ d : Dev) (n : Nat) (timed : Bool) (hps : [.lane, .lin, .lout, .oct, .port, .rx, .tx, .ptx, .ptn, .fault, .mbox, .telem, .txn, .mem, .qm, .xfer, .csr, .ctr, .sel] ⊆ ps) : Dev.Keeps ps a₀ (Dev.portHold d n timed) ↔ Dev.Keeps ps a₀ d :=
  Dev.Keeps.drop (Dev.portHold_keep d n timed) hps
theorem Dev.useStandby_keep (d : Dev) (n : Nat) : Dev.Keeps [.lane, .lin, .lout, .oct, .port, .ptn, .fault, .mbox, .telem, .therm, .csr, .ctr] d (Dev.useStandby d n) := by unfold Dev.useStandby; repeat' (first | simp | refine (Dev.Keeps.foldl (fun b x => ?_) _ _).mpr ?_ | split)
@[simp ↓] theorem Dev.useStandby_keeps (ps : List Part) (a₀ d : Dev) (n : Nat) (hps : [.lane, .lin, .lout, .oct, .port, .ptn, .fault, .mbox, .telem, .therm, .csr, .ctr] ⊆ ps) : Dev.Keeps ps a₀ (Dev.useStandby d n) ↔ Dev.Keeps ps a₀ d :=
  Dev.Keeps.drop (Dev.useStandby_keep d n) hps
theorem Dev.portRestripe_keep (d : Dev) (n : Nat) : Dev.Keeps [.lane, .lin, .lout, .oct, .port, .ptn, .fault, .mbox, .telem, .therm, .csr, .ctr] d (Dev.portRestripe d n) := by unfold Dev.portRestripe; repeat' (first | simp | refine (Dev.Keeps.foldl (fun b x => ?_) _ _).mpr ?_ | split)
@[simp ↓] theorem Dev.portRestripe_keeps (ps : List Part) (a₀ d : Dev) (n : Nat) (hps : [.lane, .lin, .lout, .oct, .port, .ptn, .fault, .mbox, .telem, .therm, .csr, .ctr] ⊆ ps) : Dev.Keeps ps a₀ (Dev.portRestripe d n) ↔ Dev.Keeps ps a₀ d :=
  Dev.Keeps.drop (Dev.portRestripe_keep d n) hps
theorem Dev.restripeAgree_keep (d : Dev) (n : Nat) : Dev.Keeps [.lane, .lin, .lout, .oct, .port, .rx, .tx, .ptx, .ptn, .fault, .mbox, .telem, .txn, .mem, .qm, .xfer, .csr, .ctr, .sel] d (Dev.restripeAgree d n) := by unfold Dev.restripeAgree; repeat' (first | simp | refine (Dev.Keeps.foldl (fun b x => ?_) _ _).mpr ?_ | split)
@[simp ↓] theorem Dev.restripeAgree_keeps (ps : List Part) (a₀ d : Dev) (n : Nat) (hps : [.lane, .lin, .lout, .oct, .port, .rx, .tx, .ptx, .ptn, .fault, .mbox, .telem, .txn, .mem, .qm, .xfer, .csr, .ctr, .sel] ⊆ ps) : Dev.Keeps ps a₀ (Dev.restripeAgree d n) ↔ Dev.Keeps ps a₀ d :=
  Dev.Keeps.drop (Dev.restripeAgree_keep d n) hps
theorem Dev.restripeMap_keep (d : Dev) (n : Nat) (f : LanemapFlit) : Dev.Keeps [.lane, .lin, .lout, .oct, .port, .rx, .tx, .ptx, .ptn, .fault, .mbox, .telem, .txn, .mem, .qm, .xfer, .therm, .csr, .ctr, .sel] d (Dev.restripeMap d n f) := by unfold Dev.restripeMap; repeat' (first | simp | refine (Dev.Keeps.foldl (fun b x => ?_) _ _).mpr ?_ | split)
@[simp ↓] theorem Dev.restripeMap_keeps (ps : List Part) (a₀ d : Dev) (n : Nat) (f : LanemapFlit) (hps : [.lane, .lin, .lout, .oct, .port, .rx, .tx, .ptx, .ptn, .fault, .mbox, .telem, .txn, .mem, .qm, .xfer, .therm, .csr, .ctr, .sel] ⊆ ps) : Dev.Keeps ps a₀ (Dev.restripeMap d n f) ↔ Dev.Keeps ps a₀ d :=
  Dev.Keeps.drop (Dev.restripeMap_keep d n f) hps
theorem Dev.planChange_keep (d : Dev) (n : Nat) (mask : Nat) (rest : Option Nat) : Dev.Keeps [.port] d (Dev.planChange d n mask rest) := by unfold Dev.planChange; repeat' (first | simp | refine (Dev.Keeps.foldl (fun b x => ?_) _ _).mpr ?_ | split)
@[simp ↓] theorem Dev.planChange_keeps (ps : List Part) (a₀ d : Dev) (n : Nat) (mask : Nat) (rest : Option Nat) (hps : [.port] ⊆ ps) : Dev.Keeps ps a₀ (Dev.planChange d n mask rest) ↔ Dev.Keeps ps a₀ d :=
  Dev.Keeps.drop (Dev.planChange_keep d n mask rest) hps
theorem Dev.addReturned_keep (d : Dev) (n : Nat) : Dev.Keeps [.lane, .lin, .lout, .oct, .port, .ptn, .fault, .mbox, .telem, .csr, .ctr] d (Dev.addReturned d n) := by unfold Dev.addReturned; repeat' (first | simp | refine (Dev.Keeps.foldl (fun b x => ?_) _ _).mpr ?_ | split)
@[simp ↓] theorem Dev.addReturned_keeps (ps : List Part) (a₀ d : Dev) (n : Nat) (hps : [.lane, .lin, .lout, .oct, .port, .ptn, .fault, .mbox, .telem, .csr, .ctr] ⊆ ps) : Dev.Keeps ps a₀ (Dev.addReturned d n) ↔ Dev.Keeps ps a₀ d :=
  Dev.Keeps.drop (Dev.addReturned_keep d n) hps
theorem Dev.rotate__keep (d : Dev) (n : Nat) : Dev.Keeps [.lane, .lin, .lout, .oct, .port, .telem, .therm, .csr, .ctr] d (Dev.rotate_ d n) := by unfold Dev.rotate_; repeat' (first | simp | refine (Dev.Keeps.foldl (fun b x => ?_) _ _).mpr ?_ | split)
@[simp ↓] theorem Dev.rotate__keeps (ps : List Part) (a₀ d : Dev) (n : Nat) (hps : [.lane, .lin, .lout, .oct, .port, .telem, .therm, .csr, .ctr] ⊆ ps) : Dev.Keeps ps a₀ (Dev.rotate_ d n) ↔ Dev.Keeps ps a₀ d :=
  Dev.Keeps.drop (Dev.rotate__keep d n) hps
theorem Dev.lanemap_keep (d : Dev) (n : Nat) (f : LanemapFlit) : Dev.Keeps [.lane, .lin, .lout, .oct, .port, .rx, .tx, .ptx, .ptn, .fault, .mbox, .telem, .txn, .mem, .qm, .xfer, .therm, .csr, .ctr, .sel] d (Dev.lanemap d n f) := by unfold Dev.lanemap; repeat' (first | simp | refine (Dev.Keeps.foldl (fun b x => ?_) _ _).mpr ?_ | split)
@[simp ↓] theorem Dev.lanemap_keeps (ps : List Part) (a₀ d : Dev) (n : Nat) (f : LanemapFlit) (hps : [.lane, .lin, .lout, .oct, .port, .rx, .tx, .ptx, .ptn, .fault, .mbox, .telem, .txn, .mem, .qm, .xfer, .therm, .csr, .ctr, .sel] ⊆ ps) : Dev.Keeps ps a₀ (Dev.lanemap d n f) ↔ Dev.Keeps ps a₀ d :=
  Dev.Keeps.drop (Dev.lanemap_keep d n f) hps
theorem Dev.linkLaneLost_keep (d : Dev) (l : Nat) : Dev.Keeps [.lane, .lin, .lout, .oct, .port, .rx, .tx, .ptx, .ptn, .fault, .mbox, .telem, .txn, .mem, .qm, .xfer, .therm, .csr, .ctr, .sel] d (Dev.linkLaneLost d l) := by unfold Dev.linkLaneLost; repeat' (first | simp | refine (Dev.Keeps.foldl (fun b x => ?_) _ _).mpr ?_ | split)
@[simp ↓] theorem Dev.linkLaneLost_keeps (ps : List Part) (a₀ d : Dev) (l : Nat) (hps : [.lane, .lin, .lout, .oct, .port, .rx, .tx, .ptx, .ptn, .fault, .mbox, .telem, .txn, .mem, .qm, .xfer, .therm, .csr, .ctr, .sel] ⊆ ps) : Dev.Keeps ps a₀ (Dev.linkLaneLost d l) ↔ Dev.Keeps ps a₀ d :=
  Dev.Keeps.drop (Dev.linkLaneLost_keep d l) hps
theorem Dev.portUnrest_keep (d : Dev) (n : Nat) : Dev.Keeps [.port, .csr] d (Dev.portUnrest d n) := by unfold Dev.portUnrest; repeat' (first | simp | refine (Dev.Keeps.foldl (fun b x => ?_) _ _).mpr ?_ | split)
@[simp ↓] theorem Dev.portUnrest_keeps (ps : List Part) (a₀ d : Dev) (n : Nat) (hps : [.port, .csr] ⊆ ps) : Dev.Keeps ps a₀ (Dev.portUnrest d n) ↔ Dev.Keeps ps a₀ d :=
  Dev.Keeps.drop (Dev.portUnrest_keep d n) hps
theorem Dev.portReturn_keep (d : Dev) (n : Nat) (l : Nat) : Dev.Keeps [.port] d (Dev.portReturn d n l) := by unfold Dev.portReturn; repeat' (first | simp | refine (Dev.Keeps.foldl (fun b x => ?_) _ _).mpr ?_ | split)
@[simp ↓] theorem Dev.portReturn_keeps (ps : List Part) (a₀ d : Dev) (n : Nat) (l : Nat) (hps : [.port] ⊆ ps) : Dev.Keeps ps a₀ (Dev.portReturn d n l) ↔ Dev.Keeps ps a₀ d :=
  Dev.Keeps.drop (Dev.portReturn_keep d n l) hps
theorem Dev.linkLaneUp_keep (d : Dev) (l : Nat) (trained : Bool) : Dev.Keeps [.lane, .lin, .lout, .oct, .port, .rx, .tx, .ptx, .ptn, .fault, .mbox, .telem, .txn, .mem, .qm, .xfer, .csr, .ctr, .sel] d (Dev.linkLaneUp d l trained) := by unfold Dev.linkLaneUp; repeat' (first | simp | refine (Dev.Keeps.foldl (fun b x => ?_) _ _).mpr ?_ | split)
@[simp ↓] theorem Dev.linkLaneUp_keeps (ps : List Part) (a₀ d : Dev) (l : Nat) (trained : Bool) (hps : [.lane, .lin, .lout, .oct, .port, .rx, .tx, .ptx, .ptn, .fault, .mbox, .telem, .txn, .mem, .qm, .xfer, .csr, .ctr, .sel] ⊆ ps) : Dev.Keeps ps a₀ (Dev.linkLaneUp d l trained) ↔ Dev.Keeps ps a₀ d :=
  Dev.Keeps.drop (Dev.linkLaneUp_keep d l trained) hps
theorem Dev.linkLaneChange_keep (d : Dev) (l : Nat) : Dev.Keeps [.lane, .lin, .lout, .oct, .port, .rx, .tx, .ptx, .ptn, .fault, .mbox, .telem, .txn, .mem, .qm, .xfer, .csr, .ctr, .sel] d (Dev.linkLaneChange d l) := by unfold Dev.linkLaneChange; repeat' (first | simp | refine (Dev.Keeps.foldl (fun b x => ?_) _ _).mpr ?_ | split)
@[simp ↓] theorem Dev.linkLaneChange_keeps (ps : List Part) (a₀ d : Dev) (l : Nat) (hps : [.lane, .lin, .lout, .oct, .port, .rx, .tx, .ptx, .ptn, .fault, .mbox, .telem, .txn, .mem, .qm, .xfer, .csr, .ctr, .sel] ⊆ ps) : Dev.Keeps ps a₀ (Dev.linkLaneChange d l) ↔ Dev.Keeps ps a₀ d :=
  Dev.Keeps.drop (Dev.linkLaneChange_keep d l) hps
theorem Dev.portDisable_keep (d : Dev) (n : Nat) : Dev.Keeps [.lane, .lin, .lout, .oct, .port, .rx, .tx, .ptx, .ptn, .fault, .mbox, .telem, .txn, .mem, .qm, .xfer, .csr, .ctr, .sel] d (Dev.portDisable d n) := by unfold Dev.portDisable; repeat' (first | simp | refine (Dev.Keeps.foldl (fun b x => ?_) _ _).mpr ?_ | split)
@[simp ↓] theorem Dev.portDisable_keeps (ps : List Part) (a₀ d : Dev) (n : Nat) (hps : [.lane, .lin, .lout, .oct, .port, .rx, .tx, .ptx, .ptn, .fault, .mbox, .telem, .txn, .mem, .qm, .xfer, .csr, .ctr, .sel] ⊆ ps) : Dev.Keeps ps a₀ (Dev.portDisable d n) ↔ Dev.Keeps ps a₀ d :=
  Dev.Keeps.drop (Dev.portDisable_keep d n) hps
theorem Dev.portEnable_keep (d : Dev) (n : Nat) : Dev.Keeps [.lane, .lin, .lout, .oct, .port, .rx, .tx, .ptx, .ptn, .fault, .mbox, .telem, .txn, .mem, .qm, .xfer, .csr, .ctr, .sel] d (Dev.portEnable d n) := by unfold Dev.portEnable; repeat' (first | simp | refine (Dev.Keeps.foldl (fun b x => ?_) _ _).mpr ?_ | split)
@[simp ↓] theorem Dev.portEnable_keeps (ps : List Part) (a₀ d : Dev) (n : Nat) (hps : [.lane, .lin, .lout, .oct, .port, .rx, .tx, .ptx, .ptn, .fault, .mbox, .telem, .txn, .mem, .qm, .xfer, .csr, .ctr, .sel] ⊆ ps) : Dev.Keeps ps a₀ (Dev.portEnable d n) ↔ Dev.Keeps ps a₀ d :=
  Dev.Keeps.drop (Dev.portEnable_keep d n) hps
theorem Dev.portCfg_keep (d : Dev) (n : Nat) (v0 : Nat) : Dev.Keeps [.lane, .lin, .lout, .oct, .port, .rx, .tx, .ptx, .ptn, .fault, .mbox, .telem, .txn, .mem, .qm, .xfer, .csr, .ctr, .sel] d (Dev.portCfg d n v0) := by unfold Dev.portCfg; repeat' (first | simp | refine (Dev.Keeps.foldl (fun b x => ?_) _ _).mpr ?_ | split)
@[simp ↓] theorem Dev.portCfg_keeps (ps : List Part) (a₀ d : Dev) (n : Nat) (v0 : Nat) (hps : [.lane, .lin, .lout, .oct, .port, .rx, .tx, .ptx, .ptn, .fault, .mbox, .telem, .txn, .mem, .qm, .xfer, .csr, .ctr, .sel] ⊆ ps) : Dev.Keeps ps a₀ (Dev.portCfg d n v0) ↔ Dev.Keeps ps a₀ d :=
  Dev.Keeps.drop (Dev.portCfg_keep d n v0) hps
theorem Dev.hello_keep (d : Dev) (n : Nat) (h : List Byte) : Dev.Keeps [.lane, .lin, .lout, .oct, .port, .rx, .tx, .ptx, .ptn, .fault, .mbox, .telem, .txn, .mem, .qm, .xfer, .csr, .ctr, .sel] d (Dev.hello d n h) := by unfold Dev.hello; repeat' (first | simp | refine (Dev.Keeps.foldl (fun b x => ?_) _ _).mpr ?_ | split)
@[simp ↓] theorem Dev.hello_keeps (ps : List Part) (a₀ d : Dev) (n : Nat) (h : List Byte) (hps : [.lane, .lin, .lout, .oct, .port, .rx, .tx, .ptx, .ptn, .fault, .mbox, .telem, .txn, .mem, .qm, .xfer, .csr, .ctr, .sel] ⊆ ps) : Dev.Keeps ps a₀ (Dev.hello d n h) ↔ Dev.Keeps ps a₀ d :=
  Dev.Keeps.drop (Dev.hello_keep d n h) hps
theorem Dev.initFresh_keep (d : Dev) (n : Nat) (f : InitFlit) : Dev.Keeps [.rx, .tx] d (Dev.initFresh d n f) := by unfold Dev.initFresh; repeat' (first | simp | refine (Dev.Keeps.foldl (fun b x => ?_) _ _).mpr ?_ | split)
@[simp ↓] theorem Dev.initFresh_keeps (ps : List Part) (a₀ d : Dev) (n : Nat) (f : InitFlit) (hps : [.rx, .tx] ⊆ ps) : Dev.Keeps ps a₀ (Dev.initFresh d n f) ↔ Dev.Keeps ps a₀ d :=
  Dev.Keeps.drop (Dev.initFresh_keep d n f) hps
theorem Dev.initResume_keep (d : Dev) (n : Nat) (f : InitFlit) : Dev.Keeps [.port, .tx, .ctr] d (Dev.initResume d n f) := by unfold Dev.initResume; repeat' (first | simp | refine (Dev.Keeps.foldl (fun b x => ?_) _ _).mpr ?_ | split)
@[simp ↓] theorem Dev.initResume_keeps (ps : List Part) (a₀ d : Dev) (n : Nat) (f : InitFlit) (hps : [.port, .tx, .ctr] ⊆ ps) : Dev.Keeps ps a₀ (Dev.initResume d n f) ↔ Dev.Keeps ps a₀ d :=
  Dev.Keeps.drop (Dev.initResume_keep d n f) hps
theorem Dev.askNak_keep (d : Dev) (n : Nat) : Dev.Keeps [.port] d (Dev.askNak d n) := by unfold Dev.askNak; repeat' (first | simp | refine (Dev.Keeps.foldl (fun b x => ?_) _ _).mpr ?_ | split)
@[simp ↓] theorem Dev.askNak_keeps (ps : List Part) (a₀ d : Dev) (n : Nat) (hps : [.port] ⊆ ps) : Dev.Keeps ps a₀ (Dev.askNak d n) ↔ Dev.Keeps ps a₀ d :=
  Dev.Keeps.drop (Dev.askNak_keep d n) hps
theorem Dev.crcBad_keep (d : Dev) (n : Nat) : Dev.Keeps [.port, .ctr] d (Dev.crcBad d n) := by unfold Dev.crcBad; repeat' (first | simp | refine (Dev.Keeps.foldl (fun b x => ?_) _ _).mpr ?_ | split)
@[simp ↓] theorem Dev.crcBad_keeps (ps : List Part) (a₀ d : Dev) (n : Nat) (hps : [.port, .ctr] ⊆ ps) : Dev.Keeps ps a₀ (Dev.crcBad d n) ↔ Dev.Keeps ps a₀ d :=
  Dev.Keeps.drop (Dev.crcBad_keep d n) hps
theorem Dev.initFlit_keep (d : Dev) (n : Nat) (f : InitFlit) : Dev.Keeps [.lane, .lin, .lout, .oct, .port, .rx, .tx, .ptx, .ptn, .fault, .mbox, .telem, .txn, .mem, .qm, .xfer, .csr, .ctr, .sel] d (Dev.initFlit d n f) := by unfold Dev.initFlit; repeat' (first | simp | refine (Dev.Keeps.foldl (fun b x => ?_) _ _).mpr ?_ | split)
@[simp ↓] theorem Dev.initFlit_keeps (ps : List Part) (a₀ d : Dev) (n : Nat) (f : InitFlit) (hps : [.lane, .lin, .lout, .oct, .port, .rx, .tx, .ptx, .ptn, .fault, .mbox, .telem, .txn, .mem, .qm, .xfer, .csr, .ctr, .sel] ⊆ ps) : Dev.Keeps ps a₀ (Dev.initFlit d n f) ↔ Dev.Keeps ps a₀ d :=
  Dev.Keeps.drop (Dev.initFlit_keep d n f) hps
theorem Dev.replayLimit_keep (d : Dev) (n : Nat) : Dev.Keeps [.lane, .lin, .lout, .oct, .port, .rx, .tx, .ptx, .ptn, .fault, .mbox, .telem, .txn, .qm, .csr, .ctr] d (Dev.replayLimit d n) := by unfold Dev.replayLimit; repeat' (first | simp | refine (Dev.Keeps.foldl (fun b x => ?_) _ _).mpr ?_ | split)
@[simp ↓] theorem Dev.replayLimit_keeps (ps : List Part) (a₀ d : Dev) (n : Nat) (hps : [.lane, .lin, .lout, .oct, .port, .rx, .tx, .ptx, .ptn, .fault, .mbox, .telem, .txn, .qm, .csr, .ctr] ⊆ ps) : Dev.Keeps ps a₀ (Dev.replayLimit d n) ↔ Dev.Keeps ps a₀ d :=
  Dev.Keeps.drop (Dev.replayLimit_keep d n) hps
theorem Dev.startReplay_keep (d : Dev) (n : Nat) (i : Nat) (timed : Bool) : Dev.Keeps [.lane, .lin, .lout, .oct, .port, .rx, .tx, .ptx, .ptn, .fault, .mbox, .telem, .txn, .qm, .csr, .ctr] d (Dev.startReplay d n i timed) := by unfold Dev.startReplay; repeat' (first | simp | refine (Dev.Keeps.foldl (fun b x => ?_) _ _).mpr ?_ | split)
@[simp ↓] theorem Dev.startReplay_keeps (ps : List Part) (a₀ d : Dev) (n : Nat) (i : Nat) (timed : Bool) (hps : [.lane, .lin, .lout, .oct, .port, .rx, .tx, .ptx, .ptn, .fault, .mbox, .telem, .txn, .qm, .csr, .ctr] ⊆ ps) : Dev.Keeps ps a₀ (Dev.startReplay d n i timed) ↔ Dev.Keeps ps a₀ d :=
  Dev.Keeps.drop (Dev.startReplay_keep d n i timed) hps
theorem Dev.ackFlits_keep (d : Dev) (n : Nat) (a : Nat) : Dev.Keeps [.port] d (Dev.ackFlits d n a) := by unfold Dev.ackFlits; repeat' (first | simp | refine (Dev.Keeps.foldl (fun b x => ?_) _ _).mpr ?_ | split)
@[simp ↓] theorem Dev.ackFlits_keeps (ps : List Part) (a₀ d : Dev) (n : Nat) (a : Nat) (hps : [.port] ⊆ ps) : Dev.Keeps ps a₀ (Dev.ackFlits d n a) ↔ Dev.Keeps ps a₀ d :=
  Dev.Keeps.drop (Dev.ackFlits_keep d n a) hps
theorem Dev.statusFlit_keep (d : Dev) (n : Nat) (f : StatusFlit) : Dev.Keeps [.lane, .lin, .lout, .oct, .port, .rx, .tx, .ptx, .ptn, .fault, .mbox, .telem, .txn, .mem, .qm, .xfer, .csr, .ctr, .sel] d (Dev.statusFlit d n f) := by unfold Dev.statusFlit; repeat' (first | simp | refine (Dev.Keeps.foldl (fun b x => ?_) _ _).mpr ?_ | split)
@[simp ↓] theorem Dev.statusFlit_keeps (ps : List Part) (a₀ d : Dev) (n : Nat) (f : StatusFlit) (hps : [.lane, .lin, .lout, .oct, .port, .rx, .tx, .ptx, .ptn, .fault, .mbox, .telem, .txn, .mem, .qm, .xfer, .csr, .ctr, .sel] ⊆ ps) : Dev.Keeps ps a₀ (Dev.statusFlit d n f) ↔ Dev.Keeps ps a₀ d :=
  Dev.Keeps.drop (Dev.statusFlit_keep d n f) hps
theorem Dev.replayTimeout_keep (d : Dev) (n : Nat) : Dev.Keeps [.lane, .lin, .lout, .oct, .port, .rx, .tx, .ptx, .ptn, .fault, .mbox, .telem, .txn, .qm, .csr, .ctr] d (Dev.replayTimeout d n) := by unfold Dev.replayTimeout; repeat' (first | simp | refine (Dev.Keeps.foldl (fun b x => ?_) _ _).mpr ?_ | split)
@[simp ↓] theorem Dev.replayTimeout_keeps (ps : List Part) (a₀ d : Dev) (n : Nat) (hps : [.lane, .lin, .lout, .oct, .port, .rx, .tx, .ptx, .ptn, .fault, .mbox, .telem, .txn, .qm, .csr, .ctr] ⊆ ps) : Dev.Keeps ps a₀ (Dev.replayTimeout d n) ↔ Dev.Keeps ps a₀ d :=
  Dev.Keeps.drop (Dev.replayTimeout_keep d n) hps
theorem Dev.nakRepeat_keep (d : Dev) (n : Nat) : Dev.Keeps [.port] d (Dev.nakRepeat d n) := by unfold Dev.nakRepeat; repeat' (first | simp | refine (Dev.Keeps.foldl (fun b x => ?_) _ _).mpr ?_ | split)
@[simp ↓] theorem Dev.nakRepeat_keeps (ps : List Part) (a₀ d : Dev) (n : Nat) (hps : [.port] ⊆ ps) : Dev.Keeps ps a₀ (Dev.nakRepeat d n) ↔ Dev.Keeps ps a₀ d :=
  Dev.Keeps.drop (Dev.nakRepeat_keep d n) hps
theorem Dev.octCfg_keep (d : Dev) (l : Nat) (v : Nat) : Dev.Keeps [.lane, .lout, .oct, .csr] d (Dev.octCfg d l v) := by unfold Dev.octCfg; repeat' (first | simp | refine (Dev.Keeps.foldl (fun b x => ?_) _ _).mpr ?_ | split)
@[simp ↓] theorem Dev.octCfg_keeps (ps : List Part) (a₀ d : Dev) (l : Nat) (v : Nat) (hps : [.lane, .lout, .oct, .csr] ⊆ ps) : Dev.Keeps ps a₀ (Dev.octCfg d l v) ↔ Dev.Keeps ps a₀ d :=
  Dev.Keeps.drop (Dev.octCfg_keep d l v) hps
theorem Dev.txFir_keep (d : Dev) (l : Nat) (v : Nat) : Dev.Keeps [.lane] d (Dev.txFir d l v) := by unfold Dev.txFir; repeat' (first | simp | refine (Dev.Keeps.foldl (fun b x => ?_) _ _).mpr ?_ | split)
@[simp ↓] theorem Dev.txFir_keeps (ps : List Part) (a₀ d : Dev) (l : Nat) (v : Nat) (hps : [.lane] ⊆ ps) : Dev.Keeps ps a₀ (Dev.txFir d l v) ↔ Dev.Keeps ps a₀ d :=
  Dev.Keeps.drop (Dev.txFir_keep d l v) hps
theorem Dev.detectPulse_keep (d : Dev) (l : Nat) (sensed : Bool) : Dev.Keeps [.lane, .lin, .lout, .oct, .csr, .free] d (Dev.detectPulse d l sensed) := by unfold Dev.detectPulse; repeat' (first | simp | refine (Dev.Keeps.foldl (fun b x => ?_) _ _).mpr ?_ | split)
@[simp ↓] theorem Dev.detectPulse_keeps (ps : List Part) (a₀ d : Dev) (l : Nat) (sensed : Bool) (hps : [.lane, .lin, .lout, .oct, .csr, .free] ⊆ ps) : Dev.Keeps ps a₀ (Dev.detectPulse d l sensed) ↔ Dev.Keeps ps a₀ d :=
  Dev.Keeps.drop (Dev.detectPulse_keep d l sensed) hps
theorem Dev.lockExpiry_keep (d : Dev) (l : Nat) : Dev.Keeps [.lane, .lin, .lout, .oct, .csr] d (Dev.lockExpiry d l) := by unfold Dev.lockExpiry; repeat' (first | simp | refine (Dev.Keeps.foldl (fun b x => ?_) _ _).mpr ?_ | split)
@[simp ↓] theorem Dev.lockExpiry_keeps (ps : List Part) (a₀ d : Dev) (l : Nat) (hps : [.lane, .lin, .lout, .oct, .csr] ⊆ ps) : Dev.Keeps ps a₀ (Dev.lockExpiry d l) ↔ Dev.Keeps ps a₀ d :=
  Dev.Keeps.drop (Dev.lockExpiry_keep d l) hps
theorem Dev.failRetry_keep (d : Dev) (l : Nat) : Dev.Keeps [.lane, .lin, .lout, .oct, .fault, .mbox, .telem, .csr, .ctr] d (Dev.failRetry d l) := by unfold Dev.failRetry; repeat' (first | simp | refine (Dev.Keeps.foldl (fun b x => ?_) _ _).mpr ?_ | split)
@[simp ↓] theorem Dev.failRetry_keeps (ps : List Part) (a₀ d : Dev) (l : Nat) (hps : [.lane, .lin, .lout, .oct, .fault, .mbox, .telem, .csr, .ctr] ⊆ ps) : Dev.Keeps ps a₀ (Dev.failRetry d l) ↔ Dev.Keeps ps a₀ d :=
  Dev.Keeps.drop (Dev.failRetry_keep d l) hps
theorem Dev.deepExit_keep (d : Dev) (l : Nat) : Dev.Keeps [.lane, .lin, .lout, .csr] d (Dev.deepExit d l) := by unfold Dev.deepExit; repeat' (first | simp | refine (Dev.Keeps.foldl (fun b x => ?_) _ _).mpr ?_ | split)
@[simp ↓] theorem Dev.deepExit_keeps (ps : List Part) (a₀ d : Dev) (l : Nat) (hps : [.lane, .lin, .lout, .csr] ⊆ ps) : Dev.Keeps ps a₀ (Dev.deepExit d l) ↔ Dev.Keeps ps a₀ d :=
  Dev.Keeps.drop (Dev.deepExit_keep d l) hps
theorem Dev.laneGapNow_keep (d : Dev) (l : Nat) : Dev.Keeps [.lane, .lout] d (Dev.laneGapNow d l) := by unfold Dev.laneGapNow; repeat' (first | simp | refine (Dev.Keeps.foldl (fun b x => ?_) _ _).mpr ?_ | split)
@[simp ↓] theorem Dev.laneGapNow_keeps (ps : List Part) (a₀ d : Dev) (l : Nat) (hps : [.lane, .lout] ⊆ ps) : Dev.Keeps ps a₀ (Dev.laneGapNow d l) ↔ Dev.Keeps ps a₀ d :=
  Dev.Keeps.drop (Dev.laneGapNow_keep d l) hps
theorem Dev.countCw_keep (d : Dev) (l : Nat) (symErrs : Nat) (fec : Bool) : Dev.Keeps [.ctr] d (Dev.countCw d l symErrs fec) := by unfold Dev.countCw; repeat' (first | simp | refine (Dev.Keeps.foldl (fun b x => ?_) _ _).mpr ?_ | split)
@[simp ↓] theorem Dev.countCw_keeps (ps : List Part) (a₀ d : Dev) (l : Nat) (symErrs : Nat) (fec : Bool) (hps : [.ctr] ⊆ ps) : Dev.Keeps ps a₀ (Dev.countCw d l symErrs fec) ↔ Dev.Keeps ps a₀ d :=
  Dev.Keeps.drop (Dev.countCw_keep d l symErrs fec) hps
theorem Dev.lockFrame_keep (d : Dev) (l : Nat) (symErrs : Nat) : Dev.Keeps [.lane, .lout] d (Dev.lockFrame d l symErrs) := by unfold Dev.lockFrame; repeat' (first | simp | refine (Dev.Keeps.foldl (fun b x => ?_) _ _).mpr ?_ | split)
@[simp ↓] theorem Dev.lockFrame_keeps (ps : List Part) (a₀ d : Dev) (l : Nat) (symErrs : Nat) (hps : [.lane, .lout] ⊆ ps) : Dev.Keeps ps a₀ (Dev.lockFrame d l symErrs) ↔ Dev.Keeps ps a₀ d :=
  Dev.Keeps.drop (Dev.lockFrame_keep d l symErrs) hps
theorem Dev.frameErrs_keep (d : Dev) (l : Nat) (symErrs : Nat) (fec : Bool) : Dev.Keeps [.lane, .fault, .mbox, .telem, .csr, .ctr] d (Dev.frameErrs d l symErrs fec).1 := by unfold Dev.frameErrs; repeat' (first | simp | refine (Dev.Keeps.foldl (fun b x => ?_) _ _).mpr ?_ | split)
@[simp ↓] theorem Dev.frameErrs_keeps (ps : List Part) (a₀ d : Dev) (l : Nat) (symErrs : Nat) (fec : Bool) (hps : [.lane, .fault, .mbox, .telem, .csr, .ctr] ⊆ ps) : Dev.Keeps ps a₀ (Dev.frameErrs d l symErrs fec).1 ↔ Dev.Keeps ps a₀ d :=
  Dev.Keeps.drop (Dev.frameErrs_keep d l symErrs fec) hps
theorem Dev.frameCtl_keep (d : Dev) (l : Nat) (ctl : Nat) : Dev.Keeps [.lane, .lin, .lout, .oct, .csr] d (Dev.frameCtl d l ctl) := by unfold Dev.frameCtl; repeat' (first | simp | refine (Dev.Keeps.foldl (fun b x => ?_) _ _).mpr ?_ | split)
@[simp ↓] theorem Dev.frameCtl_keeps (ps : List Part) (a₀ d : Dev) (l : Nat) (ctl : Nat) (hps : [.lane, .lin, .lout, .oct, .csr] ⊆ ps) : Dev.Keeps ps a₀ (Dev.frameCtl d l ctl) ↔ Dev.Keeps ps a₀ d :=
  Dev.Keeps.drop (Dev.frameCtl_keep d l ctl) hps
theorem Dev.prbsBit_keep (d : Dev) (l : Nat) (e : Bool) : Dev.Keeps [.lane, .ctr] d (Dev.prbsBit d l e) := by unfold Dev.prbsBit; repeat' (first | simp | refine (Dev.Keeps.foldl (fun b x => ?_) _ _).mpr ?_ | split)
@[simp ↓] theorem Dev.prbsBit_keeps (ps : List Part) (a₀ d : Dev) (l : Nat) (e : Bool) (hps : [.lane, .ctr] ⊆ ps) : Dev.Keeps ps a₀ (Dev.prbsBit d l e) ↔ Dev.Keeps ps a₀ d :=
  Dev.Keeps.drop (Dev.prbsBit_keep d l e) hps
theorem Dev.discardResp_keep (d : Dev) (f : Frag) : Dev.Keeps [.ptn, .fault, .mbox, .telem, .txn, .mem, .qm, .dram, .ecc, .graft, .csr, .ctr, .free] d (Dev.discardResp d f) := by unfold Dev.discardResp; repeat' (first | simp | refine (Dev.Keeps.foldl (fun b x => ?_) _ _).mpr ?_ | split)
@[simp ↓] theorem Dev.discardResp_keeps (ps : List Part) (a₀ d : Dev) (f : Frag) (hps : [.ptn, .fault, .mbox, .telem, .txn, .mem, .qm, .dram, .ecc, .graft, .csr, .ctr, .free] ⊆ ps) : Dev.Keeps ps a₀ (Dev.discardResp d f) ↔ Dev.Keeps ps a₀ d :=
  Dev.Keeps.drop (Dev.discardResp_keep d f) hps
theorem Dev.rerouteOne_keep (d : Dev) (f : Frag) : Dev.Keeps [.ptn, .fault, .mbox, .telem, .txn, .mem, .qm, .dram, .ecc, .graft, .csr, .ctr, .free] d (Dev.rerouteOne d f) := by unfold Dev.rerouteOne; repeat' (first | simp | refine (Dev.Keeps.foldl (fun b x => ?_) _ _).mpr ?_ | split)
@[simp ↓] theorem Dev.rerouteOne_keeps (ps : List Part) (a₀ d : Dev) (f : Frag) (hps : [.ptn, .fault, .mbox, .telem, .txn, .mem, .qm, .dram, .ecc, .graft, .csr, .ctr, .free] ⊆ ps) : Dev.Keeps ps a₀ (Dev.rerouteOne d f) ↔ Dev.Keeps ps a₀ d :=
  Dev.Keeps.drop (Dev.rerouteOne_keep d f) hps
theorem Dev.reroutePairs_keep (d : Dev) (k : Nat) : Dev.Keeps [.ptn, .fault, .mbox, .telem, .csr, .ctr] d (Dev.reroutePairs d k) := by unfold Dev.reroutePairs; repeat' (first | simp | refine (Dev.Keeps.foldl (fun b x => ?_) _ _).mpr ?_ | split)
@[simp ↓] theorem Dev.reroutePairs_keeps (ps : List Part) (a₀ d : Dev) (k : Nat) (hps : [.ptn, .fault, .mbox, .telem, .csr, .ctr] ⊆ ps) : Dev.Keeps ps a₀ (Dev.reroutePairs d k) ↔ Dev.Keeps ps a₀ d :=
  Dev.Keeps.drop (Dev.reroutePairs_keep d k) hps
theorem Dev.reroute_keep (d : Dev)  : Dev.Keeps [.ptn, .fault, .mbox, .telem, .txn, .mem, .qm, .dram, .ecc, .graft, .csr, .ctr, .free] d (Dev.reroute d) := by unfold Dev.reroute; repeat' (first | simp | refine (Dev.Keeps.foldl (fun b x => ?_) _ _).mpr ?_ | split)
@[simp ↓] theorem Dev.reroute_keeps (ps : List Part) (a₀ d : Dev)  (hps : [.ptn, .fault, .mbox, .telem, .txn, .mem, .qm, .dram, .ecc, .graft, .csr, .ctr, .free] ⊆ ps) : Dev.Keeps ps a₀ (Dev.reroute d) ↔ Dev.Keeps ps a₀ d :=
  Dev.Keeps.drop (Dev.reroute_keep d ) hps
theorem Dev.stagedRead_keep (d : Dev) (f : Frag) (src : Nat) : Dev.Keeps [.fault, .mbox, .telem, .ecc, .csr, .ctr, .free] d (Dev.stagedRead d f src).1 := by
  unfold Dev.stagedRead
  refine (Dev.Keeps.foldl_p (γ := Dev × Frag) (fun s => s.1) (fun s x => ?_) _ _).mpr (by simp)
  dsimp only; repeat' split
  all_goals simp
@[simp ↓] theorem Dev.stagedRead_keeps (ps : List Part) (a₀ d : Dev) (f : Frag) (src : Nat) (hps : [.fault, .mbox, .telem, .ecc, .csr, .ctr, .free] ⊆ ps) : Dev.Keeps ps a₀ (Dev.stagedRead d f src).1 ↔ Dev.Keeps ps a₀ d :=
  Dev.Keeps.drop (Dev.stagedRead_keep d f src) hps
theorem Dev.fragBegin_keep (d : Dev) (n : Nat) (vc : Nat) : Dev.Keeps [.ptx, .ptn, .fault, .mbox, .telem, .txn, .mem, .qm, .dram, .ecc, .graft, .csr, .ctr, .free] d (Dev.fragBegin d n vc) := by unfold Dev.fragBegin; repeat' (first | simp | refine (Dev.Keeps.foldl (fun b x => ?_) _ _).mpr ?_ | split)
@[simp ↓] theorem Dev.fragBegin_keeps (ps : List Part) (a₀ d : Dev) (n : Nat) (vc : Nat) (hps : [.ptx, .ptn, .fault, .mbox, .telem, .txn, .mem, .qm, .dram, .ecc, .graft, .csr, .ctr, .free] ⊆ ps) : Dev.Keeps ps a₀ (Dev.fragBegin d n vc) ↔ Dev.Keeps ps a₀ d :=
  Dev.Keeps.drop (Dev.fragBegin_keep d n vc) hps
theorem Dev.setBegin_keep (d : Dev) (n : Nat) : Dev.Keeps [.lout, .ptx] d (Dev.setBegin d n) := by unfold Dev.setBegin; repeat' (first | simp | refine (Dev.Keeps.foldl (fun b x => ?_) _ _).mpr ?_ | split)
@[simp ↓] theorem Dev.setBegin_keeps (ps : List Part) (a₀ d : Dev) (n : Nat) (hps : [.lout, .ptx] ⊆ ps) : Dev.Keeps ps a₀ (Dev.setBegin d n) ↔ Dev.Keeps ps a₀ d :=
  Dev.Keeps.drop (Dev.setBegin_keep d n) hps
theorem Dev.placeFlit_keep (d : Dev) (n : Nat) (o : TxOut) : Dev.Keeps [.lout, .ptx] d (Dev.placeFlit d n o) := by unfold Dev.placeFlit; repeat' (first | simp | refine (Dev.Keeps.foldl (fun b x => ?_) _ _).mpr ?_ | split)
@[simp ↓] theorem Dev.placeFlit_keeps (ps : List Part) (a₀ d : Dev) (n : Nat) (o : TxOut) (hps : [.lout, .ptx] ⊆ ps) : Dev.Keeps ps a₀ (Dev.placeFlit d n o) ↔ Dev.Keeps ps a₀ d :=
  Dev.Keeps.drop (Dev.placeFlit_keep d n o) hps
theorem Dev.txOutput_keep (d : Dev) (n : Nat) (o : TxOut) : Dev.Keeps [.lout, .ptx] d (Dev.txOutput d n o) := by unfold Dev.txOutput; repeat' (first | simp | refine (Dev.Keeps.foldl (fun b x => ?_) _ _).mpr ?_ | split)
@[simp ↓] theorem Dev.txOutput_keeps (ps : List Part) (a₀ d : Dev) (n : Nat) (o : TxOut) (hps : [.lout, .ptx] ⊆ ps) : Dev.Keeps ps a₀ (Dev.txOutput d n o) ↔ Dev.Keeps ps a₀ d :=
  Dev.Keeps.drop (Dev.txOutput_keep d n o) hps
theorem Dev.sendIdle_keep (d : Dev) (n : Nat) : Dev.Keeps [.lout, .ptx] d (Dev.sendIdle d n) := by unfold Dev.sendIdle; repeat' (first | simp | refine (Dev.Keeps.foldl (fun b x => ?_) _ _).mpr ?_ | split)
@[simp ↓] theorem Dev.sendIdle_keeps (ps : List Part) (a₀ d : Dev) (n : Nat) (hps : [.lout, .ptx] ⊆ ps) : Dev.Keeps ps a₀ (Dev.sendIdle d n) ↔ Dev.Keeps ps a₀ d :=
  Dev.Keeps.drop (Dev.sendIdle_keep d n) hps
theorem Dev.sendStatus_keep (d : Dev) (n : Nat) : Dev.Keeps [.lout, .port, .rx, .ptx] d (Dev.sendStatus d n) := by unfold Dev.sendStatus; repeat' (first | simp | refine (Dev.Keeps.foldl (fun b x => ?_) _ _).mpr ?_ | split)
@[simp ↓] theorem Dev.sendStatus_keeps (ps : List Part) (a₀ d : Dev) (n : Nat) (hps : [.lout, .port, .rx, .ptx] ⊆ ps) : Dev.Keeps ps a₀ (Dev.sendStatus d n) ↔ Dev.Keeps ps a₀ d :=
  Dev.Keeps.drop (Dev.sendStatus_keep d n) hps
theorem Dev.sendLanemap_keep (d : Dev) (n : Nat) : Dev.Keeps [.lout, .port, .ptx] d (Dev.sendLanemap d n) := by unfold Dev.sendLanemap; repeat' (first | simp | refine (Dev.Keeps.foldl (fun b x => ?_) _ _).mpr ?_ | split)
@[simp ↓] theorem Dev.sendLanemap_keeps (ps : List Part) (a₀ d : Dev) (n : Nat) (hps : [.lout, .port, .ptx] ⊆ ps) : Dev.Keeps ps a₀ (Dev.sendLanemap d n) ↔ Dev.Keeps ps a₀ d :=
  Dev.Keeps.drop (Dev.sendLanemap_keep d n) hps
theorem Dev.sendInit_keep (d : Dev) (n : Nat) : Dev.Keeps [.lane, .lin, .lout, .oct, .port, .rx, .ptx, .ptn, .fault, .mbox, .telem, .csr, .ctr, .sel] d (Dev.sendInit d n) := by unfold Dev.sendInit; repeat' (first | simp | refine (Dev.Keeps.foldl (fun b x => ?_) _ _).mpr ?_ | split)
@[simp ↓] theorem Dev.sendInit_keeps (ps : List Part) (a₀ d : Dev) (n : Nat) (hps : [.lane, .lin, .lout, .oct, .port, .rx, .ptx, .ptn, .fault, .mbox, .telem, .csr, .ctr, .sel] ⊆ ps) : Dev.Keeps ps a₀ (Dev.sendInit d n) ↔ Dev.Keeps ps a₀ d :=
  Dev.Keeps.drop (Dev.sendInit_keep d n) hps
theorem Dev.sendHello_keep (d : Dev) (n : Nat) : Dev.Keeps [.lout, .ptx] d (Dev.sendHello d n) := by unfold Dev.sendHello; repeat' (first | simp | refine (Dev.Keeps.foldl (fun b x => ?_) _ _).mpr ?_ | split)
@[simp ↓] theorem Dev.sendHello_keeps (ps : List Part) (a₀ d : Dev) (n : Nat) (hps : [.lout, .ptx] ⊆ ps) : Dev.Keeps ps a₀ (Dev.sendHello d n) ↔ Dev.Keeps ps a₀ d :=
  Dev.Keeps.drop (Dev.sendHello_keep d n) hps
theorem Dev.sendReplay_keep (d : Dev) (n : Nat) (i : Nat) : Dev.Keeps [.lout, .port, .ptx, .ctr] d (Dev.sendReplay d n i) := by unfold Dev.sendReplay; repeat' (first | simp | refine (Dev.Keeps.foldl (fun b x => ?_) _ _).mpr ?_ | split)
@[simp ↓] theorem Dev.sendReplay_keeps (ps : List Part) (a₀ d : Dev) (n : Nat) (i : Nat) (hps : [.lout, .port, .ptx, .ctr] ⊆ ps) : Dev.Keeps ps a₀ (Dev.sendReplay d n i) ↔ Dev.Keeps ps a₀ d :=
  Dev.Keeps.drop (Dev.sendReplay_keep d n i) hps
theorem Dev.firstFlit_keep (d : Dev) (r : TxRef) : Dev.Keeps [.txn, .ctr] d (Dev.firstFlit d r) := by unfold Dev.firstFlit; repeat' (first | simp | refine (Dev.Keeps.foldl (fun b x => ?_) _ _).mpr ?_ | split)
@[simp ↓] theorem Dev.firstFlit_keeps (ps : List Part) (a₀ d : Dev) (r : TxRef) (hps : [.txn, .ctr] ⊆ ps) : Dev.Keeps ps a₀ (Dev.firstFlit d r) ↔ Dev.Keeps ps a₀ d :=
  Dev.Keeps.drop (Dev.firstFlit_keep d r) hps
theorem Dev.lastFlit_keep (d : Dev) (k : Nat) (r : TxRef) : Dev.Keeps [.mbox, .txn, .qm, .ctr] d (Dev.lastFlit d k r) := by unfold Dev.lastFlit; repeat' (first | simp | refine (Dev.Keeps.foldl (fun b x => ?_) _ _).mpr ?_ | split)
@[simp ↓] theorem Dev.lastFlit_keeps (ps : List Part) (a₀ d : Dev) (k : Nat) (r : TxRef) (hps : [.mbox, .txn, .qm, .ctr] ⊆ ps) : Dev.Keeps ps a₀ (Dev.lastFlit d k r) ↔ Dev.Keeps ps a₀ d :=
  Dev.Keeps.drop (Dev.lastFlit_keep d k r) hps
theorem Dev.sendNew_keep (d : Dev) (n : Nat) (vc : Nat) (x : TxPkt) : Dev.Keeps [.lout, .port, .tx, .ptx, .mbox, .txn, .qm, .ctr] d (Dev.sendNew d n vc x) := by unfold Dev.sendNew; repeat' (first | simp | refine (Dev.Keeps.foldl (fun b x => ?_) _ _).mpr ?_ | split)
@[simp ↓] theorem Dev.sendNew_keeps (ps : List Part) (a₀ d : Dev) (n : Nat) (vc : Nat) (x : TxPkt) (hps : [.lout, .port, .tx, .ptx, .mbox, .txn, .qm, .ctr] ⊆ ps) : Dev.Keeps ps a₀ (Dev.sendNew d n vc x) ↔ Dev.Keeps ps a₀ d :=
  Dev.Keeps.drop (Dev.sendNew_keep d n vc x) hps
theorem Dev.sendData_keep (d : Dev) (n : Nat) : Dev.Keeps [.lout, .port, .tx, .ptx, .mbox, .txn, .qm, .ctr] d (Dev.sendData d n) := by unfold Dev.sendData; repeat' (first | simp | refine (Dev.Keeps.foldl (fun b x => ?_) _ _).mpr ?_ | split)
@[simp ↓] theorem Dev.sendData_keeps (ps : List Part) (a₀ d : Dev) (n : Nat) (hps : [.lout, .port, .tx, .ptx, .mbox, .txn, .qm, .ctr] ⊆ ps) : Dev.Keeps ps a₀ (Dev.sendData d n) ↔ Dev.Keeps ps a₀ d :=
  Dev.Keeps.drop (Dev.sendData_keep d n) hps
theorem Dev.flitSlot_keep (d : Dev) (n : Nat) : Dev.Keeps [.lane, .lin, .lout, .oct, .port, .rx, .tx, .ptx, .ptn, .fault, .mbox, .telem, .txn, .qm, .csr, .ctr, .sel] d (Dev.flitSlot d n) := by unfold Dev.flitSlot; repeat' (first | simp | refine (Dev.Keeps.foldl (fun b x => ?_) _ _).mpr ?_ | split)
@[simp ↓] theorem Dev.flitSlot_keeps (ps : List Part) (a₀ d : Dev) (n : Nat) (hps : [.lane, .lin, .lout, .oct, .port, .rx, .tx, .ptx, .ptn, .fault, .mbox, .telem, .txn, .qm, .csr, .ctr, .sel] ⊆ ps) : Dev.Keeps ps a₀ (Dev.flitSlot d n) ↔ Dev.Keeps ps a₀ d :=
  Dev.Keeps.drop (Dev.flitSlot_keep d n) hps
theorem Dev.settle_keep (d : Dev)  : Dev.Keeps [.lane, .lin, .lout, .oct, .port, .rx, .tx, .ptx, .ptn, .fault, .mbox, .telem, .txn, .mem, .qm, .xfer, .csr, .ctr, .sel] d (Dev.settle d) := by unfold Dev.settle; repeat' (first | simp | refine (Dev.Keeps.foldl (fun b x => ?_) _ _).mpr ?_ | split)
@[simp ↓] theorem Dev.settle_keeps (ps : List Part) (a₀ d : Dev)  (hps : [.lane, .lin, .lout, .oct, .port, .rx, .tx, .ptx, .ptn, .fault, .mbox, .telem, .txn, .mem, .qm, .xfer, .csr, .ctr, .sel] ⊆ ps) : Dev.Keeps ps a₀ (Dev.settle d) ↔ Dev.Keeps ps a₀ d :=
  Dev.Keeps.drop (Dev.settle_keep d ) hps
theorem Dev.bondExpiry_keep (d : Dev) (n : Nat) : Dev.Keeps [.lane, .lin, .lout, .oct, .port, .rx, .tx, .ptx, .ptn, .fault, .mbox, .telem, .txn, .mem, .qm, .xfer, .csr, .ctr, .sel] d (Dev.bondExpiry d n) := by unfold Dev.bondExpiry; repeat' (first | simp | refine (Dev.Keeps.foldl (fun b x => ?_) _ _).mpr ?_ | split)
@[simp ↓] theorem Dev.bondExpiry_keeps (ps : List Part) (a₀ d : Dev) (n : Nat) (hps : [.lane, .lin, .lout, .oct, .port, .rx, .tx, .ptx, .ptn, .fault, .mbox, .telem, .txn, .mem, .qm, .xfer, .csr, .ctr, .sel] ⊆ ps) : Dev.Keeps ps a₀ (Dev.bondExpiry d n) ↔ Dev.Keeps ps a₀ d :=
  Dev.Keeps.drop (Dev.bondExpiry_keep d n) hps
theorem Dev.holdExpiry_keep (d : Dev) (n : Nat) : Dev.Keeps [.lane, .lin, .lout, .oct, .port, .rx, .tx, .ptx, .ptn, .fault, .mbox, .telem, .txn, .mem, .qm, .xfer, .csr, .ctr, .sel] d (Dev.holdExpiry d n) := by unfold Dev.holdExpiry; repeat' (first | simp | refine (Dev.Keeps.foldl (fun b x => ?_) _ _).mpr ?_ | split)
@[simp ↓] theorem Dev.holdExpiry_keeps (ps : List Part) (a₀ d : Dev) (n : Nat) (hps : [.lane, .lin, .lout, .oct, .port, .rx, .tx, .ptx, .ptn, .fault, .mbox, .telem, .txn, .mem, .qm, .xfer, .csr, .ctr, .sel] ⊆ ps) : Dev.Keeps ps a₀ (Dev.holdExpiry d n) ↔ Dev.Keeps ps a₀ d :=
  Dev.Keeps.drop (Dev.holdExpiry_keep d n) hps
theorem Dev.statusExpiry_keep (d : Dev) (n : Nat) : Dev.Keeps [.port] d (Dev.statusExpiry d n) := by unfold Dev.statusExpiry; repeat' (first | simp | refine (Dev.Keeps.foldl (fun b x => ?_) _ _).mpr ?_ | split)
@[simp ↓] theorem Dev.statusExpiry_keeps (ps : List Part) (a₀ d : Dev) (n : Nat) (hps : [.port] ⊆ ps) : Dev.Keeps ps a₀ (Dev.statusExpiry d n) ↔ Dev.Keeps ps a₀ d :=
  Dev.Keeps.drop (Dev.statusExpiry_keep d n) hps
theorem Dev.leaveExpiry_keep (d : Dev) (k : Nat) : Dev.Keeps [.port, .rx, .tx, .ptx, .ptn, .fault, .mbox, .telem, .txn, .mem, .qm, .xfer, .csr, .ctr, .sel] d (Dev.leaveExpiry d k) := by unfold Dev.leaveExpiry; repeat' (first | simp | refine (Dev.Keeps.foldl (fun b x => ?_) _ _).mpr ?_ | split)
@[simp ↓] theorem Dev.leaveExpiry_keeps (ps : List Part) (a₀ d : Dev) (k : Nat) (hps : [.port, .rx, .tx, .ptx, .ptn, .fault, .mbox, .telem, .txn, .mem, .qm, .xfer, .csr, .ctr, .sel] ⊆ ps) : Dev.Keeps ps a₀ (Dev.leaveExpiry d k) ↔ Dev.Keeps ps a₀ d :=
  Dev.Keeps.drop (Dev.leaveExpiry_keep d k) hps
theorem Dev.leaveDone_keep (d : Dev) (k : Nat) : Dev.Keeps [.port, .rx, .tx, .ptx, .ptn, .fault, .mbox, .telem, .txn, .mem, .qm, .xfer, .csr, .ctr, .sel] d (Dev.leaveDone d k) := by unfold Dev.leaveDone; repeat' (first | simp | refine (Dev.Keeps.foldl (fun b x => ?_) _ _).mpr ?_ | split)
@[simp ↓] theorem Dev.leaveDone_keeps (ps : List Part) (a₀ d : Dev) (k : Nat) (hps : [.port, .rx, .tx, .ptx, .ptn, .fault, .mbox, .telem, .txn, .mem, .qm, .xfer, .csr, .ctr, .sel] ⊆ ps) : Dev.Keeps ps a₀ (Dev.leaveDone d k) ↔ Dev.Keeps ps a₀ d :=
  Dev.Keeps.drop (Dev.leaveDone_keep d k) hps
theorem Dev.reclaimExpiry_keep (d : Dev) (k : Nat) : Dev.Keeps [.ptn, .fault, .mbox, .telem, .csr, .ctr] d (Dev.reclaimExpiry d k) := by unfold Dev.reclaimExpiry; repeat' (first | simp | refine (Dev.Keeps.foldl (fun b x => ?_) _ _).mpr ?_ | split)
@[simp ↓] theorem Dev.reclaimExpiry_keeps (ps : List Part) (a₀ d : Dev) (k : Nat) (hps : [.ptn, .fault, .mbox, .telem, .csr, .ctr] ⊆ ps) : Dev.Keeps ps a₀ (Dev.reclaimExpiry d k) ↔ Dev.Keeps ps a₀ d :=
  Dev.Keeps.drop (Dev.reclaimExpiry_keep d k) hps
theorem Dev.hwReset_keep (d : Dev)  : Dev.Keeps [.clk, .cfg, .mbox, .qm, .boot, .ctr, .sel] d (Dev.hwReset d) := by unfold Dev.hwReset; repeat' (first | simp | refine (Dev.Keeps.foldl (fun b x => ?_) _ _).mpr ?_ | split)
@[simp ↓] theorem Dev.hwReset_keeps (ps : List Part) (a₀ d : Dev)  (hps : [.clk, .cfg, .mbox, .qm, .boot, .ctr, .sel] ⊆ ps) : Dev.Keeps ps a₀ (Dev.hwReset d) ↔ Dev.Keeps ps a₀ d :=
  Dev.Keeps.drop (Dev.hwReset_keep d ) hps
theorem Dev.lockstepStop_keep (d : Dev)  : Dev.Keeps [.fault, .mbox, .telem, .csr, .ctr] d (Dev.lockstepStop d) := by unfold Dev.lockstepStop; repeat' (first | simp | refine (Dev.Keeps.foldl (fun b x => ?_) _ _).mpr ?_ | split)
@[simp ↓] theorem Dev.lockstepStop_keeps (ps : List Part) (a₀ d : Dev)  (hps : [.fault, .mbox, .telem, .csr, .ctr] ⊆ ps) : Dev.Keeps ps a₀ (Dev.lockstepStop d) ↔ Dev.Keeps ps a₀ d :=
  Dev.Keeps.drop (Dev.lockstepStop_keep d ) hps
theorem Dev.resetChan_keep (d : Dev) (c : Nat) : Dev.Keeps [.dram] d (Dev.resetChan d c) := by unfold Dev.resetChan; repeat' (first | simp | refine (Dev.Keeps.foldl (fun b x => ?_) _ _).mpr ?_ | split)
@[simp ↓] theorem Dev.resetChan_keeps (ps : List Part) (a₀ d : Dev) (c : Nat) (hps : [.dram] ⊆ ps) : Dev.Keeps ps a₀ (Dev.resetChan d c) ↔ Dev.Keeps ps a₀ d :=
  Dev.Keeps.drop (Dev.resetChan_keep d c) hps
theorem Dev.resetXc_keep (d : Dev) (x : Nat) : Dev.Keeps [.xfer] d (Dev.resetXc d x) := by unfold Dev.resetXc; repeat' (first | simp | refine (Dev.Keeps.foldl (fun b x => ?_) _ _).mpr ?_ | split)
@[simp ↓] theorem Dev.resetXc_keeps (ps : List Part) (a₀ d : Dev) (x : Nat) (hps : [.xfer] ⊆ ps) : Dev.Keeps ps a₀ (Dev.resetXc d x) ↔ Dev.Keeps ps a₀ d :=
  Dev.Keeps.drop (Dev.resetXc_keep d x) hps
theorem Dev.reactSet_keep (d : Dev) (n : Nat) (set : Nat) (ms : Nat) : Dev.Keeps [.csr] d (Dev.reactSet d n set ms).1 := by unfold Dev.reactSet; repeat' (first | simp | refine (Dev.Keeps.foldl (fun b x => ?_) _ _).mpr ?_ | split)
@[simp ↓] theorem Dev.reactSet_keeps (ps : List Part) (a₀ d : Dev) (n : Nat) (set : Nat) (ms : Nat) (hps : [.csr] ⊆ ps) : Dev.Keeps ps a₀ (Dev.reactSet d n set ms).1 ↔ Dev.Keeps ps a₀ d :=
  Dev.Keeps.drop (Dev.reactSet_keep d n set ms) hps
theorem Dev.faultClear_keep (d : Dev) (n : Nat) : Dev.Keeps [.fault] d (Dev.faultClear d n).1 := by unfold Dev.faultClear; repeat' (first | simp | refine (Dev.Keeps.foldl (fun b x => ?_) _ _).mpr ?_ | split)
@[simp ↓] theorem Dev.faultClear_keeps (ps : List Part) (a₀ d : Dev) (n : Nat) (hps : [.fault] ⊆ ps) : Dev.Keeps ps a₀ (Dev.faultClear d n).1 ↔ Dev.Keeps ps a₀ d :=
  Dev.Keeps.drop (Dev.faultClear_keep d n) hps
theorem Dev.escLast_keep (d : Dev) (n : Nat) : Dev.Keeps [.fault, .mbox, .telem, .csr, .ctr] d (Dev.escLast d n) := by unfold Dev.escLast; repeat' (first | simp | refine (Dev.Keeps.foldl (fun b x => ?_) _ _).mpr ?_ | split)
@[simp ↓] theorem Dev.escLast_keeps (ps : List Part) (a₀ d : Dev) (n : Nat) (hps : [.fault, .mbox, .telem, .csr, .ctr] ⊆ ps) : Dev.Keeps ps a₀ (Dev.escLast d n) ↔ Dev.Keeps ps a₀ d :=
  Dev.Keeps.drop (Dev.escLast_keep d n) hps
theorem Dev.errDrive_keep (d : Dev) (low : Bool) : Dev.Keeps [.fault] d (Dev.errDrive d low) := by unfold Dev.errDrive; repeat' (first | simp | refine (Dev.Keeps.foldl (fun b x => ?_) _ _).mpr ?_ | split)
@[simp ↓] theorem Dev.errDrive_keeps (ps : List Part) (a₀ d : Dev) (low : Bool) (hps : [.fault] ⊆ ps) : Dev.Keeps ps a₀ (Dev.errDrive d low) ↔ Dev.Keeps ps a₀ d :=
  Dev.Keeps.drop (Dev.errDrive_keep d low) hps
theorem Dev.errPulseEnd_keep (d : Dev)  : Dev.Keeps [.fault] d (Dev.errPulseEnd d) := by unfold Dev.errPulseEnd; repeat' (first | simp | refine (Dev.Keeps.foldl (fun b x => ?_) _ _).mpr ?_ | split)
@[simp ↓] theorem Dev.errPulseEnd_keeps (ps : List Part) (a₀ d : Dev)  (hps : [.fault] ⊆ ps) : Dev.Keeps ps a₀ (Dev.errPulseEnd d) ↔ Dev.Keeps ps a₀ d :=
  Dev.Keeps.drop (Dev.errPulseEnd_keep d ) hps
theorem Dev.logRead_keep (d : Dev) (n : Nat) : Dev.Keeps [.fault] d (Dev.logRead d n) := by unfold Dev.logRead; repeat' (first | simp | refine (Dev.Keeps.foldl (fun b x => ?_) _ _).mpr ?_ | split)
@[simp ↓] theorem Dev.logRead_keeps (ps : List Part) (a₀ d : Dev) (n : Nat) (hps : [.fault] ⊆ ps) : Dev.Keeps ps a₀ (Dev.logRead d n) ↔ Dev.Keeps ps a₀ d :=
  Dev.Keeps.drop (Dev.logRead_keep d n) hps
theorem Dev.chkInj_keep (d : Dev) (v : Nat) : Dev.Keeps [.fault, .csr] d (Dev.chkInj d v) := by unfold Dev.chkInj; repeat' (first | simp | refine (Dev.Keeps.foldl (fun b x => ?_) _ _).mpr ?_ | split)
@[simp ↓] theorem Dev.chkInj_keeps (ps : List Part) (a₀ d : Dev) (v : Nat) (hps : [.fault, .csr] ⊆ ps) : Dev.Keeps ps a₀ (Dev.chkInj d v) ↔ Dev.Keeps ps a₀ d :=
  Dev.Keeps.drop (Dev.chkInj_keep d v) hps
theorem Dev.otpNote_keep (d : Dev) (k : Nat) (o : OtpOut) : Dev.Keeps [.fault, .mbox, .telem, .otp, .csr, .ctr] d (Dev.otpNote d k o) := by unfold Dev.otpNote; repeat' (first | simp | refine (Dev.Keeps.foldl (fun b x => ?_) _ _).mpr ?_ | split)
@[simp ↓] theorem Dev.otpNote_keeps (ps : List Part) (a₀ d : Dev) (k : Nat) (o : OtpOut) (hps : [.fault, .mbox, .telem, .otp, .csr, .ctr] ⊆ ps) : Dev.Keeps ps a₀ (Dev.otpNote d k o) ↔ Dev.Keeps ps a₀ d :=
  Dev.Keeps.drop (Dev.otpNote_keep d k o) hps
theorem Dev.otpRead_keep (d : Dev) (f : Fuses) (k : Nat) : Dev.Keeps [.fault, .mbox, .telem, .otp, .csr, .ctr] d (Dev.otpRead d f k).2 := by unfold Dev.otpRead; repeat' (first | simp | refine (Dev.Keeps.foldl (fun b x => ?_) _ _).mpr ?_ | split)
@[simp ↓] theorem Dev.otpRead_keeps (ps : List Part) (a₀ d : Dev) (f : Fuses) (k : Nat) (hps : [.fault, .mbox, .telem, .otp, .csr, .ctr] ⊆ ps) : Dev.Keeps ps a₀ (Dev.otpRead d f k).2 ↔ Dev.Keeps ps a₀ d :=
  Dev.Keeps.drop (Dev.otpRead_keep d f k) hps
theorem Dev.otpSeal_keep (d : Dev) (f : Fuses) (r : Nat) : Dev.Keeps [.fault, .mbox, .telem, .otp, .csr, .ctr] d (Dev.otpSeal d f r) := by unfold Dev.otpSeal; repeat' (first | simp | refine (Dev.Keeps.foldl (fun b x => ?_) _ _).mpr ?_ | split)
@[simp ↓] theorem Dev.otpSeal_keeps (ps : List Part) (a₀ d : Dev) (f : Fuses) (r : Nat) (hps : [.fault, .mbox, .telem, .otp, .csr, .ctr] ⊆ ps) : Dev.Keeps ps a₀ (Dev.otpSeal d f r) ↔ Dev.Keeps ps a₀ d :=
  Dev.Keeps.drop (Dev.otpSeal_keep d f r) hps
theorem Dev.otpReadRegion_keep (d : Dev) (f : Fuses) (r : Nat) : Dev.Keeps [.fault, .mbox, .telem, .otp, .csr, .ctr] d (Dev.otpReadRegion d f r) := by unfold Dev.otpReadRegion; repeat' (first | simp | refine (Dev.Keeps.foldl (fun b x => ?_) _ _).mpr ?_ | split)
@[simp ↓] theorem Dev.otpReadRegion_keeps (ps : List Part) (a₀ d : Dev) (f : Fuses) (r : Nat) (hps : [.fault, .mbox, .telem, .otp, .csr, .ctr] ⊆ ps) : Dev.Keeps ps a₀ (Dev.otpReadRegion d f r) ↔ Dev.Keeps ps a₀ d :=
  Dev.Keeps.drop (Dev.otpReadRegion_keep d f r) hps
theorem Dev.lcBoot_keep (d : Dev) (f : Fuses) : Dev.Keeps [.fault, .mbox, .telem, .otp, .csr, .ctr] d (Dev.lcBoot d f) := by unfold Dev.lcBoot; repeat' (first | simp | refine (Dev.Keeps.foldl (fun b x => ?_) _ _).mpr ?_ | split)
@[simp ↓] theorem Dev.lcBoot_keeps (ps : List Part) (a₀ d : Dev) (f : Fuses) (hps : [.fault, .mbox, .telem, .otp, .csr, .ctr] ⊆ ps) : Dev.Keeps ps a₀ (Dev.lcBoot d f) ↔ Dev.Keeps ps a₀ d :=
  Dev.Keeps.drop (Dev.lcBoot_keep d f) hps
theorem Dev.coefLoad_keep (d : Dev) (f : Fuses) : Dev.Keeps [.therm] d (Dev.coefLoad d f) := by unfold Dev.coefLoad; repeat' (first | simp | refine (Dev.Keeps.foldl (fun b x => ?_) _ _).mpr ?_ | split)
@[simp ↓] theorem Dev.coefLoad_keeps (ps : List Part) (a₀ d : Dev) (f : Fuses) (hps : [.therm] ⊆ ps) : Dev.Keeps ps a₀ (Dev.coefLoad d f) ↔ Dev.Keeps ps a₀ d :=
  Dev.Keeps.drop (Dev.coefLoad_keep d f) hps
theorem Dev.otpBoot_keep (d : Dev) (f : Fuses) (unst : List (Nat × Nat)) : Dev.Keeps [.fault, .mbox, .telem, .therm, .otp, .csr, .ctr] d (Dev.otpBoot d f unst) := by unfold Dev.otpBoot; repeat' (first | simp | refine (Dev.Keeps.foldl (fun b x => ?_) _ _).mpr ?_ | split)
@[simp ↓] theorem Dev.otpBoot_keeps (ps : List Part) (a₀ d : Dev) (f : Fuses) (unst : List (Nat × Nat)) (hps : [.fault, .mbox, .telem, .therm, .otp, .csr, .ctr] ⊆ ps) : Dev.Keeps ps a₀ (Dev.otpBoot d f unst) ↔ Dev.Keeps ps a₀ d :=
  Dev.Keeps.drop (Dev.otpBoot_keep d f unst) hps
theorem Dev.keyReads_keep (d : Dev) (f : Fuses) (k : Nat) (use : Nat) : Dev.Keeps [.fault, .mbox, .telem, .otp, .csr, .ctr] d (Dev.keyReads d f k use) := by unfold Dev.keyReads; repeat' (first | simp | refine (Dev.Keeps.foldl (fun b x => ?_) _ _).mpr ?_ | split)
@[simp ↓] theorem Dev.keyReads_keeps (ps : List Part) (a₀ d : Dev) (f : Fuses) (k : Nat) (use : Nat) (hps : [.fault, .mbox, .telem, .otp, .csr, .ctr] ⊆ ps) : Dev.Keeps ps a₀ (Dev.keyReads d f k use) ↔ Dev.Keeps ps a₀ d :=
  Dev.Keeps.drop (Dev.keyReads_keep d f k use) hps
theorem Dev.otpTrigger_keep (d : Dev)  : Dev.Keeps [.otp] d (Dev.otpTrigger d) := by unfold Dev.otpTrigger; repeat' (first | simp | refine (Dev.Keeps.foldl (fun b x => ?_) _ _).mpr ?_ | split)
@[simp ↓] theorem Dev.otpTrigger_keeps (ps : List Part) (a₀ d : Dev)  (hps : [.otp] ⊆ ps) : Dev.Keeps ps a₀ (Dev.otpTrigger d) ↔ Dev.Keeps ps a₀ d :=
  Dev.Keeps.drop (Dev.otpTrigger_keep d ) hps
theorem Dev.sweepStart_keep (d : Dev)  : Dev.Keeps [.otp] d (Dev.sweepStart d) := by unfold Dev.sweepStart; repeat' (first | simp | refine (Dev.Keeps.foldl (fun b x => ?_) _ _).mpr ?_ | split)
@[simp ↓] theorem Dev.sweepStart_keeps (ps : List Part) (a₀ d : Dev)  (hps : [.otp] ⊆ ps) : Dev.Keeps ps a₀ (Dev.sweepStart d) ↔ Dev.Keeps ps a₀ d :=
  Dev.Keeps.drop (Dev.sweepStart_keep d ) hps
theorem Dev.wordRead_keep (d : Dev) (f : Fuses) (k : Nat) (r : OtpSense) : Dev.Keeps [.fault, .mbox, .telem, .otp, .csr, .ctr] d (Dev.wordRead d f k r) := by unfold Dev.wordRead; repeat' (first | simp | refine (Dev.Keeps.foldl (fun b x => ?_) _ _).mpr ?_ | split)
@[simp ↓] theorem Dev.wordRead_keeps (ps : List Part) (a₀ d : Dev) (f : Fuses) (k : Nat) (r : OtpSense) (hps : [.fault, .mbox, .telem, .otp, .csr, .ctr] ⊆ ps) : Dev.Keeps ps a₀ (Dev.wordRead d f k r) ↔ Dev.Keeps ps a₀ d :=
  Dev.Keeps.drop (Dev.wordRead_keep d f k r) hps
theorem Dev.sweepEnd_keep (d : Dev)  : Dev.Keeps [.otp, .csr, .ctr] d (Dev.sweepEnd d) := by unfold Dev.sweepEnd; repeat' (first | simp | refine (Dev.Keeps.foldl (fun b x => ?_) _ _).mpr ?_ | split)
@[simp ↓] theorem Dev.sweepEnd_keeps (ps : List Part) (a₀ d : Dev)  (hps : [.otp, .csr, .ctr] ⊆ ps) : Dev.Keeps ps a₀ (Dev.sweepEnd d) ↔ Dev.Keeps ps a₀ d :=
  Dev.Keeps.drop (Dev.sweepEnd_keep d ) hps
theorem Dev.winClose_keep (d : Dev)  : Dev.Keeps [.pin, .fault, .mbox, .telem, .otp, .csr, .ctr] d (Dev.winClose d) := by unfold Dev.winClose; repeat' (first | simp | refine (Dev.Keeps.foldl (fun b x => ?_) _ _).mpr ?_ | split)
@[simp ↓] theorem Dev.winClose_keeps (ps : List Part) (a₀ d : Dev)  (hps : [.pin, .fault, .mbox, .telem, .otp, .csr, .ctr] ⊆ ps) : Dev.Keeps ps a₀ (Dev.winClose d) ↔ Dev.Keeps ps a₀ d :=
  Dev.Keeps.drop (Dev.winClose_keep d ) hps
theorem Dev.progCtrl_keep (d : Dev) (v : Word) : Dev.Keeps [.pin, .fault, .mbox, .telem, .otp, .csr, .ctr] d (Dev.progCtrl d v) := by unfold Dev.progCtrl; repeat' (first | simp | refine (Dev.Keeps.foldl (fun b x => ?_) _ _).mpr ?_ | split)
@[simp ↓] theorem Dev.progCtrl_keeps (ps : List Part) (a₀ d : Dev) (v : Word) (hps : [.pin, .fault, .mbox, .telem, .otp, .csr, .ctr] ⊆ ps) : Dev.Keeps ps a₀ (Dev.progCtrl d v) ↔ Dev.Keeps ps a₀ d :=
  Dev.Keeps.drop (Dev.progCtrl_keep d v) hps
theorem Dev.burnWord_keep (d : Dev) (f : Fuses) (miss : List BurnMiss) (k : Nat) (v : Word) : Dev.Keeps [.fault, .mbox, .telem, .otp, .csr, .ctr] d (Dev.burnWord d f miss k v).2.2 := by unfold Dev.burnWord; repeat' (first | simp | refine (Dev.Keeps.foldl (fun b x => ?_) _ _).mpr ?_ | split)
@[simp ↓] theorem Dev.burnWord_keeps (ps : List Part) (a₀ d : Dev) (f : Fuses) (miss : List BurnMiss) (k : Nat) (v : Word) (hps : [.fault, .mbox, .telem, .otp, .csr, .ctr] ⊆ ps) : Dev.Keeps ps a₀ (Dev.burnWord d f miss k v).2.2 ↔ Dev.Keeps ps a₀ d :=
  Dev.Keeps.drop (Dev.burnWord_keep d f miss k v) hps
theorem Dev.modSensor_keep (d : Dev) (i : Nat) (f : Sensor → Sensor) : Dev.Keeps [.therm] d (Dev.modSensor d i f) := by unfold Dev.modSensor; repeat' (first | simp | refine (Dev.Keeps.foldl (fun b x => ?_) _ _).mpr ?_ | split)
@[simp ↓] theorem Dev.modSensor_keeps (ps : List Part) (a₀ d : Dev) (i : Nat) (f : Sensor → Sensor) (hps : [.therm] ⊆ ps) : Dev.Keeps ps a₀ (Dev.modSensor d i f) ↔ Dev.Keeps ps a₀ d :=
  Dev.Keeps.drop (Dev.modSensor_keep d i f) hps
theorem Dev.modLayer_keep (d : Dev) (n : Nat) (f : LayerT → LayerT) : Dev.Keeps [.therm] d (Dev.modLayer d n f) := by unfold Dev.modLayer; repeat' (first | simp | refine (Dev.Keeps.foldl (fun b x => ?_) _ _).mpr ?_ | split)
@[simp ↓] theorem Dev.modLayer_keeps (ps : List Part) (a₀ d : Dev) (n : Nat) (f : LayerT → LayerT) (hps : [.therm] ⊆ ps) : Dev.Keeps ps a₀ (Dev.modLayer d n f) ↔ Dev.Keeps ps a₀ d :=
  Dev.Keeps.drop (Dev.modLayer_keep d n f) hps
theorem Dev.calTrigger_keep (d : Dev) (n : Nat) : Dev.Keeps [.therm, .otp] d (Dev.calTrigger d n) := by unfold Dev.calTrigger; repeat' (first | simp | refine (Dev.Keeps.foldl (fun b x => ?_) _ _).mpr ?_ | split)
@[simp ↓] theorem Dev.calTrigger_keeps (ps : List Part) (a₀ d : Dev) (n : Nat) (hps : [.therm, .otp] ⊆ ps) : Dev.Keeps ps a₀ (Dev.calTrigger d n) ↔ Dev.Keeps ps a₀ d :=
  Dev.Keeps.drop (Dev.calTrigger_keep d n) hps
theorem Dev.calAll_keep (d : Dev)  : Dev.Keeps [.therm, .otp] d (Dev.calAll d) := by unfold Dev.calAll; repeat' (first | simp | refine (Dev.Keeps.foldl (fun b x => ?_) _ _).mpr ?_ | split)
@[simp ↓] theorem Dev.calAll_keeps (ps : List Part) (a₀ d : Dev)  (hps : [.therm, .otp] ⊆ ps) : Dev.Keeps ps a₀ (Dev.calAll d) ↔ Dev.Keeps ps a₀ d :=
  Dev.Keeps.drop (Dev.calAll_keep d ) hps
theorem Dev.ringStart_keep (d : Dev) (cause : Nat) : Dev.Keeps [.clk] d (Dev.ringStart d cause) := by unfold Dev.ringStart; repeat' (first | simp | refine (Dev.Keeps.foldl (fun b x => ?_) _ _).mpr ?_ | split)
@[simp ↓] theorem Dev.ringStart_keeps (ps : List Part) (a₀ d : Dev) (cause : Nat) (hps : [.clk] ⊆ ps) : Dev.Keeps ps a₀ (Dev.ringStart d cause) ↔ Dev.Keeps ps a₀ d :=
  Dev.Keeps.drop (Dev.ringStart_keep d cause) hps
theorem Dev.calStart_keep (d : Dev) (n : Nat) : Dev.Keeps [.clk, .therm] d (Dev.calStart d n) := by unfold Dev.calStart; repeat' (first | simp | refine (Dev.Keeps.foldl (fun b x => ?_) _ _).mpr ?_ | split)
@[simp ↓] theorem Dev.calStart_keeps (ps : List Part) (a₀ d : Dev) (n : Nat) (hps : [.clk, .therm] ⊆ ps) : Dev.Keeps ps a₀ (Dev.calStart d n) ↔ Dev.Keeps ps a₀ d :=
  Dev.Keeps.drop (Dev.calStart_keep d n) hps
theorem Dev.calBad_keep (d : Dev) (n : Nat) : Dev.Keeps [.fault, .mbox, .telem, .therm, .csr, .ctr] d (Dev.calBad d n) := by unfold Dev.calBad; repeat' (first | simp | refine (Dev.Keeps.foldl (fun b x => ?_) _ _).mpr ?_ | split)
@[simp ↓] theorem Dev.calBad_keeps (ps : List Part) (a₀ d : Dev) (n : Nat) (hps : [.fault, .mbox, .telem, .therm, .csr, .ctr] ⊆ ps) : Dev.Keeps ps a₀ (Dev.calBad d n) ↔ Dev.Keeps ps a₀ d :=
  Dev.Keeps.drop (Dev.calBad_keep d n) hps
theorem Dev.calFinish_keep (d : Dev) (n : Nat) (ok : Bool) : Dev.Keeps [.fault, .mbox, .telem, .therm, .csr, .ctr] d (Dev.calFinish d n ok) := by unfold Dev.calFinish; repeat' (first | simp | refine (Dev.Keeps.foldl (fun b x => ?_) _ _).mpr ?_ | split)
@[simp ↓] theorem Dev.calFinish_keeps (ps : List Part) (a₀ d : Dev) (n : Nat) (ok : Bool) (hps : [.fault, .mbox, .telem, .therm, .csr, .ctr] ⊆ ps) : Dev.Keeps ps a₀ (Dev.calFinish d n ok) ↔ Dev.Keeps ps a₀ d :=
  Dev.Keeps.drop (Dev.calFinish_keep d n ok) hps
theorem Dev.calTimeout_keep (d : Dev) (n : Nat) : Dev.Keeps [.fault, .mbox, .telem, .therm, .csr, .ctr] d (Dev.calTimeout d n) := by unfold Dev.calTimeout; repeat' (first | simp | refine (Dev.Keeps.foldl (fun b x => ?_) _ _).mpr ?_ | split)
@[simp ↓] theorem Dev.calTimeout_keeps (ps : List Part) (a₀ d : Dev) (n : Nat) (hps : [.fault, .mbox, .telem, .therm, .csr, .ctr] ⊆ ps) : Dev.Keeps ps a₀ (Dev.calTimeout d n) ↔ Dev.Keeps ps a₀ d :=
  Dev.Keeps.drop (Dev.calTimeout_keep d n) hps
theorem Dev.clearSource_keep (d : Dev) (n : Nat) : Dev.Keeps [.fault, .therm, .otp] d (Dev.clearSource d n).1 := by unfold Dev.clearSource; repeat' (first | simp | refine (Dev.Keeps.foldl (fun b x => ?_) _ _).mpr ?_ | split)
@[simp ↓] theorem Dev.clearSource_keeps (ps : List Part) (a₀ d : Dev) (n : Nat) (hps : [.fault, .therm, .otp] ⊆ ps) : Dev.Keeps ps a₀ (Dev.clearSource d n).1 ↔ Dev.Keeps ps a₀ d :=
  Dev.Keeps.drop (Dev.clearSource_keep d n) hps
theorem Dev.sensorBreak_keep (d : Dev) (i : Nat) : Dev.Keeps [.fault, .mbox, .telem, .therm, .csr, .ctr] d (Dev.sensorBreak d i) := by unfold Dev.sensorBreak; repeat' (first | simp | refine (Dev.Keeps.foldl (fun b x => ?_) _ _).mpr ?_ | split)
@[simp ↓] theorem Dev.sensorBreak_keeps (ps : List Part) (a₀ d : Dev) (i : Nat) (hps : [.fault, .mbox, .telem, .therm, .csr, .ctr] ⊆ ps) : Dev.Keeps ps a₀ (Dev.sensorBreak d i) ↔ Dev.Keeps ps a₀ d :=
  Dev.Keeps.drop (Dev.sensorBreak_keep d i) hps
theorem Dev.sensorConv_keep (d : Dev) (i : Nat) (t : Int) : Dev.Keeps [.fault, .mbox, .telem, .therm, .otp, .csr, .ctr] d (Dev.sensorConv d i t) := by unfold Dev.sensorConv; repeat' (first | simp | refine (Dev.Keeps.foldl (fun b x => ?_) _ _).mpr ?_ | split)
@[simp ↓] theorem Dev.sensorConv_keeps (ps : List Part) (a₀ d : Dev) (i : Nat) (t : Int) (hps : [.fault, .mbox, .telem, .therm, .otp, .csr, .ctr] ⊆ ps) : Dev.Keeps ps a₀ (Dev.sensorConv d i t) ↔ Dev.Keeps ps a₀ d :=
  Dev.Keeps.drop (Dev.sensorConv_keep d i t) hps
theorem Dev.sensorLate_keep (d : Dev) (i : Nat) : Dev.Keeps [.fault, .mbox, .telem, .therm, .csr, .ctr] d (Dev.sensorLate d i) := by unfold Dev.sensorLate; repeat' (first | simp | refine (Dev.Keeps.foldl (fun b x => ?_) _ _).mpr ?_ | split)
@[simp ↓] theorem Dev.sensorLate_keeps (ps : List Part) (a₀ d : Dev) (i : Nat) (hps : [.fault, .mbox, .telem, .therm, .csr, .ctr] ⊆ ps) : Dev.Keeps ps a₀ (Dev.sensorLate d i) ↔ Dev.Keeps ps a₀ d :=
  Dev.Keeps.drop (Dev.sensorLate_keep d i) hps
theorem Dev.evalLayer_keep (d : Dev) (n : Nat) (power : Nat) (p : Option Int) : Dev.Keeps [.fault, .mbox, .telem, .therm, .csr, .ctr] d (Dev.evalLayer d n power p) := by unfold Dev.evalLayer; repeat' (first | simp | refine (Dev.Keeps.foldl (fun b x => ?_) _ _).mpr ?_ | split)
@[simp ↓] theorem Dev.evalLayer_keeps (ps : List Part) (a₀ d : Dev) (n : Nat) (power : Nat) (p : Option Int) (hps : [.fault, .mbox, .telem, .therm, .csr, .ctr] ⊆ ps) : Dev.Keeps ps a₀ (Dev.evalLayer d n power p) ↔ Dev.Keeps ps a₀ d :=
  Dev.Keeps.drop (Dev.evalLayer_keep d n power p) hps
theorem Dev.thermJudge_keep (d : Dev)  : Dev.Keeps [.fault, .mbox, .telem, .reg, .therm, .csr, .ctr] d (Dev.thermJudge d) := by unfold Dev.thermJudge; repeat' (first | simp | refine (Dev.Keeps.foldl (fun b x => ?_) _ _).mpr ?_ | split)
@[simp ↓] theorem Dev.thermJudge_keeps (ps : List Part) (a₀ d : Dev)  (hps : [.fault, .mbox, .telem, .reg, .therm, .csr, .ctr] ⊆ ps) : Dev.Keeps ps a₀ (Dev.thermJudge d) ↔ Dev.Keeps ps a₀ d :=
  Dev.Keeps.drop (Dev.thermJudge_keep d ) hps
theorem Dev.followBand_keep (d : Dev) (k : Nat) : Dev.Keeps [.dram, .csr] d (Dev.followBand d k) := by unfold Dev.followBand; repeat' (first | simp | refine (Dev.Keeps.foldl (fun b x => ?_) _ _).mpr ?_ | split)
@[simp ↓] theorem Dev.followBand_keeps (ps : List Part) (a₀ d : Dev) (k : Nat) (hps : [.dram, .csr] ⊆ ps) : Dev.Keeps ps a₀ (Dev.followBand d k) ↔ Dev.Keeps ps a₀ d :=
  Dev.Keeps.drop (Dev.followBand_keep d k) hps
theorem Dev.riseEnd_keep (d : Dev)  : Dev.Keeps [.fault, .mbox, .telem, .reg, .therm, .csr, .ctr] d (Dev.riseEnd d) := by unfold Dev.riseEnd; repeat' (first | simp | refine (Dev.Keeps.foldl (fun b x => ?_) _ _).mpr ?_ | split)
@[simp ↓] theorem Dev.riseEnd_keeps (ps : List Part) (a₀ d : Dev)  (hps : [.fault, .mbox, .telem, .reg, .therm, .csr, .ctr] ⊆ ps) : Dev.Keeps ps a₀ (Dev.riseEnd d) ↔ Dev.Keeps ps a₀ d :=
  Dev.Keeps.drop (Dev.riseEnd_keep d ) hps
theorem Dev.flashPut_keep (d : Dev) (o : Nat) (bs : List Byte) : Dev.Keeps [.boot] d (Dev.flashPut d o bs) := by unfold Dev.flashPut; repeat' (first | simp | refine (Dev.Keeps.foldl (fun b x => ?_) _ _).mpr ?_ | split)
@[simp ↓] theorem Dev.flashPut_keeps (ps : List Part) (a₀ d : Dev) (o : Nat) (bs : List Byte) (hps : [.boot] ⊆ ps) : Dev.Keeps ps a₀ (Dev.flashPut d o bs) ↔ Dev.Keeps ps a₀ d :=
  Dev.Keeps.drop (Dev.flashPut_keep d o bs) hps
theorem Dev.flashErase_keep (d : Dev) (o : Nat) (n : Nat) : Dev.Keeps [.boot] d (Dev.flashErase d o n) := by unfold Dev.flashErase; repeat' (first | simp | refine (Dev.Keeps.foldl (fun b x => ?_) _ _).mpr ?_ | split)
@[simp ↓] theorem Dev.flashErase_keeps (ps : List Part) (a₀ d : Dev) (o : Nat) (n : Nat) (hps : [.boot] ⊆ ps) : Dev.Keeps ps a₀ (Dev.flashErase d o n) ↔ Dev.Keeps ps a₀ d :=
  Dev.Keeps.drop (Dev.flashErase_keep d o n) hps
theorem Dev.recordPut_keep (d : Dev) (o0 : Nat) (o1 : Nat) (n : Nat) (magic : Nat) (body : List Byte) : Dev.Keeps [.boot] d (Dev.recordPut d o0 o1 n magic body) := by unfold Dev.recordPut; repeat' (first | simp | refine (Dev.Keeps.foldl (fun b x => ?_) _ _).mpr ?_ | split)
@[simp ↓] theorem Dev.recordPut_keeps (ps : List Part) (a₀ d : Dev) (o0 : Nat) (o1 : Nat) (n : Nat) (magic : Nat) (body : List Byte) (hps : [.boot] ⊆ ps) : Dev.Keeps ps a₀ (Dev.recordPut d o0 o1 n magic body) ↔ Dev.Keeps ps a₀ d :=
  Dev.Keeps.drop (Dev.recordPut_keep d o0 o1 n magic body) hps
theorem Dev.imgRecPut_keep (d : Dev) (r : ImgRec) : Dev.Keeps [.boot] d (Dev.imgRecPut d r) := by unfold Dev.imgRecPut; repeat' (first | simp | refine (Dev.Keeps.foldl (fun b x => ?_) _ _).mpr ?_ | split)
@[simp ↓] theorem Dev.imgRecPut_keeps (ps : List Part) (a₀ d : Dev) (r : ImgRec) (hps : [.boot] ⊆ ps) : Dev.Keeps ps a₀ (Dev.imgRecPut d r) ↔ Dev.Keeps ps a₀ d :=
  Dev.Keeps.drop (Dev.imgRecPut_keep d r) hps
theorem Dev.slotRecPut_keep (d : Dev) (r : SlotRec) : Dev.Keeps [.boot] d (Dev.slotRecPut d r) := by unfold Dev.slotRecPut; repeat' (first | simp | refine (Dev.Keeps.foldl (fun b x => ?_) _ _).mpr ?_ | split)
@[simp ↓] theorem Dev.slotRecPut_keeps (ps : List Part) (a₀ d : Dev) (r : SlotRec) (hps : [.boot] ⊆ ps) : Dev.Keeps ps a₀ (Dev.slotRecPut d r) ↔ Dev.Keeps ps a₀ d :=
  Dev.Keeps.drop (Dev.slotRecPut_keep d r) hps
theorem Dev.repairWrite_keep (d : Dev) (ok : Bool) : Dev.Keeps [.graft, .boot] d (Dev.repairWrite d ok) := by unfold Dev.repairWrite; repeat' (first | simp | refine (Dev.Keeps.foldl (fun b x => ?_) _ _).mpr ?_ | split)
@[simp ↓] theorem Dev.repairWrite_keeps (ps : List Part) (a₀ d : Dev) (ok : Bool) (hps : [.graft, .boot] ⊆ ps) : Dev.Keeps ps a₀ (Dev.repairWrite d ok) ↔ Dev.Keeps ps a₀ d :=
  Dev.Keeps.drop (Dev.repairWrite_keep d ok) hps
theorem Dev.sdtWrite_keep (d : Dev) (f : Fuses) (fail : Nat) (ok : Bool) : Dev.Keeps [.boot] d (Dev.sdtWrite d f fail ok).2.2 := by unfold Dev.sdtWrite; repeat' (first | simp | refine (Dev.Keeps.foldl (fun b x => ?_) _ _).mpr ?_ | split)
@[simp ↓] theorem Dev.sdtWrite_keeps (ps : List Part) (a₀ d : Dev) (f : Fuses) (fail : Nat) (ok : Bool) (hps : [.boot] ⊆ ps) : Dev.Keeps ps a₀ (Dev.sdtWrite d f fail ok).2.2 ↔ Dev.Keeps ps a₀ d :=
  Dev.Keeps.drop (Dev.sdtWrite_keep d f fail ok) hps
theorem Dev.wearWrite_keep (d : Dev)  : Dev.Keeps [.graft, .boot] d (Dev.wearWrite d) := by unfold Dev.wearWrite; repeat' (first | simp | refine (Dev.Keeps.foldl (fun b x => ?_) _ _).mpr ?_ | split)
@[simp ↓] theorem Dev.wearWrite_keeps (ps : List Part) (a₀ d : Dev)  (hps : [.graft, .boot] ⊆ ps) : Dev.Keeps ps a₀ (Dev.wearWrite d) ↔ Dev.Keeps ps a₀ d :=
  Dev.Keeps.drop (Dev.wearWrite_keep d ) hps
theorem Dev.modeEvent_keep (d : Dev) (os : List Nat) (old : Mode) (new : Mode) (cause : Nat) (owner : Nat) (fallback : Bool) (hold : Nat) : Dev.Keeps [.fault, .mbox, .telem, .csr, .ctr] d (Dev.modeEvent d os old new cause owner fallback hold) := by unfold Dev.modeEvent; repeat' (first | simp | refine (Dev.Keeps.foldl (fun b x => ?_) _ _).mpr ?_ | split)
@[simp ↓] theorem Dev.modeEvent_keeps (ps : List Part) (a₀ d : Dev) (os : List Nat) (old : Mode) (new : Mode) (cause : Nat) (owner : Nat) (fallback : Bool) (hold : Nat) (hps : [.fault, .mbox, .telem, .csr, .ctr] ⊆ ps) : Dev.Keeps ps a₀ (Dev.modeEvent d os old new cause owner fallback hold) ↔ Dev.Keeps ps a₀ d :=
  Dev.Keeps.drop (Dev.modeEvent_keep d os old new cause owner fallback hold) hps
theorem Dev.groomPause_keep (d : Dev) (old : Mode) (ns : Nat) : Dev.Keeps [.dram, .ecc] d (Dev.groomPause d old ns) := by unfold Dev.groomPause; repeat' (first | simp | refine (Dev.Keeps.foldl (fun b x => ?_) _ _).mpr ?_ | split)
@[simp ↓] theorem Dev.groomPause_keeps (ps : List Part) (a₀ d : Dev) (old : Mode) (ns : Nat) (hps : [.dram, .ecc] ⊆ ps) : Dev.Keeps ps a₀ (Dev.groomPause d old ns) ↔ Dev.Keeps ps a₀ d :=
  Dev.Keeps.drop (Dev.groomPause_keep d old ns) hps
theorem Dev.vcoreTo_keep (d : Dev) (mv : Nat) : Dev.Keeps [.pin, .csr] d (Dev.vcoreTo d mv) := by unfold Dev.vcoreTo; repeat' (first | simp | refine (Dev.Keeps.foldl (fun b x => ?_) _ _).mpr ?_ | split)
@[simp ↓] theorem Dev.vcoreTo_keeps (ps : List Part) (a₀ d : Dev) (mv : Nat) (hps : [.pin, .csr] ⊆ ps) : Dev.Keeps ps a₀ (Dev.vcoreTo d mv) ↔ Dev.Keeps ps a₀ d :=
  Dev.Keeps.drop (Dev.vcoreTo_keep d mv) hps
theorem Dev.initTotals_keep (d : Dev)  : Dev.Keeps [.qm] d (Dev.initTotals d) := by unfold Dev.initTotals; repeat' (first | simp | refine (Dev.Keeps.foldl (fun b x => ?_) _ _).mpr ?_ | split)
@[simp ↓] theorem Dev.initTotals_keeps (ps : List Part) (a₀ d : Dev)  (hps : [.qm] ⊆ ps) : Dev.Keeps ps a₀ (Dev.initTotals d) ↔ Dev.Keeps ps a₀ d :=
  Dev.Keeps.drop (Dev.initTotals_keep d ) hps
theorem Dev.emptyQueues_keep (d : Dev)  : Dev.Keeps [.mem, .qm] d (Dev.emptyQueues d) := by unfold Dev.emptyQueues; repeat' (first | simp | refine (Dev.Keeps.foldl (fun b x => ?_) _ _).mpr ?_ | split)
@[simp ↓] theorem Dev.emptyQueues_keeps (ps : List Part) (a₀ d : Dev)  (hps : [.mem, .qm] ⊆ ps) : Dev.Keeps ps a₀ (Dev.emptyQueues d) ↔ Dev.Keeps ps a₀ d :=
  Dev.Keeps.drop (Dev.emptyQueues_keep d ) hps
theorem Dev.sreAll_keep (d : Dev)  : Dev.Keeps [.dram] d (Dev.sreAll d) := by unfold Dev.sreAll; repeat' (first | simp | refine (Dev.Keeps.foldl (fun b x => ?_) _ _).mpr ?_ | split)
@[simp ↓] theorem Dev.sreAll_keeps (ps : List Part) (a₀ d : Dev)  (hps : [.dram] ⊆ ps) : Dev.Keeps ps a₀ (Dev.sreAll d) ↔ Dev.Keeps ps a₀ d :=
  Dev.Keeps.drop (Dev.sreAll_keep d ) hps
theorem Dev.sreTrip_keep (d : Dev)  : Dev.Keeps [.dram] d (Dev.sreTrip d) := by unfold Dev.sreTrip; repeat' (first | simp | refine (Dev.Keeps.foldl (fun b x => ?_) _ _).mpr ?_ | split)
@[simp ↓] theorem Dev.sreTrip_keeps (ps : List Part) (a₀ d : Dev)  (hps : [.dram] ⊆ ps) : Dev.Keeps ps a₀ (Dev.sreTrip d) ↔ Dev.Keeps ps a₀ d :=
  Dev.Keeps.drop (Dev.sreTrip_keep d ) hps
theorem Dev.srxAll_keep (d : Dev)  : Dev.Keeps [.dram] d (Dev.srxAll d) := by unfold Dev.srxAll; repeat' (first | simp | refine (Dev.Keeps.foldl (fun b x => ?_) _ _).mpr ?_ | split)
@[simp ↓] theorem Dev.srxAll_keeps (ps : List Part) (a₀ d : Dev)  (hps : [.dram] ⊆ ps) : Dev.Keeps ps a₀ (Dev.srxAll d) ↔ Dev.Keeps ps a₀ d :=
  Dev.Keeps.drop (Dev.srxAll_keep d ) hps
theorem Dev.portRest_keep (d : Dev) (n : Nat) : Dev.Keeps [.port, .csr] d (Dev.portRest d n) := by unfold Dev.portRest; repeat' (first | simp | refine (Dev.Keeps.foldl (fun b x => ?_) _ _).mpr ?_ | split)
@[simp ↓] theorem Dev.portRest_keeps (ps : List Part) (a₀ d : Dev) (n : Nat) (hps : [.port, .csr] ⊆ ps) : Dev.Keeps ps a₀ (Dev.portRest d n) ↔ Dev.Keeps ps a₀ d :=
  Dev.Keeps.drop (Dev.portRest_keep d n) hps
theorem Dev.portFreeze_keep (d : Dev) (n : Nat) : Dev.Keeps [.port, .csr] d (Dev.portFreeze d n) := by unfold Dev.portFreeze; repeat' (first | simp | refine (Dev.Keeps.foldl (fun b x => ?_) _ _).mpr ?_ | split)
@[simp ↓] theorem Dev.portFreeze_keeps (ps : List Part) (a₀ d : Dev) (n : Nat) (hps : [.port, .csr] ⊆ ps) : Dev.Keeps ps a₀ (Dev.portFreeze d n) ↔ Dev.Keeps ps a₀ d :=
  Dev.Keeps.drop (Dev.portFreeze_keep d n) hps
theorem Dev.moveEnd_keep (d : Dev)  : Dev.Keeps [.clk, .mbox, .boot, .ctr] d (Dev.moveEnd d) := by unfold Dev.moveEnd; repeat' (first | simp | refine (Dev.Keeps.foldl (fun b x => ?_) _ _).mpr ?_ | split)
@[simp ↓] theorem Dev.moveEnd_keeps (ps : List Part) (a₀ d : Dev)  (hps : [.clk, .mbox, .boot, .ctr] ⊆ ps) : Dev.Keeps ps a₀ (Dev.moveEnd d) ↔ Dev.Keeps ps a₀ d :=
  Dev.Keeps.drop (Dev.moveEnd_keep d ) hps
theorem Dev.movePh_keep (d : Dev) (p : MovePh) : Dev.Keeps [.clk] d (Dev.movePh d p) := by unfold Dev.movePh; repeat' (first | simp | refine (Dev.Keeps.foldl (fun b x => ?_) _ _).mpr ?_ | split)
@[simp ↓] theorem Dev.movePh_keeps (ps : List Part) (a₀ d : Dev) (p : MovePh) (hps : [.clk] ⊆ ps) : Dev.Keeps ps a₀ (Dev.movePh d p) ↔ Dev.Keeps ps a₀ d :=
  Dev.Keeps.drop (Dev.movePh_keep d p) hps
theorem Dev.ringTie_keep (d : Dev) (tie : Bool) : Dev.Keeps [.telem] d (Dev.ringTie d tie) := by unfold Dev.ringTie; repeat' (first | simp | refine (Dev.Keeps.foldl (fun b x => ?_) _ _).mpr ?_ | split)
@[simp ↓] theorem Dev.ringTie_keeps (ps : List Part) (a₀ d : Dev) (tie : Bool) (hps : [.telem] ⊆ ps) : Dev.Keeps ps a₀ (Dev.ringTie d tie) ↔ Dev.Keeps ps a₀ d :=
  Dev.Keeps.drop (Dev.ringTie_keep d tie) hps
theorem Dev.islandLock_keep (d : Dev) (k : Nat) : Dev.Keeps [.clk, .dram] d (Dev.islandLock d k) := by unfold Dev.islandLock; repeat' (first | simp | refine (Dev.Keeps.foldl (fun b x => ?_) _ _).mpr ?_ | split)
@[simp ↓] theorem Dev.islandLock_keeps (ps : List Part) (a₀ d : Dev) (k : Nat) (hps : [.clk, .dram] ⊆ ps) : Dev.Keeps ps a₀ (Dev.islandLock d k) ↔ Dev.Keeps ps a₀ d :=
  Dev.Keeps.drop (Dev.islandLock_keep d k) hps
theorem Dev.ringSettle_keep (d : Dev) (period : Nat) : Dev.Keeps [.clk, .telem] d (Dev.ringSettle d period) := by unfold Dev.ringSettle; repeat' (first | simp | refine (Dev.Keeps.foldl (fun b x => ?_) _ _).mpr ?_ | split)
@[simp ↓] theorem Dev.ringSettle_keeps (ps : List Part) (a₀ d : Dev) (period : Nat) (hps : [.clk, .telem] ⊆ ps) : Dev.Keeps ps a₀ (Dev.ringSettle d period) ↔ Dev.Keeps ps a₀ d :=
  Dev.Keeps.drop (Dev.ringSettle_keep d period) hps
theorem Dev.ringLate_keep (d : Dev)  : Dev.Keeps [.pin, .clk, .fault, .mbox, .telem, .csr, .ctr] d (Dev.ringLate d) := by unfold Dev.ringLate; repeat' (first | simp | refine (Dev.Keeps.foldl (fun b x => ?_) _ _).mpr ?_ | split)
@[simp ↓] theorem Dev.ringLate_keeps (ps : List Part) (a₀ d : Dev)  (hps : [.pin, .clk, .fault, .mbox, .telem, .csr, .ctr] ⊆ ps) : Dev.Keeps ps a₀ (Dev.ringLate d) ↔ Dev.Keeps ps a₀ d :=
  Dev.Keeps.drop (Dev.ringLate_keep d ) hps
theorem Dev.ringMeasure_keep (d : Dev) (period : Nat) : Dev.Keeps [.clk] d (Dev.ringMeasure d period) := by unfold Dev.ringMeasure; repeat' (first | simp | refine (Dev.Keeps.foldl (fun b x => ?_) _ _).mpr ?_ | split)
@[simp ↓] theorem Dev.ringMeasure_keeps (ps : List Part) (a₀ d : Dev) (period : Nat) (hps : [.clk] ⊆ ps) : Dev.Keeps ps a₀ (Dev.ringMeasure d period) ↔ Dev.Keeps ps a₀ d :=
  Dev.Keeps.drop (Dev.ringMeasure_keep d period) hps
theorem Dev.pllUnlock_keep (d : Dev) (k : Nat) : Dev.Keeps [.clk, .fault, .mbox, .telem, .csr, .ctr] d (Dev.pllUnlock d k) := by unfold Dev.pllUnlock; repeat' (first | simp | refine (Dev.Keeps.foldl (fun b x => ?_) _ _).mpr ?_ | split)
@[simp ↓] theorem Dev.pllUnlock_keeps (ps : List Part) (a₀ d : Dev) (k : Nat) (hps : [.clk, .fault, .mbox, .telem, .csr, .ctr] ⊆ ps) : Dev.Keeps ps a₀ (Dev.pllUnlock d k) ↔ Dev.Keeps ps a₀ d :=
  Dev.Keeps.drop (Dev.pllUnlock_keep d k) hps
theorem Dev.switchForced_keep (d : Dev) (k : Nat) : Dev.Keeps [.fault, .mbox, .telem, .csr, .ctr] d (Dev.switchForced d k) := by unfold Dev.switchForced; repeat' (first | simp | refine (Dev.Keeps.foldl (fun b x => ?_) _ _).mpr ?_ | split)
@[simp ↓] theorem Dev.switchForced_keeps (ps : List Part) (a₀ d : Dev) (k : Nat) (hps : [.fault, .mbox, .telem, .csr, .ctr] ⊆ ps) : Dev.Keeps ps a₀ (Dev.switchForced d k) ↔ Dev.Keeps ps a₀ d :=
  Dev.Keeps.drop (Dev.switchForced_keep d k) hps
theorem Dev.gateCfg_keep (d : Dev) (v : Word) : Dev.Keeps [.clk, .oct, .csr] d (Dev.gateCfg d v) := by unfold Dev.gateCfg; repeat' (first | simp | refine (Dev.Keeps.foldl (fun b x => ?_) _ _).mpr ?_ | split)
@[simp ↓] theorem Dev.gateCfg_keeps (ps : List Part) (a₀ d : Dev) (v : Word) (hps : [.clk, .oct, .csr] ⊆ ps) : Dev.Keeps ps a₀ (Dev.gateCfg d v) ↔ Dev.Keeps ps a₀ d :=
  Dev.Keeps.drop (Dev.gateCfg_keep d v) hps
theorem Dev.set_shut (d2 : Dev) (t : TxnU) (q : QmU) (x : XferU) : Dev.Keeps [.mbox, .txn, .qm, .dram, .xfer, .boot, .ctr] d2 { d2 with txn := t, qm := q, xfer := x } :=
  fun p hp => by cases p <;> first | rfl | exact ⟨rfl, rfl⟩ | exact ⟨rfl, rfl, rfl⟩ | exact absurd (by simp) hp
theorem Dev.shutWork_keep (d : Dev)  : Dev.Keeps [.mbox, .txn, .qm, .dram, .xfer, .boot, .ctr] d (Dev.shutWork d) := by
  unfold Dev.shutWork; extract_lets st mp d1 d2
  have h1 : Dev.Keeps [.mbox, .txn, .qm, .dram, .xfer, .boot, .ctr] d d1 := (Dev.Keeps.foldl (fun b x => by split <;> simp) _ _).mpr (by simp)
  clear_value d1
  have h2 : Dev.Keeps [.mbox, .txn, .qm, .dram, .xfer, .boot, .ctr] d d2 := h1.trans ((Dev.Keeps.foldl (fun b x => by simp) _ _).mpr (by simp))
  clear_value d2
  exact h2.trans (Dev.set_shut d2 _ _ _)
@[simp ↓] theorem Dev.shutWork_keeps (ps : List Part) (a₀ d : Dev)  (hps : [.mbox, .txn, .qm, .dram, .xfer, .boot, .ctr] ⊆ ps) : Dev.Keeps ps a₀ (Dev.shutWork d) ↔ Dev.Keeps ps a₀ d :=
  Dev.Keeps.drop (Dev.shutWork_keep d ) hps
theorem Dev.alarmSet_keep (d : Dev)  : Dev.Keeps [.pin, .therm, .csr] d (Dev.alarmSet d) := by unfold Dev.alarmSet; repeat' (first | simp | refine (Dev.Keeps.foldl (fun b x => ?_) _ _).mpr ?_ | split)
@[simp ↓] theorem Dev.alarmSet_keeps (ps : List Part) (a₀ d : Dev)  (hps : [.pin, .therm, .csr] ⊆ ps) : Dev.Keeps ps a₀ (Dev.alarmSet d) ↔ Dev.Keeps ps a₀ d :=
  Dev.Keeps.drop (Dev.alarmSet_keep d ) hps
theorem Dev.tempRecord_keep (d : Dev)  : Dev.Keeps [.telem] d (Dev.tempRecord d) := by unfold Dev.tempRecord; repeat' (first | simp | refine (Dev.Keeps.foldl (fun b x => ?_) _ _).mpr ?_ | split)
@[simp ↓] theorem Dev.tempRecord_keeps (ps : List Part) (a₀ d : Dev)  (hps : [.telem] ⊆ ps) : Dev.Keeps ps a₀ (Dev.tempRecord d) ↔ Dev.Keeps ps a₀ d :=
  Dev.Keeps.drop (Dev.tempRecord_keep d ) hps
theorem Dev.snapshot_keep (d : Dev) (src : Nat) : Dev.Keeps [.telem] d (Dev.snapshot d src) := by unfold Dev.snapshot; repeat' (first | simp | refine (Dev.Keeps.foldl (fun b x => ?_) _ _).mpr ?_ | split)
@[simp ↓] theorem Dev.snapshot_keeps (ps : List Part) (a₀ d : Dev) (src : Nat) (hps : [.telem] ⊆ ps) : Dev.Keeps ps a₀ (Dev.snapshot d src) ↔ Dev.Keeps ps a₀ d :=
  Dev.Keeps.drop (Dev.snapshot_keep d src) hps
theorem Dev.censusCheck_keep (d : Dev) (law : Nat) (k : Nat) (vc : Nat) : Dev.Keeps [.fault, .mbox, .telem, .csr, .ctr] d (Dev.censusCheck d law k vc) := by unfold Dev.censusCheck; repeat' (first | simp | refine (Dev.Keeps.foldl (fun b x => ?_) _ _).mpr ?_ | split)
@[simp ↓] theorem Dev.censusCheck_keeps (ps : List Part) (a₀ d : Dev) (law : Nat) (k : Nat) (vc : Nat) (hps : [.fault, .mbox, .telem, .csr, .ctr] ⊆ ps) : Dev.Keeps ps a₀ (Dev.censusCheck d law k vc) ↔ Dev.Keeps ps a₀ d :=
  Dev.Keeps.drop (Dev.censusCheck_keep d law k vc) hps
theorem Dev.setRcv_keep (d : Dev) (t : Tab (Nat × Nat × Nat)) : Dev.Keeps [.csr] d { d with rcv := t } :=
  fun p hp => by cases p <;> first | rfl | exact ⟨rfl, rfl⟩ | exact ⟨rfl, rfl, rfl⟩ | exact absurd (by simp) hp
theorem Dev.readEffect_keep (d : Dev) (ix : Nat) (blk : Nat) (off : Nat) : Dev.Keeps [.ptn, .fault, .sla, .ecc, .csr] d (Dev.readEffect d ix blk off) := by
  unfold Dev.readEffect; extract_lets sel k v d1
  have h1 : Dev.Keeps [.ptn, .fault, .sla, .ecc, .csr] d d1 := (Dev.setRcv_keep d _).mono (by simp)
  clear_value d1
  repeat' split
  all_goals first | exact Dev.Keeps.refl _ _ | simpa using h1 | simp
@[simp ↓] theorem Dev.readEffect_keeps (ps : List Part) (a₀ d : Dev) (ix : Nat) (blk : Nat) (off : Nat) (hps : [.ptn, .fault, .sla, .ecc, .csr] ⊆ ps) : Dev.Keeps ps a₀ (Dev.readEffect d ix blk off) ↔ Dev.Keeps ps a₀ d :=
  Dev.Keeps.drop (Dev.readEffect_keep d ix blk off) hps
theorem Dev.storeReg_keep (d : Dev) (inst : Nat) (blk : Nat) (off : Nat) (v : Nat) : Dev.Keeps [.csr] d (Dev.storeReg d inst blk off v) := by unfold Dev.storeReg; repeat' (first | simp | refine (Dev.Keeps.foldl (fun b x => ?_) _ _).mpr ?_ | split)
@[simp ↓] theorem Dev.storeReg_keeps (ps : List Part) (a₀ d : Dev) (inst : Nat) (blk : Nat) (off : Nat) (v : Nat) (hps : [.csr] ⊆ ps) : Dev.Keeps ps a₀ (Dev.storeReg d inst blk off v) ↔ Dev.Keeps ps a₀ d :=
  Dev.Keeps.drop (Dev.storeReg_keep d inst blk off v) hps
theorem Dev.reactWrite_keep (d : Dev) (n : Nat) (v : Nat) : Dev.Keeps [.csr] d (Dev.reactWrite d n v) := by unfold Dev.reactWrite; repeat' (first | simp | refine (Dev.Keeps.foldl (fun b x => ?_) _ _).mpr ?_ | split)
@[simp ↓] theorem Dev.reactWrite_keeps (ps : List Part) (a₀ d : Dev) (n : Nat) (v : Nat) (hps : [.csr] ⊆ ps) : Dev.Keeps ps a₀ (Dev.reactWrite d n v) ↔ Dev.Keeps ps a₀ d :=
  Dev.Keeps.drop (Dev.reactWrite_keep d n v) hps
theorem Dev.ring_keep (d : Dev) (o : Nat) (v : Nat) : Dev.Keeps [.mbox, .txn, .boot, .csr, .ctr] d (Dev.ring d o v) := by unfold Dev.ring; repeat' (first | simp | refine (Dev.Keeps.foldl (fun b x => ?_) _ _).mpr ?_ | split)
@[simp ↓] theorem Dev.ring_keeps (ps : List Part) (a₀ d : Dev) (o : Nat) (v : Nat) (hps : [.mbox, .txn, .boot, .csr, .ctr] ⊆ ps) : Dev.Keeps ps a₀ (Dev.ring d o v) ↔ Dev.Keeps ps a₀ d :=
  Dev.Keeps.drop (Dev.ring_keep d o v) hps
theorem Dev.rspAck_keep (d : Dev) (o : Nat) (v : Nat) : Dev.Keeps [.mbox] d (Dev.rspAck d o v) := by unfold Dev.rspAck; repeat' (first | simp | refine (Dev.Keeps.foldl (fun b x => ?_) _ _).mpr ?_ | split)
@[simp ↓] theorem Dev.rspAck_keeps (ps : List Part) (a₀ d : Dev) (o : Nat) (v : Nat) (hps : [.mbox] ⊆ ps) : Dev.Keeps ps a₀ (Dev.rspAck d o v) ↔ Dev.Keeps ps a₀ d :=
  Dev.Keeps.drop (Dev.rspAck_keep d o v) hps
theorem Dev.slotWrite_keep (d : Dev) (o : Nat) (off : Nat) (v : Nat) : Dev.Keeps [.mbox] d (Dev.slotWrite d o off v) := by unfold Dev.slotWrite; repeat' (first | simp | refine (Dev.Keeps.foldl (fun b x => ?_) _ _).mpr ?_ | split)
@[simp ↓] theorem Dev.slotWrite_keeps (ps : List Part) (a₀ d : Dev) (o : Nat) (off : Nat) (v : Nat) (hps : [.mbox] ⊆ ps) : Dev.Keeps ps a₀ (Dev.slotWrite d o off v) ↔ Dev.Keeps ps a₀ d :=
  Dev.Keeps.drop (Dev.slotWrite_keep d o off v) hps
theorem Dev.wrMbox_keep (d : Dev) (ix : Nat) (off : Nat) (v : Nat) : Dev.Keeps [.mbox, .txn, .boot, .csr, .ctr] d (Dev.wrMbox d ix off v) := by unfold Dev.wrMbox; repeat' (first | simp | refine (Dev.Keeps.foldl (fun b x => ?_) _ _).mpr ?_ | split)
@[simp ↓] theorem Dev.wrMbox_keeps (ps : List Part) (a₀ d : Dev) (ix : Nat) (off : Nat) (v : Nat) (hps : [.mbox, .txn, .boot, .csr, .ctr] ⊆ ps) : Dev.Keeps ps a₀ (Dev.wrMbox d ix off v) ↔ Dev.Keeps ps a₀ d :=
  Dev.Keeps.drop (Dev.wrMbox_keep d ix off v) hps
theorem Dev.wrEcc_keep (d : Dev) (off : Nat) (v : Nat) : Dev.Keeps [.ecc, .csr] d (Dev.wrEcc d off v) := by unfold Dev.wrEcc; repeat' (first | simp | refine (Dev.Keeps.foldl (fun b x => ?_) _ _).mpr ?_ | split)
@[simp ↓] theorem Dev.wrEcc_keeps (ps : List Part) (a₀ d : Dev) (off : Nat) (v : Nat) (hps : [.ecc, .csr] ⊆ ps) : Dev.Keeps ps a₀ (Dev.wrEcc d off v) ↔ Dev.Keeps ps a₀ d :=
  Dev.Keeps.drop (Dev.wrEcc_keep d off v) hps
theorem Dev.csrRead_keep (d : Dev) (ix a : Nat) : Dev.Keeps [.ptn, .fault, .ecc, .sla, .csr, .latch] d (d.csrRead ix a).dev := by
  unfold Dev.csrRead
  split; · simp
  split; · simp
  extract_lets blk off live v d1
  split; · simp
  have h1 : Dev.Keeps [.ptn, .fault, .ecc, .sla, .csr, .latch] d d1 := by unfold d1; split <;> simp
  clear_value d1
  exact h1.trans ((Dev.readEffect_keep _ _ _ _).mono (by simp))
@[simp ↓] theorem Dev.csrRead_keeps (ps : List Part) (a₀ d : Dev) (ix a : Nat) (hps : [.ptn, .fault, .ecc, .sla, .csr, .latch] ⊆ ps) : Dev.Keeps ps a₀ (d.csrRead ix a).dev ↔ Dev.Keeps ps a₀ d :=
  Dev.Keeps.drop (Dev.csrRead_keep d ix a) hps
theorem Dev.accRecord_keep (d : Dev) (st : Status) (v : Nat) : Dev.Keeps [.mgmt] d (Dev.accRecord d st v) := by unfold Dev.accRecord; repeat' (first | simp | refine (Dev.Keeps.foldl (fun b x => ?_) _ _).mpr ?_ | split)
@[simp ↓] theorem Dev.accRecord_keeps (ps : List Part) (a₀ d : Dev) (st : Status) (v : Nat) (hps : [.mgmt] ⊆ ps) : Dev.Keeps ps a₀ (Dev.accRecord d st v) ↔ Dev.Keeps ps a₀ d :=
  Dev.Keeps.drop (Dev.accRecord_keep d st v) hps
theorem Dev.pathRead_keep (d : Dev) (p : Path) (a : Nat) : Dev.Keeps [.ptn, .fault, .sla, .ecc, .mgmt, .csr, .latch] d (Dev.pathRead d p a) := by unfold Dev.pathRead; repeat' (first | simp | refine (Dev.Keeps.foldl (fun b x => ?_) _ _).mpr ?_ | split)
@[simp ↓] theorem Dev.pathRead_keeps (ps : List Part) (a₀ d : Dev) (p : Path) (a : Nat) (hps : [.ptn, .fault, .sla, .ecc, .mgmt, .csr, .latch] ⊆ ps) : Dev.Keeps ps a₀ (Dev.pathRead d p a) ↔ Dev.Keeps ps a₀ d :=
  Dev.Keeps.drop (Dev.pathRead_keep d p a) hps
theorem Dev.mboxPacket_keep (d : Dev) (n : Nat) (plen : Nat) (img : List Byte) : Dev.Keeps [.fault, .mbox, .telem, .txn, .boot, .csr, .ctr] d (Dev.mboxPacket d n plen img) := by unfold Dev.mboxPacket; repeat' (first | simp | refine (Dev.Keeps.foldl (fun b x => ?_) _ _).mpr ?_ | split)
@[simp ↓] theorem Dev.mboxPacket_keeps (ps : List Part) (a₀ d : Dev) (n : Nat) (plen : Nat) (img : List Byte) (hps : [.fault, .mbox, .telem, .txn, .boot, .csr, .ctr] ⊆ ps) : Dev.Keeps ps a₀ (Dev.mboxPacket d n plen img) ↔ Dev.Keeps ps a₀ d :=
  Dev.Keeps.drop (Dev.mboxPacket_keep d n plen img) hps
theorem Dev.linkReturn_keep (d : Dev) (x : Nat) : Dev.Keeps [.fault, .mbox, .telem, .mem, .ecc, .xfer, .csr, .ctr, .free] d (Dev.linkReturn d x) := by unfold Dev.linkReturn; repeat' (first | simp | refine (Dev.Keeps.foldl (fun b x => ?_) _ _).mpr ?_ | split)
@[simp ↓] theorem Dev.linkReturn_keeps (ps : List Part) (a₀ d : Dev) (x : Nat) (hps : [.fault, .mbox, .telem, .mem, .ecc, .xfer, .csr, .ctr, .free] ⊆ ps) : Dev.Keeps ps a₀ (Dev.linkReturn d x) ↔ Dev.Keeps ps a₀ d :=
  Dev.Keeps.drop (Dev.linkReturn_keep d x) hps
theorem Dev.chainReread_keep (d : Dev) (x : Nat) : Dev.Keeps [.fault, .mbox, .telem, .mem, .ecc, .xfer, .csr, .ctr, .free] d (Dev.chainReread d x) := by unfold Dev.chainReread; repeat' (first | simp | refine (Dev.Keeps.foldl (fun b x => ?_) _ _).mpr ?_ | split)
@[simp ↓] theorem Dev.chainReread_keeps (ps : List Part) (a₀ d : Dev) (x : Nat) (hps : [.fault, .mbox, .telem, .mem, .ecc, .xfer, .csr, .ctr, .free] ⊆ ps) : Dev.Keeps ps a₀ (Dev.chainReread d x) ↔ Dev.Keeps ps a₀ d :=
  Dev.Keeps.drop (Dev.chainReread_keep d x) hps
theorem Dev.fwService_keep (d : Dev)  : Dev.Keeps [.mbox] d (Dev.fwService d) := by unfold Dev.fwService; repeat' (first | simp | refine (Dev.Keeps.foldl (fun b x => ?_) _ _).mpr ?_ | split)
@[simp ↓] theorem Dev.fwService_keeps (ps : List Part) (a₀ d : Dev)  (hps : [.mbox] ⊆ ps) : Dev.Keeps ps a₀ (Dev.fwService d) ↔ Dev.Keeps ps a₀ d :=
  Dev.Keeps.drop (Dev.fwService_keep d ) hps
theorem Dev.cmdExpireNow_keep (d : Dev) (o : Nat) (i : Nat) : Dev.Keeps [.mbox, .boot, .ctr] d (Dev.cmdExpireNow d o i) := by unfold Dev.cmdExpireNow; repeat' (first | simp | refine (Dev.Keeps.foldl (fun b x => ?_) _ _).mpr ?_ | split)
@[simp ↓] theorem Dev.cmdExpireNow_keeps (ps : List Part) (a₀ d : Dev) (o : Nat) (i : Nat) (hps : [.mbox, .boot, .ctr] ⊆ ps) : Dev.Keeps ps a₀ (Dev.cmdExpireNow d o i) ↔ Dev.Keeps ps a₀ d :=
  Dev.Keeps.drop (Dev.cmdExpireNow_keep d o i) hps
theorem Dev.cmdOver_keep (d : Dev) (o : Nat) (i : Nat) : Dev.Keeps [.fault, .mbox, .telem, .csr, .ctr] d (Dev.cmdOver d o i) := by unfold Dev.cmdOver; repeat' (first | simp | refine (Dev.Keeps.foldl (fun b x => ?_) _ _).mpr ?_ | split)
@[simp ↓] theorem Dev.cmdOver_keeps (ps : List Part) (a₀ d : Dev) (o : Nat) (i : Nat) (hps : [.fault, .mbox, .telem, .csr, .ctr] ⊆ ps) : Dev.Keeps ps a₀ (Dev.cmdOver d o i) ↔ Dev.Keeps ps a₀ d :=
  Dev.Keeps.drop (Dev.cmdOver_keep d o i) hps
theorem Dev.prbsSelect_keep (d : Dev) (l : Nat) (g : Nat) (c : Nat) : Dev.Keeps [.lane, .lout, .oct, .csr] d (Dev.prbsSelect d l g c) := by unfold Dev.prbsSelect; repeat' (first | simp | refine (Dev.Keeps.foldl (fun b x => ?_) _ _).mpr ?_ | split)
@[simp ↓] theorem Dev.prbsSelect_keeps (ps : List Part) (a₀ d : Dev) (l : Nat) (g : Nat) (c : Nat) (hps : [.lane, .lout, .oct, .csr] ⊆ ps) : Dev.Keeps ps a₀ (Dev.prbsSelect d l g c) ↔ Dev.Keeps ps a₀ d :=
  Dev.Keeps.drop (Dev.prbsSelect_keep d l g c) hps
theorem Dev.tableTake_keep (d : Dev) (o : Nat) (i : Nat) (opc : Opc) : Dev.Keeps [.mbox, .txn] d (Dev.tableTake d o i opc) := by unfold Dev.tableTake; repeat' (first | simp | refine (Dev.Keeps.foldl (fun b x => ?_) _ _).mpr ?_ | split)
@[simp ↓] theorem Dev.tableTake_keeps (ps : List Part) (a₀ d : Dev) (o : Nat) (i : Nat) (opc : Opc) (hps : [.mbox, .txn] ⊆ ps) : Dev.Keeps ps a₀ (Dev.tableTake d o i opc) ↔ Dev.Keeps ps a₀ d :=
  Dev.Keeps.drop (Dev.tableTake_keep d o i opc) hps
theorem Dev.fwEvent_keep (d : Dev) (state : Nat) (old : Nat) (new : Nat) : Dev.Keeps [.fault, .mbox, .telem, .csr, .ctr] d (Dev.fwEvent d state old new) := by unfold Dev.fwEvent; repeat' (first | simp | refine (Dev.Keeps.foldl (fun b x => ?_) _ _).mpr ?_ | split)
@[simp ↓] theorem Dev.fwEvent_keeps (ps : List Part) (a₀ d : Dev) (state : Nat) (old : Nat) (new : Nat) (hps : [.fault, .mbox, .telem, .csr, .ctr] ⊆ ps) : Dev.Keeps ps a₀ (Dev.fwEvent d state old new) ↔ Dev.Keeps ps a₀ d :=
  Dev.Keeps.drop (Dev.fwEvent_keep d state old new) hps
theorem Dev.fwResume_keep (d : Dev)  : Dev.Keeps [.mbox] d (Dev.fwResume d) := by unfold Dev.fwResume; repeat' (first | simp | refine (Dev.Keeps.foldl (fun b x => ?_) _ _).mpr ?_ | split)
@[simp ↓] theorem Dev.fwResume_keeps (ps : List Part) (a₀ d : Dev)  (hps : [.mbox] ⊆ ps) : Dev.Keeps ps a₀ (Dev.fwResume d) ↔ Dev.Keeps ps a₀ d :=
  Dev.Keeps.drop (Dev.fwResume_keep d ) hps
theorem Dev.evacBegin_keep (d : Dev) (c : Nat) : Dev.Keeps [.xfer, .graft] d (Dev.evacBegin d c) := by unfold Dev.evacBegin; repeat' (first | simp | refine (Dev.Keeps.foldl (fun b x => ?_) _ _).mpr ?_ | split)
@[simp ↓] theorem Dev.evacBegin_keeps (ps : List Part) (a₀ d : Dev) (c : Nat) (hps : [.xfer, .graft] ⊆ ps) : Dev.Keeps ps a₀ (Dev.evacBegin d c) ↔ Dev.Keeps ps a₀ d :=
  Dev.Keeps.drop (Dev.evacBegin_keep d c) hps
theorem Dev.revertSwitch_keep (d : Dev) (ok : Bool) : Dev.Keeps [.fault, .mbox, .telem, .boot, .csr, .ctr] d (Dev.revertSwitch d ok) := by unfold Dev.revertSwitch; repeat' (first | simp | refine (Dev.Keeps.foldl (fun b x => ?_) _ _).mpr ?_ | split)
@[simp ↓] theorem Dev.revertSwitch_keeps (ps : List Part) (a₀ d : Dev) (ok : Bool) (hps : [.fault, .mbox, .telem, .boot, .csr, .ctr] ⊆ ps) : Dev.Keeps ps a₀ (Dev.revertSwitch d ok) ↔ Dev.Keeps ps a₀ d :=
  Dev.Keeps.drop (Dev.revertSwitch_keep d ok) hps
theorem Dev.fwRevert_keep (d : Dev) (ok : Bool) : Dev.Keeps [.fault, .mbox, .telem, .boot, .csr, .ctr] d (Dev.fwRevert d ok) := by unfold Dev.fwRevert; repeat' (first | simp | refine (Dev.Keeps.foldl (fun b x => ?_) _ _).mpr ?_ | split)
@[simp ↓] theorem Dev.fwRevert_keeps (ps : List Part) (a₀ d : Dev) (ok : Bool) (hps : [.fault, .mbox, .telem, .boot, .csr, .ctr] ⊆ ps) : Dev.Keeps ps a₀ (Dev.fwRevert d ok) ↔ Dev.Keeps ps a₀ d :=
  Dev.Keeps.drop (Dev.fwRevert_keep d ok) hps
theorem Dev.sealNow_keep (d : Dev) (r : Nat) : Dev.Keeps [.fault, .mbox, .telem, .otp, .csr, .ctr] d (Dev.sealNow d r) := by unfold Dev.sealNow; repeat' (first | simp | refine (Dev.Keeps.foldl (fun b x => ?_) _ _).mpr ?_ | split)
@[simp ↓] theorem Dev.sealNow_keeps (ps : List Part) (a₀ d : Dev) (r : Nat) (hps : [.fault, .mbox, .telem, .otp, .csr, .ctr] ⊆ ps) : Dev.Keeps ps a₀ (Dev.sealNow d r) ↔ Dev.Keeps ps a₀ d :=
  Dev.Keeps.drop (Dev.sealNow_keep d r) hps
theorem Dev.testOtp_keep (d : Dev) (f : Fuses) : Dev.Keeps [.fault, .mbox, .telem, .otp, .csr, .ctr] d (Dev.testOtp d f).2 := by
  unfold Dev.testOtp
  refine (Dev.Keeps.foldl_p (γ := Nat × Dev) (fun s => s.2) (fun s x => ?_) _ _).mpr (by simp)
  refine (Dev.Keeps.foldl_p (γ := Nat × Dev) (fun s => s.2) (fun s x => ?_) _ _).mpr (by simp)
  have := Dev.otpRead_keep s.2
  split
  · simp
  · split
    · rename_i h; have h2 := congrArg Prod.snd h; simp only at h2; rw [← h2]; simp
    · rename_i h; have h2 := congrArg Prod.snd h; simp only at h2; rw [← h2]; simp
@[simp ↓] theorem Dev.testOtp_keeps (ps : List Part) (a₀ d : Dev) (f : Fuses) (hps : [.fault, .mbox, .telem, .otp, .csr, .ctr] ⊆ ps) : Dev.Keeps ps a₀ (Dev.testOtp d f).2 ↔ Dev.Keeps ps a₀ d :=
  Dev.Keeps.drop (Dev.testOtp_keep d f) hps
theorem Dev.testErase_keep (d : Dev) (set : Nat) : Dev.Keeps [.telem, .mem] d (Dev.testErase d set) := by unfold Dev.testErase; repeat' (first | simp | refine (Dev.Keeps.foldl (fun b x => ?_) _ _).mpr ?_ | split)
@[simp ↓] theorem Dev.testErase_keeps (ps : List Part) (a₀ d : Dev) (set : Nat) (hps : [.telem, .mem] ⊆ ps) : Dev.Keeps ps a₀ (Dev.testErase d set) ↔ Dev.Keeps ps a₀ d :=
  Dev.Keeps.drop (Dev.testErase_keep d set) hps
theorem Dev.testEnd_keep (d : Dev) (mask : Nat) : Dev.Keeps [.fault, .mbox, .telem, .graft, .csr, .ctr] d (Dev.testEnd d mask) := by unfold Dev.testEnd; repeat' (first | simp | refine (Dev.Keeps.foldl (fun b x => ?_) _ _).mpr ?_ | split)
@[simp ↓] theorem Dev.testEnd_keeps (ps : List Part) (a₀ d : Dev) (mask : Nat) (hps : [.fault, .mbox, .telem, .graft, .csr, .ctr] ⊆ ps) : Dev.Keeps ps a₀ (Dev.testEnd d mask) ↔ Dev.Keeps ps a₀ d :=
  Dev.Keeps.drop (Dev.testEnd_keep d mask) hps
theorem Dev.wearRaise_keep (d : Dev) (x : Detail) : Dev.Keeps [.fault, .mbox, .telem, .csr, .ctr] d (Dev.wearRaise d x) := by unfold Dev.wearRaise; repeat' (first | simp | refine (Dev.Keeps.foldl (fun b x => ?_) _ _).mpr ?_ | split)
@[simp ↓] theorem Dev.wearRaise_keeps (ps : List Part) (a₀ d : Dev) (x : Detail) (hps : [.fault, .mbox, .telem, .csr, .ctr] ⊆ ps) : Dev.Keeps ps a₀ (Dev.wearRaise d x) ↔ Dev.Keeps ps a₀ d :=
  Dev.Keeps.drop (Dev.wearRaise_keep d x) hps
theorem Dev.wearLink_keep (d : Dev) (c : Nat) (l : Nat) (b : Nat) : Dev.Keeps [.fault, .mbox, .telem, .dram, .ecc, .graft, .csr, .ctr] d (Dev.wearLink d c l b) := by unfold Dev.wearLink; repeat' (first | simp | refine (Dev.Keeps.foldl (fun b x => ?_) _ _).mpr ?_ | split)
@[simp ↓] theorem Dev.wearLink_keeps (ps : List Part) (a₀ d : Dev) (c : Nat) (l : Nat) (b : Nat) (hps : [.fault, .mbox, .telem, .dram, .ecc, .graft, .csr, .ctr] ⊆ ps) : Dev.Keeps ps a₀ (Dev.wearLink d c l b) ↔ Dev.Keeps ps a₀ d :=
  Dev.Keeps.drop (Dev.wearLink_keep d c l b) hps
theorem Dev.wearTrunk_keep (d : Dev) (t : Nat) (sig : Nat) : Dev.Keeps [.fault, .mbox, .telem, .mem, .dram, .graft, .csr, .ctr] d (Dev.wearTrunk d t sig) := by unfold Dev.wearTrunk; repeat' (first | simp | refine (Dev.Keeps.foldl (fun b x => ?_) _ _).mpr ?_ | split)
@[simp ↓] theorem Dev.wearTrunk_keeps (ps : List Part) (a₀ d : Dev) (t : Nat) (sig : Nat) (hps : [.fault, .mbox, .telem, .mem, .dram, .graft, .csr, .ctr] ⊆ ps) : Dev.Keeps ps a₀ (Dev.wearTrunk d t sig) ↔ Dev.Keeps ps a₀ d :=
  Dev.Keeps.drop (Dev.wearTrunk_keep d t sig) hps
theorem Dev.wearSub_keep (d : Dev) (k : Nat) (n : Nat) : Dev.Keeps [.fault, .mbox, .telem, .graft, .csr, .ctr] d (Dev.wearSub d k n) := by unfold Dev.wearSub; repeat' (first | simp | refine (Dev.Keeps.foldl (fun b x => ?_) _ _).mpr ?_ | split)
@[simp ↓] theorem Dev.wearSub_keeps (ps : List Part) (a₀ d : Dev) (k : Nat) (n : Nat) (hps : [.fault, .mbox, .telem, .graft, .csr, .ctr] ⊆ ps) : Dev.Keeps ps a₀ (Dev.wearSub d k n) ↔ Dev.Keeps ps a₀ d :=
  Dev.Keeps.drop (Dev.wearSub_keep d k n) hps
theorem Dev.wearHourly_keep (d : Dev) (ok : Bool) : Dev.Keeps [.graft, .boot] d (Dev.wearHourly d ok) := by unfold Dev.wearHourly; repeat' (first | simp | refine (Dev.Keeps.foldl (fun b x => ?_) _ _).mpr ?_ | split)
@[simp ↓] theorem Dev.wearHourly_keeps (ps : List Part) (a₀ d : Dev) (ok : Bool) (hps : [.graft, .boot] ⊆ ps) : Dev.Keeps ps a₀ (Dev.wearHourly d ok) ↔ Dev.Keeps ps a₀ d :=
  Dev.Keeps.drop (Dev.wearHourly_keep d ok) hps
theorem Dev.blockDrop_keep (d : Dev) (t : Nat) : Dev.Keeps [.mem] d (Dev.blockDrop d t) := by unfold Dev.blockDrop; repeat' (first | simp | refine (Dev.Keeps.foldl (fun b x => ?_) _ _).mpr ?_ | split)
@[simp ↓] theorem Dev.blockDrop_keeps (ps : List Part) (a₀ d : Dev) (t : Nat) (hps : [.mem] ⊆ ps) : Dev.Keeps ps a₀ (Dev.blockDrop d t) ↔ Dev.Keeps ps a₀ d :=
  Dev.Keeps.drop (Dev.blockDrop_keep d t) hps
theorem Dev.totalsApply_keep (d : Dev)  : Dev.Keeps [.fault, .mbox, .telem, .qm, .csr, .ctr] d (Dev.totalsApply d) := by unfold Dev.totalsApply; repeat' (first | simp | refine (Dev.Keeps.foldl (fun b x => ?_) _ _).mpr ?_ | split)
@[simp ↓] theorem Dev.totalsApply_keeps (ps : List Part) (a₀ d : Dev)  (hps : [.fault, .mbox, .telem, .qm, .csr, .ctr] ⊆ ps) : Dev.Keeps ps a₀ (Dev.totalsApply d) ↔ Dev.Keeps ps a₀ d :=
  Dev.Keeps.drop (Dev.totalsApply_keep d ) hps
theorem Dev.profilesApply_keep (d : Dev) (old : List Byte) : Dev.Keeps [.qm] d (Dev.profilesApply d old) := by unfold Dev.profilesApply; repeat' (first | simp | refine (Dev.Keeps.foldl (fun b x => ?_) _ _).mpr ?_ | split)
@[simp ↓] theorem Dev.profilesApply_keeps (ps : List Part) (a₀ d : Dev) (old : List Byte) (hps : [.qm] ⊆ ps) : Dev.Keeps ps a₀ (Dev.profilesApply d old) ↔ Dev.Keeps ps a₀ d :=
  Dev.Keeps.drop (Dev.profilesApply_keep d old) hps
theorem Dev.cfgRecPut_keep (d : Dev) (pending : Bool) : Dev.Keeps [.boot] d (Dev.cfgRecPut d pending) := by unfold Dev.cfgRecPut; repeat' (first | simp | refine (Dev.Keeps.foldl (fun b x => ?_) _ _).mpr ?_ | split)
@[simp ↓] theorem Dev.cfgRecPut_keeps (ps : List Part) (a₀ d : Dev) (pending : Bool) (hps : [.boot] ⊆ ps) : Dev.Keeps ps a₀ (Dev.cfgRecPut d pending) ↔ Dev.Keeps ps a₀ d :=
  Dev.Keeps.drop (Dev.cfgRecPut_keep d pending) hps
theorem Dev.cfgEvent_keep (d : Dev) (reason : Nat) (owner : Nat) (changed : Nat) (ignored : Nat) : Dev.Keeps [.fault, .mbox, .telem, .csr, .ctr] d (Dev.cfgEvent d reason owner changed ignored) := by unfold Dev.cfgEvent; repeat' (first | simp | refine (Dev.Keeps.foldl (fun b x => ?_) _ _).mpr ?_ | split)
@[simp ↓] theorem Dev.cfgEvent_keeps (ps : List Part) (a₀ d : Dev) (reason : Nat) (owner : Nat) (changed : Nat) (ignored : Nat) (hps : [.fault, .mbox, .telem, .csr, .ctr] ⊆ ps) : Dev.Keeps ps a₀ (Dev.cfgEvent d reason owner changed ignored) ↔ Dev.Keeps ps a₀ d :=
  Dev.Keeps.drop (Dev.cfgEvent_keep d reason owner changed ignored) hps
theorem Dev.shrinkBegin_keep (d : Dev) (old : List Byte) (new : List Byte) : Dev.Keeps [.qm, .graft, .csr] d (Dev.shrinkBegin d old new) := by unfold Dev.shrinkBegin; repeat' (first | simp | refine (Dev.Keeps.foldl (fun b x => ?_) _ _).mpr ?_ | split)
@[simp ↓] theorem Dev.shrinkBegin_keeps (ps : List Part) (a₀ d : Dev) (old : List Byte) (new : List Byte) (hps : [.qm, .graft, .csr] ⊆ ps) : Dev.Keeps ps a₀ (Dev.shrinkBegin d old new) ↔ Dev.Keeps ps a₀ d :=
  Dev.Keeps.drop (Dev.shrinkBegin_keep d old new) hps
theorem Dev.shrinkEnd_keep (d : Dev)  : Dev.Keeps [.qm, .graft, .csr] d (Dev.shrinkEnd d) := by unfold Dev.shrinkEnd; repeat' (first | simp | refine (Dev.Keeps.foldl (fun b x => ?_) _ _).mpr ?_ | split)
@[simp ↓] theorem Dev.shrinkEnd_keeps (ps : List Part) (a₀ d : Dev)  (hps : [.qm, .graft, .csr] ⊆ ps) : Dev.Keeps ps a₀ (Dev.shrinkEnd d) ↔ Dev.Keeps ps a₀ d :=
  Dev.Keeps.drop (Dev.shrinkEnd_keep d ) hps
theorem Dev.commitStop_keep (d : Dev)  : Dev.Keeps [.cfg, .qm] d (Dev.commitStop d) := by unfold Dev.commitStop; repeat' (first | simp | refine (Dev.Keeps.foldl (fun b x => ?_) _ _).mpr ?_ | split)
@[simp ↓] theorem Dev.commitStop_keeps (ps : List Part) (a₀ d : Dev)  (hps : [.cfg, .qm] ⊆ ps) : Dev.Keeps ps a₀ (Dev.commitStop d) ↔ Dev.Keeps ps a₀ d :=
  Dev.Keeps.drop (Dev.commitStop_keep d ) hps
theorem Dev.rollBegin_keep (d : Dev)  : Dev.Keeps [.cfg, .qm, .graft, .csr] d (Dev.rollBegin d) := by unfold Dev.rollBegin; repeat' (first | simp | refine (Dev.Keeps.foldl (fun b x => ?_) _ _).mpr ?_ | split)
@[simp ↓] theorem Dev.rollBegin_keeps (ps : List Part) (a₀ d : Dev)  (hps : [.cfg, .qm, .graft, .csr] ⊆ ps) : Dev.Keeps ps a₀ (Dev.rollBegin d) ↔ Dev.Keeps ps a₀ d :=
  Dev.Keeps.drop (Dev.rollBegin_keep d ) hps
theorem Dev.bootCheck_keep (d : Dev) (slot : Nat) : Dev.Keeps [.fault, .mbox, .telem, .csr, .ctr] d (Dev.bootCheck d slot) := by unfold Dev.bootCheck; repeat' (first | simp | refine (Dev.Keeps.foldl (fun b x => ?_) _ _).mpr ?_ | split)
@[simp ↓] theorem Dev.bootCheck_keeps (ps : List Part) (a₀ d : Dev) (slot : Nat) (hps : [.fault, .mbox, .telem, .csr, .ctr] ⊆ ps) : Dev.Keeps ps a₀ (Dev.bootCheck d slot) ↔ Dev.Keeps ps a₀ d :=
  Dev.Keeps.drop (Dev.bootCheck_keep d slot) hps
theorem Dev.bootSlots_keep (d : Dev) (f : Fuses) : Dev.Keeps [.cfg, .fault, .mbox, .telem, .boot, .csr, .ctr] d (Dev.bootSlots d f).2.2 := by
  unfold Dev.bootSlots; split
  · simp
  · extract_lets a0 p0 roll d1 a p take
    have h1 : Dev.Keeps [.cfg, .fault, .mbox, .telem, .boot, .csr, .ctr] d d1 := by unfold d1; split <;> simp
    clear_value d1
    split
    rename_i reason act prev d2 h
    have h2 : Dev.Keeps [.cfg, .fault, .mbox, .telem, .boot, .csr, .ctr] d d2 := by
      have e := congrArg (fun x => x.2.2.2) h; simp only at e; rw [← e]
      split
      · exact h1
      · split <;> simpa using h1
    clear h
    extract_lets d3 pv d4 d5
    have h3 : Dev.Keeps [.cfg, .fault, .mbox, .telem, .boot, .csr, .ctr] d d3 := by unfold d3; split <;> simpa using h2
    clear_value d3
    have h4 : Dev.Keeps [.cfg, .fault, .mbox, .telem, .boot, .csr, .ctr] d d4 := by unfold d4; rw [Dev.modCfg_keeps _ _ _ _ (by simp)]; exact h3
    clear_value d4
    have h5 : Dev.Keeps [.cfg, .fault, .mbox, .telem, .boot, .csr, .ctr] d d5 := by unfold d5; split <;> simpa using h4
    clear_value d5
    rw [Dev.modCfg_keeps _ _ _ _ (by simp)]; exact h5
@[simp ↓] theorem Dev.bootSlots_keeps (ps : List Part) (a₀ d : Dev) (f : Fuses) (hps : [.cfg, .fault, .mbox, .telem, .boot, .csr, .ctr] ⊆ ps) : Dev.Keeps ps a₀ (Dev.bootSlots d f).2.2 ↔ Dev.Keeps ps a₀ d :=
  Dev.Keeps.drop (Dev.bootSlots_keep d f) hps
theorem Dev.sramUpset_keep (d : Dev) (span : Nat × Nat × Nat) (us : List SramUpset) : Dev.Keeps [.txn, .mem] d (Dev.sramUpset d span us) := by unfold Dev.sramUpset; repeat' (first | simp | refine (Dev.Keeps.foldl (fun b x => ?_) _ _).mpr ?_ | split)
@[simp ↓] theorem Dev.sramUpset_keeps (ps : List Part) (a₀ d : Dev) (span : Nat × Nat × Nat) (us : List SramUpset) (hps : [.txn, .mem] ⊆ ps) : Dev.Keeps ps a₀ (Dev.sramUpset d span us) ↔ Dev.Keeps ps a₀ d :=
  Dev.Keeps.drop (Dev.sramUpset_keep d span us) hps
theorem Dev.internalBad_keep (d : Dev)  : Dev.Keeps [.fault, .mbox, .telem, .csr, .ctr, .free] d (Dev.internalBad d) := by unfold Dev.internalBad; repeat' (first | simp | refine (Dev.Keeps.foldl (fun b x => ?_) _ _).mpr ?_ | split)
@[simp ↓] theorem Dev.internalBad_keeps (ps : List Part) (a₀ d : Dev)  (hps : [.fault, .mbox, .telem, .csr, .ctr, .free] ⊆ ps) : Dev.Keeps ps a₀ (Dev.internalBad d) ↔ Dev.Keeps ps a₀ d :=
  Dev.Keeps.drop (Dev.internalBad_keep d ) hps
theorem Dev.groomStaged_keep (d : Dev)  : Dev.Keeps [.fault, .mbox, .telem, .txn, .ecc, .csr, .ctr, .free] d (Dev.groomStaged d) := by unfold Dev.groomStaged; repeat' (first | simp | refine (Dev.Keeps.foldl (fun b x => ?_) _ _).mpr ?_ | split)
@[simp ↓] theorem Dev.groomStaged_keeps (ps : List Part) (a₀ d : Dev)  (hps : [.fault, .mbox, .telem, .txn, .ecc, .csr, .ctr, .free] ⊆ ps) : Dev.Keeps ps a₀ (Dev.groomStaged d) ↔ Dev.Keeps ps a₀ d :=
  Dev.Keeps.drop (Dev.groomStaged_keep d ) hps
theorem Dev.mgTouch_keep (d : Dev) (nak : Bool) (out : List Byte) : Dev.Keeps [.clk, .mgmt] d (Dev.mgTouch d nak out) := by unfold Dev.mgTouch; repeat' (first | simp | refine (Dev.Keeps.foldl (fun b x => ?_) _ _).mpr ?_ | split)
@[simp ↓] theorem Dev.mgTouch_keeps (ps : List Part) (a₀ d : Dev) (nak : Bool) (out : List Byte) (hps : [.clk, .mgmt] ⊆ ps) : Dev.Keeps ps a₀ (Dev.mgTouch d nak out) ↔ Dev.Keeps ps a₀ d :=
  Dev.Keeps.drop (Dev.mgTouch_keep d nak out) hps
theorem Dev.mgErr_keep (d : Dev) (b : Nat) : Dev.Keeps [.csr] d (Dev.mgErr d b) := by unfold Dev.mgErr; repeat' (first | simp | refine (Dev.Keeps.foldl (fun b x => ?_) _ _).mpr ?_ | split)
@[simp ↓] theorem Dev.mgErr_keeps (ps : List Part) (a₀ d : Dev) (b : Nat) (hps : [.csr] ⊆ ps) : Dev.Keeps ps a₀ (Dev.mgErr d b) ↔ Dev.Keeps ps a₀ d :=
  Dev.Keeps.drop (Dev.mgErr_keep d b) hps
theorem Dev.mgRead_keep (d : Dev) (bytes : List Byte) (n : Nat) : Dev.Keeps [.clk, .ptn, .fault, .sla, .ecc, .mgmt, .csr, .latch] d (Dev.mgRead d bytes n) := by
  have hr : ∀ (n : Nat) (p : Option (List Byte)) (a : Nat) (out : List Byte) (b : Dev), Dev.Keeps [.clk, .ptn, .fault, .sla, .ecc, .mgmt, .csr, .latch] b (b.mgReads p a n out) := by
    intro n; induction n with
    | zero => intro p a out b; simp [Dev.mgReads]
    | succ n ih =>
      intro p a out b; unfold Dev.mgReads; extract_lets tail r
      split
      · simp
      · exact Dev.Keeps.trans (by simp [r]) (ih _ _ _ _)
  unfold Dev.mgRead
  split; · simp
  extract_lets d1
  have h1 : Dev.Keeps [.clk, .ptn, .fault, .sla, .ecc, .mgmt, .csr, .latch] d d1 := by unfold d1; simp
  clear_value d1
  split
  · simpa using h1
  · exact h1.trans (hr _ _ _ _ _)
@[simp ↓] theorem Dev.mgRead_keeps (ps : List Part) (a₀ d : Dev) (bytes : List Byte) (n : Nat) (hps : [.clk, .ptn, .fault, .sla, .ecc, .mgmt, .csr, .latch] ⊆ ps) : Dev.Keeps ps a₀ (Dev.mgRead d bytes n) ↔ Dev.Keeps ps a₀ d :=
  Dev.Keeps.drop (Dev.mgRead_keep d bytes n) hps
theorem Dev.ccc_keep (d : Dev) (ok : Bool) (out : List Byte) (f : MgmtU → MgmtU) : Dev.Keeps [.clk, .mgmt] d (Dev.ccc d ok out f) := by unfold Dev.ccc; repeat' (first | simp | refine (Dev.Keeps.foldl (fun b x => ?_) _ _).mpr ?_ | split)
@[simp ↓] theorem Dev.ccc_keeps (ps : List Part) (a₀ d : Dev) (ok : Bool) (out : List Byte) (f : MgmtU → MgmtU) (hps : [.clk, .mgmt] ⊆ ps) : Dev.Keeps ps a₀ (Dev.ccc d ok out f) ↔ Dev.Keeps ps a₀ d :=
  Dev.Keeps.drop (Dev.ccc_keep d ok out f) hps
theorem Dev.getStatus_keep (d : Dev)  : Dev.Keeps [.clk, .mgmt, .free] d (Dev.getStatus d) := by unfold Dev.getStatus; repeat' (first | simp | refine (Dev.Keeps.foldl (fun b x => ?_) _ _).mpr ?_ | split)
@[simp ↓] theorem Dev.getStatus_keeps (ps : List Part) (a₀ d : Dev)  (hps : [.clk, .mgmt, .free] ⊆ ps) : Dev.Keeps ps a₀ (Dev.getStatus d) ↔ Dev.Keeps ps a₀ d :=
  Dev.Keeps.drop (Dev.getStatus_keep d ) hps
theorem Dev.hold_keep (d : Dev) (code : Nat) : Dev.Keeps [.pin] d (Dev.hold d code) := by unfold Dev.hold; repeat' (first | simp | refine (Dev.Keeps.foldl (fun b x => ?_) _ _).mpr ?_ | split)
@[simp ↓] theorem Dev.hold_keeps (ps : List Part) (a₀ d : Dev) (code : Nat) (hps : [.pin] ⊆ ps) : Dev.Keeps ps a₀ (Dev.hold d code) ↔ Dev.Keeps ps a₀ d :=
  Dev.Keeps.drop (Dev.hold_keep d code) hps
theorem Dev.romHeader_keep (d : Dev)  : Dev.Keeps [.boot] d (Dev.romHeader d) := by unfold Dev.romHeader; repeat' (first | simp | refine (Dev.Keeps.foldl (fun b x => ?_) _ _).mpr ?_ | split)
@[simp ↓] theorem Dev.romHeader_keeps (ps : List Part) (a₀ d : Dev)  (hps : [.boot] ⊆ ps) : Dev.Keeps ps a₀ (Dev.romHeader d) ↔ Dev.Keeps ps a₀ d :=
  Dev.Keeps.drop (Dev.romHeader_keep d ) hps
theorem Dev.romChoose_keep (d : Dev) (f : Fuses) : Dev.Keeps [.pin, .boot] d (Dev.romChoose d f) := by
  unfold Dev.romChoose; extract_lets r r1 d1
  have h : Dev.Keeps [.pin, .boot] d d1 := by unfold d1; split <;> simp
  clear_value d1; repeat' split
  all_goals simpa using h
@[simp ↓] theorem Dev.romChoose_keeps (ps : List Part) (a₀ d : Dev) (f : Fuses) (hps : [.pin, .boot] ⊆ ps) : Dev.Keeps ps a₀ (Dev.romChoose d f) ↔ Dev.Keeps ps a₀ d :=
  Dev.Keeps.drop (Dev.romChoose_keep d f) hps
theorem Dev.romJudge_keep (d : Dev) (f : Fuses) (t : TestRes) : Dev.Keeps [.pin, .fault, .mbox, .telem, .graft, .boot, .csr, .ctr] d (Dev.romJudge d f t) := by
  unfold Dev.romJudge; extract_lets rec_ b good skip d1 long d2 d3 d4
  have h1 : Dev.Keeps [.pin, .fault, .mbox, .telem, .graft, .boot, .csr, .ctr] d d1 := by unfold d1; cases hr : rec_ with
                                    | none => simp
                                    | some x => simp
  clear_value d1
  have h2 : Dev.Keeps [.pin, .fault, .mbox, .telem, .graft, .boot, .csr, .ctr] d d2 := by unfold d2; rw [Dev.modGraft_keeps _ _ _ _ (by simp)]; exact h1
  clear_value d2
  have h3 : Dev.Keeps [.pin, .fault, .mbox, .telem, .graft, .boot, .csr, .ctr] d d3 := by unfold d3; rw [Dev.modBoot_keeps _ _ _ _ (by simp)]; exact h2
  clear_value d3 good skip
  have h4 : Dev.Keeps [.pin, .fault, .mbox, .telem, .graft, .boot, .csr, .ctr] d d4 := by unfold d4; split <;> simpa using h3
  clear_value d4
  simpa using h4
@[simp ↓] theorem Dev.romJudge_keeps (ps : List Part) (a₀ d : Dev) (f : Fuses) (t : TestRes) (hps : [.pin, .fault, .mbox, .telem, .graft, .boot, .csr, .ctr] ⊆ ps) : Dev.Keeps ps a₀ (Dev.romJudge d f t) ↔ Dev.Keeps ps a₀ d :=
  Dev.Keeps.drop (Dev.romJudge_keep d f t) hps
theorem Dev.romHeat_keep (d : Dev) (f : Fuses) (b : BootEnv) : Dev.Keeps [.pin, .fault, .mbox, .telem, .graft, .boot, .csr, .ctr] d (Dev.romHeat d f b) := by unfold Dev.romHeat; repeat' (first | simp | refine (Dev.Keeps.foldl (fun b x => ?_) _ _).mpr ?_ | split)
@[simp ↓] theorem Dev.romHeat_keeps (ps : List Part) (a₀ d : Dev) (f : Fuses) (b : BootEnv) (hps : [.pin, .fault, .mbox, .telem, .graft, .boot, .csr, .ctr] ⊆ ps) : Dev.Keeps ps a₀ (Dev.romHeat d f b) ↔ Dev.Keeps ps a₀ d :=
  Dev.Keeps.drop (Dev.romHeat_keep d f b) hps
theorem Dev.romRead_keep (d : Dev) (f : Fuses) (b : BootEnv) : Dev.Keeps [.pin, .fault, .mbox, .telem, .therm, .graft, .otp, .boot, .csr, .ctr] d (Dev.romRead d f b) := by unfold Dev.romRead; repeat' (first | simp | refine (Dev.Keeps.foldl (fun b x => ?_) _ _).mpr ?_ | split)
@[simp ↓] theorem Dev.romRead_keeps (ps : List Part) (a₀ d : Dev) (f : Fuses) (b : BootEnv) (hps : [.pin, .fault, .mbox, .telem, .therm, .graft, .otp, .boot, .csr, .ctr] ⊆ ps) : Dev.Keeps ps a₀ (Dev.romRead d f b) ↔ Dev.Keeps ps a₀ d :=
  Dev.Keeps.drop (Dev.romRead_keep d f b) hps
theorem Dev.romFlash_keep (d : Dev) (f : Fuses) (b : BootEnv) : Dev.Keeps [.pin, .fault, .mbox, .telem, .therm, .graft, .otp, .boot, .csr, .ctr] d (Dev.romFlash d f b) := by unfold Dev.romFlash; repeat' (first | simp | refine (Dev.Keeps.foldl (fun b x => ?_) _ _).mpr ?_ | split)
@[simp ↓] theorem Dev.romFlash_keeps (ps : List Part) (a₀ d : Dev) (f : Fuses) (b : BootEnv) (hps : [.pin, .fault, .mbox, .telem, .therm, .graft, .otp, .boot, .csr, .ctr] ⊆ ps) : Dev.Keeps ps a₀ (Dev.romFlash d f b) ↔ Dev.Keeps ps a₀ d :=
  Dev.Keeps.drop (Dev.romFlash_keep d f b) hps
theorem Dev.romMeasure_keep (d : Dev) (f : Fuses) (khz : Nat) (b : BootEnv) : Dev.Keeps [.pin, .clk, .fault, .mbox, .telem, .therm, .graft, .otp, .boot, .csr, .ctr] d (Dev.romMeasure d f khz b) := by unfold Dev.romMeasure; repeat' (first | simp | refine (Dev.Keeps.foldl (fun b x => ?_) _ _).mpr ?_ | split)
@[simp ↓] theorem Dev.romMeasure_keeps (ps : List Part) (a₀ d : Dev) (f : Fuses) (khz : Nat) (b : BootEnv) (hps : [.pin, .clk, .fault, .mbox, .telem, .therm, .graft, .otp, .boot, .csr, .ctr] ⊆ ps) : Dev.Keeps ps a₀ (Dev.romMeasure d f khz b) ↔ Dev.Keeps ps a₀ d :=
  Dev.Keeps.drop (Dev.romMeasure_keep d f khz b) hps
theorem Dev.romStart_keep (d : Dev) (f : Fuses) (b : BootEnv) : Dev.Keeps [.pin, .clk, .fault, .mbox, .telem, .therm, .graft, .otp, .boot, .csr, .ctr] d (Dev.romStart d f b) := by unfold Dev.romStart; repeat' (first | simp | refine (Dev.Keeps.foldl (fun b x => ?_) _ _).mpr ?_ | split)
@[simp ↓] theorem Dev.romStart_keeps (ps : List Part) (a₀ d : Dev) (f : Fuses) (b : BootEnv) (hps : [.pin, .clk, .fault, .mbox, .telem, .therm, .graft, .otp, .boot, .csr, .ctr] ⊆ ps) : Dev.Keeps ps a₀ (Dev.romStart d f b) ↔ Dev.Keeps ps a₀ d :=
  Dev.Keeps.drop (Dev.romStart_keep d f b) hps
theorem Dev.railOut_keep (d : Dev) (rail : Nat) (dir : Nat) : Dev.Keeps [.pin, .fault, .mbox, .telem, .csr, .ctr] d (Dev.railOut d rail dir) := by unfold Dev.railOut; repeat' (first | simp | refine (Dev.Keeps.foldl (fun b x => ?_) _ _).mpr ?_ | split)
@[simp ↓] theorem Dev.railOut_keeps (ps : List Part) (a₀ d : Dev) (rail : Nat) (dir : Nat) (hps : [.pin, .fault, .mbox, .telem, .csr, .ctr] ⊆ ps) : Dev.Keeps ps a₀ (Dev.railOut d rail dir) ↔ Dev.Keeps ps a₀ d :=
  Dev.Keeps.drop (Dev.railOut_keep d rail dir) hps
theorem Dev.vprogHigh_keep (d : Dev)  : Dev.Keeps [.pin, .fault, .mbox, .telem, .csr, .ctr] d (Dev.vprogHigh d) := by unfold Dev.vprogHigh; repeat' (first | simp | refine (Dev.Keeps.foldl (fun b x => ?_) _ _).mpr ?_ | split)
@[simp ↓] theorem Dev.vprogHigh_keeps (ps : List Part) (a₀ d : Dev)  (hps : [.pin, .fault, .mbox, .telem, .csr, .ctr] ⊆ ps) : Dev.Keeps ps a₀ (Dev.vprogHigh d) ↔ Dev.Keeps ps a₀ d :=
  Dev.Keeps.drop (Dev.vprogHigh_keep d ) hps
theorem Dev.vcorePublish_keep (d : Dev) (mv : Nat) : Dev.Keeps [.pin, .csr] d (Dev.vcorePublish d mv) := by unfold Dev.vcorePublish; repeat' (first | simp | refine (Dev.Keeps.foldl (fun b x => ?_) _ _).mpr ?_ | split)
@[simp ↓] theorem Dev.vcorePublish_keeps (ps : List Part) (a₀ d : Dev) (mv : Nat) (hps : [.pin, .csr] ⊆ ps) : Dev.Keeps ps a₀ (Dev.vcorePublish d mv) ↔ Dev.Keeps ps a₀ d :=
  Dev.Keeps.drop (Dev.vcorePublish_keep d mv) hps
theorem Dev.recheckHeat_keep (d : Dev) (f : Fuses) (b : BootEnv) : Dev.Keeps [.pin, .fault, .mbox, .telem, .graft, .boot, .csr, .ctr] d (Dev.recheckHeat d f b) := by unfold Dev.recheckHeat; repeat' (first | simp | refine (Dev.Keeps.foldl (fun b x => ?_) _ _).mpr ?_ | split)
@[simp ↓] theorem Dev.recheckHeat_keeps (ps : List Part) (a₀ d : Dev) (f : Fuses) (b : BootEnv) (hps : [.pin, .fault, .mbox, .telem, .graft, .boot, .csr, .ctr] ⊆ ps) : Dev.Keeps ps a₀ (Dev.recheckHeat d f b) ↔ Dev.Keeps ps a₀ d :=
  Dev.Keeps.drop (Dev.recheckHeat_keep d f b) hps
theorem Dev.bootEntry_keep (d : Dev) (v : Nat) : Dev.Keeps [.graft] d (Dev.bootEntry d v) := by unfold Dev.bootEntry; repeat' (first | simp | refine (Dev.Keeps.foldl (fun b x => ?_) _ _).mpr ?_ | split)
@[simp ↓] theorem Dev.bootEntry_keeps (ps : List Part) (a₀ d : Dev) (v : Nat) (hps : [.graft] ⊆ ps) : Dev.Keeps ps a₀ (Dev.bootEntry d v) ↔ Dev.Keeps ps a₀ d :=
  Dev.Keeps.drop (Dev.bootEntry_keep d v) hps
theorem Dev.bootChan_keep (d : Dev) (b : List Byte) (c : Nat) : Dev.Keeps [.dram, .graft] d (Dev.bootChan b d c) := by unfold Dev.bootChan; repeat' (first | simp | refine (Dev.Keeps.foldl (fun b x => ?_) _ _).mpr ?_ | split)
@[simp ↓] theorem Dev.bootChan_keeps (ps : List Part) (a₀ d : Dev) (b : List Byte) (c : Nat) (hps : [.dram, .graft] ⊆ ps) : Dev.Keeps ps a₀ (Dev.bootChan b d c) ↔ Dev.Keeps ps a₀ d :=
  Dev.Keeps.drop (Dev.bootChan_keep d b c) hps
theorem Dev.bootTrunk_keep (d : Dev) (b : List Byte) (k : Nat) : Dev.Keeps [.graft] d (Dev.bootTrunk b d k) := by unfold Dev.bootTrunk; repeat' (first | simp | refine (Dev.Keeps.foldl (fun b x => ?_) _ _).mpr ?_ | split)
@[simp ↓] theorem Dev.bootTrunk_keeps (ps : List Part) (a₀ d : Dev) (b : List Byte) (k : Nat) (hps : [.graft] ⊆ ps) : Dev.Keeps ps a₀ (Dev.bootTrunk b d k) ↔ Dev.Keeps ps a₀ d :=
  Dev.Keeps.drop (Dev.bootTrunk_keep d b k) hps
theorem Dev.bootRepair_keep (d : Dev)  : Dev.Keeps [.dram, .graft] d (Dev.bootRepair d) := by
  have hc : ∀ (b : List Byte) (a : Dev) (c : Nat), Dev.Keeps [.dram, .graft] a (Dev.bootChan b a c) := by
    intro b a c; unfold Dev.bootChan; extract_lets o d1 d2
    have h1 : Dev.Keeps [.dram, .graft] a d1 := (Dev.Keeps.foldl (fun b x => by dsimp only; split <;> simp) _ _).mpr (Dev.Keeps.refl _ _)
    clear_value d1
    have h2 : Dev.Keeps [.dram, .graft] a d2 := by unfold d2; split <;> simpa using h1
    clear_value d2
    split <;> simpa using h2
  have ht : ∀ (b : List Byte) (a : Dev) (c : Nat), Dev.Keeps [.dram, .graft] a (Dev.bootTrunk b a c) := by
    intro b a c; unfold Dev.bootTrunk; dsimp only; split <;> simp
  unfold Dev.bootRepair; split
  · exact Dev.Keeps.refl _ _
  · rename_i n b h; extract_lets d1 d2
    have h1 : Dev.Keeps [.dram, .graft] d d1 := (Dev.Keeps.foldl (hc b) _ _).mpr (Dev.Keeps.refl _ _)
    clear_value d1
    have h2 : Dev.Keeps [.dram, .graft] d d2 := (Dev.Keeps.foldl (ht b) _ _).mpr h1
    clear_value d2
    rw [Dev.modGraft_keeps _ _ _ _ (by simp)]; exact h2
@[simp ↓] theorem Dev.bootRepair_keeps (ps : List Part) (a₀ d : Dev)  (hps : [.dram, .graft] ⊆ ps) : Dev.Keeps ps a₀ (Dev.bootRepair d) ↔ Dev.Keeps ps a₀ d :=
  Dev.Keeps.drop (Dev.bootRepair_keep d ) hps
theorem Dev.bootGrafts_keep (d : Dev) (f : Fuses) : Dev.Keeps [.dram, .graft] d (Dev.bootGrafts d f) := by unfold Dev.bootGrafts; repeat' (first | simp | refine (Dev.Keeps.foldl (fun b x => ?_) _ _).mpr ?_ | split)
@[simp ↓] theorem Dev.bootGrafts_keeps (ps : List Part) (a₀ d : Dev) (f : Fuses) (hps : [.dram, .graft] ⊆ ps) : Dev.Keeps ps a₀ (Dev.bootGrafts d f) ↔ Dev.Keeps ps a₀ d :=
  Dev.Keeps.drop (Dev.bootGrafts_keep d f) hps
theorem Dev.bootWear_keep (d : Dev)  : Dev.Keeps [.graft] d (Dev.bootWear d) := by unfold Dev.bootWear; repeat' (first | simp | refine (Dev.Keeps.foldl (fun b x => ?_) _ _).mpr ?_ | split)
@[simp ↓] theorem Dev.bootWear_keeps (ps : List Part) (a₀ d : Dev)  (hps : [.graft] ⊆ ps) : Dev.Keeps ps a₀ (Dev.bootWear d) ↔ Dev.Keeps ps a₀ d :=
  Dev.Keeps.drop (Dev.bootWear_keep d ) hps
theorem Dev.listPost_keep (d : Dev)  : Dev.Keeps [.mbox, .txn, .boot, .csr, .ctr] d (Dev.listPost d) := by unfold Dev.listPost; repeat' (first | simp | refine (Dev.Keeps.foldl (fun b x => ?_) _ _).mpr ?_ | split)
@[simp ↓] theorem Dev.listPost_keeps (ps : List Part) (a₀ d : Dev)  (hps : [.mbox, .txn, .boot, .csr, .ctr] ⊆ ps) : Dev.Keeps ps a₀ (Dev.listPost d) ↔ Dev.Keeps ps a₀ d :=
  Dev.Keeps.drop (Dev.listPost_keep d ) hps
theorem Dev.dramUp_keep (d : Dev)  : Dev.Keeps [.dram] d (Dev.dramUp d) := by unfold Dev.dramUp; repeat' (first | simp | refine (Dev.Keeps.foldl (fun b x => ?_) _ _).mpr ?_ | split)
@[simp ↓] theorem Dev.dramUp_keeps (ps : List Part) (a₀ d : Dev)  (hps : [.dram] ⊆ ps) : Dev.Keeps ps a₀ (Dev.dramUp d) ↔ Dev.Keeps ps a₀ d :=
  Dev.Keeps.drop (Dev.dramUp_keep d ) hps
end Sys2Proof.Machine
end

