-- ==== Sys2Proof/Laws/Mem.lean ====
section
/-!
SUPPORT. Every operation on storage keeps the canonical form of memory, and what a store changes reads back.
-/
namespace Sys2Proof.Machine

theorem Memory.wf_iff (m : MemU) : Memory.wf m = true ↔
    tabWf (fun _ => (0 : Byte)) m.bytes = true ∧ tabWf (fun _ => false) m.blkValid = true ∧ tabWf (fun _ => false) m.wordValid = true ∧
    tabWf (fun _ => 0) m.dErr = true ∧ tabWf (fun _ => 0) m.sErr = true ∧ tabWf (fun _ => 0) m.badLink = true ∧
    tabWf (fun _ => 0) m.evac = true := by
  simp only [Memory.wf, Bool.and_eq_true, and_assoc]

/-- Memory is well formed after, if it was before: the form in which the lemmas below compose. -/
def Dev.MemOk (a b : Dev) : Prop := Memory.wf a.mem = true → Memory.wf b.mem = true

theorem Dev.MemOk.refl (a : Dev) : Dev.MemOk a a := id
theorem Dev.MemOk.trans {a b c : Dev} (h : Dev.MemOk a b) (k : Dev.MemOk b c) : Dev.MemOk a c := fun x => k (h x)

/-- An operation that does not touch memory keeps its form. -/
theorem Dev.MemOk.of_keeps {ps : List Part} {a b c : Dev} (h : Dev.MemOk a b) (k : Dev.Keeps ps b c) (hp : .mem ∉ ps) : Dev.MemOk a c := by
  have e : c.mem = b.mem := k .mem hp
  intro x; rw [e]; exact h x

theorem Dev.MemOk.modMem {a b : Dev} {f : MemU → MemU} (h : Dev.MemOk a b) (k : ∀ m, Memory.wf m = true → Memory.wf (f m) = true) :
    Dev.MemOk a (b.modMem f) := fun x => k _ (h x)

theorem Dev.MemOk.foldl {β : Type} {a : Dev} {f : Dev → β → Dev} (h : ∀ d x, Dev.MemOk d (f d x)) :
    ∀ (l : List β) (d : Dev), Dev.MemOk a d → Dev.MemOk a (l.foldl f d)
  | [], _, k => k
  | x :: l, d, k => Dev.MemOk.foldl h l (f d x) (k.trans (h d x))

theorem Dev.MemOk.foldl_p {β γ : Type} {a : Dev} (p : γ → Dev) {f : γ → β → γ} (h : ∀ s x, Dev.MemOk (p s) (p (f s x))) :
    ∀ (l : List β) (s : γ), Dev.MemOk a (p s) → Dev.MemOk a (p (l.foldl f s))
  | [], _, k => k
  | x :: l, s, k => Dev.MemOk.foldl_p p h l (f s x) (k.trans (h s x))

/-! ### Changes of storage -/

/-- Storing bytes keeps the canonical form. -/
theorem MemU.put_wf (m : MemU) (p : Nat) (bs : List Byte) (h : Memory.wf m = true) : Memory.wf (m.put p bs) = true := by
  rw [Memory.wf_iff] at h ⊢
  exact ⟨tabWf_foldl _ _ _ _ h.1, h.2⟩

/-- Clearing storage keeps the canonical form. -/
theorem MemU.erase_wf (m : MemU) (p n : Nat) (h : Memory.wf m = true) : Memory.wf (m.erase p n) = true := by
  rw [Memory.wf_iff] at h ⊢
  exact ⟨tabWf_filter _ _ h.1, h.2.1, h.2.2.1, tabWf_filter _ _ h.2.2.2.1, tabWf_filter _ _ h.2.2.2.2.1, h.2.2.2.2.2⟩

theorem MemU.dErr_wf (m : MemU) (k e : Nat) (h : Memory.wf m = true) : Memory.wf { m with dErr := tabSet (fun _ => 0) m.dErr k e } = true := by
  rw [Memory.wf_iff] at h ⊢
  exact ⟨h.1, h.2.1, h.2.2.1, tabWf_tabSet _ _ _ h.2.2.2.1, h.2.2.2.2⟩
theorem MemU.sErr_wf (m : MemU) (k e : Nat) (h : Memory.wf m = true) : Memory.wf { m with sErr := tabSet (fun _ => 0) m.sErr k e } = true := by
  rw [Memory.wf_iff] at h ⊢
  exact ⟨h.1, h.2.1, h.2.2.1, h.2.2.2.1, tabWf_tabSet _ _ _ h.2.2.2.2.1, h.2.2.2.2.2⟩
theorem MemU.badLink_wf (m : MemU) (k e : Nat) (h : Memory.wf m = true) :
    Memory.wf { m with badLink := tabSet (fun _ => 0) m.badLink k e } = true := by
  rw [Memory.wf_iff] at h ⊢
  exact ⟨h.1, h.2.1, h.2.2.1, h.2.2.2.1, h.2.2.2.2.1, tabWf_tabSet _ _ _ h.2.2.2.2.2.1, h.2.2.2.2.2.2⟩
theorem MemU.evac_wf (m : MemU) (k e : Nat) (h : Memory.wf m = true) : Memory.wf { m with evac := tabSet (fun _ => 0) m.evac k e } = true := by
  rw [Memory.wf_iff] at h ⊢
  exact ⟨h.1, h.2.1, h.2.2.1, h.2.2.2.1, h.2.2.2.2.1, h.2.2.2.2.2.1, tabWf_tabSet _ _ _ h.2.2.2.2.2.2⟩
theorem MemU.wordValid_wf (m : MemU) (k : Nat) (v : Bool) (h : Memory.wf m = true) :
    Memory.wf { m with wordValid := tabSet (fun _ => false) m.wordValid k v } = true := by
  rw [Memory.wf_iff] at h ⊢
  exact ⟨h.1, h.2.1, tabWf_tabSet _ _ _ h.2.2.1, h.2.2.2⟩
theorem MemU.blkValid_wf (m : MemU) (k : Nat) (v : Bool) (h : Memory.wf m = true) :
    Memory.wf { m with blkValid := tabSet (fun _ => false) m.blkValid k v } = true := by
  rw [Memory.wf_iff] at h ⊢
  exact ⟨h.1, tabWf_tabSet _ _ _ h.2.1, h.2.2⟩
/-- The lists beside the tables take no part in the form. -/
theorem MemU.lists_wf (m : MemU) (fs : List Fill) (p l : List Nat) (h : Memory.wf m = true) :
    Memory.wf { m with fills := fs, poison := p, lost := l } = true := h

/-! ### Operations on storage -/

theorem Dev.injDone_mem (d : Dev) : d.injDone.mem = d.mem := (Dev.injDone_keep d) .mem (by simp)

theorem Dev.writeBack_wf (d : Dev) (p q e : Nat) : Dev.MemOk d (d.writeBack p q e) := by
  intro h
  unfold Dev.writeBack
  extract_lets c d1
  have h1 : Memory.wf d1.mem = true := MemU.dErr_wf _ _ _ h
  split
  · exact h
  · split
    · rw [Dev.injDone_mem]; exact MemU.dErr_wf _ _ _ h1
    · exact h1

theorem Dev.fillMark_wf (d : Dev) (blk i tc k : Nat) : Dev.MemOk d (d.fillMark blk i tc k) := by
  intro h
  unfold Dev.fillMark
  extract_lets f m
  split
  · exact MemU.blkValid_wf _ _ _ h
  · exact h

theorem Dev.writeUnit_wf (d : Dev) (p : Nat) (bs : List Byte) (tc k : Nat) : Dev.MemOk d (d.writeUnit p bs tc k).1 := by
  intro h
  unfold Dev.writeUnit
  extract_lets q c poisoned valid put d0
  have hp : ∀ (x : Dev) (e : Nat), Memory.wf x.mem = true → Memory.wf (put x e).mem = true := fun x e hx =>
    MemU.dErr_wf (x.mem.put q bs) _ _ (MemU.put_wf _ _ _ hx)
  have h0 : Memory.wf d0.mem = true := by
    unfold d0; split
    · exact MemU.erase_wf _ _ _ h
    · exact h
  clear_value put d0
  split
  · exact h
  split
  · split
    · exact (congrArg Memory.wf (Dev.injDone_mem _)).trans (hp _ _ h)
    · exact hp _ _ h
  · exact Dev.fillMark_wf _ _ _ _ _ (hp _ _ h0)

theorem Dev.readSByte_wf (d : Dev) (a src : Nat) (k : Option Nat) : Dev.MemOk d (d.readSByte a src k).2.2 := by
  intro h
  unfold Dev.readSByte
  split
  · exact h
  extract_lets b clean
  split
  · exact h
  · refine Dev.MemOk.of_keeps (ps := [.ctr, .fault, .mbox, .telem, .csr, .ecc]) (a := d) (b := clean d) (fun _ => MemU.sErr_wf _ _ _ h) (by simp) (by simp) h
  · refine Dev.MemOk.of_keeps (ps := [.ctr, .fault, .mbox, .telem, .csr, .ecc]) (Dev.MemOk.refl d) (by simp) (by simp) h
  · dsimp only
    split
    · refine Dev.MemOk.of_keeps (ps := [.ctr, .fault, .mbox, .telem, .csr, .ecc, .free]) (Dev.MemOk.refl d) (by simp) (by simp) h
    · refine Dev.MemOk.of_keeps (ps := [.ctr, .fault, .mbox, .telem, .csr, .ecc, .free]) (Dev.MemOk.refl d) (by simp) (by simp) h

theorem Dev.readSram_wf (d : Dev) (a n src : Nat) (k : Option Nat) : Dev.MemOk d (d.readSram a n src k).2.2 := by
  unfold Dev.readSram
  have hr : ∀ (l : List Nat) (x : List Byte × Bool × Dev), Dev.MemOk d x.2.2 → Dev.MemOk d (l.foldl (fun (acc : List Byte × Bool × Dev) i =>
      let (b, bad, d') := acc.2.2.readSByte (a + i) src k
      (acc.1 ++ [b], acc.2.1 || bad, d')) x).2.2 :=
    Dev.MemOk.foldl_p (γ := List Byte × Bool × Dev) (fun x => x.2.2) (fun x i => Dev.readSByte_wf x.2.2 (a + i) src k)
  extract_lets r
  have h : Dev.MemOk d r.2.2 := hr (List.range n) ([], false, d) (Dev.MemOk.refl d)
  clear_value r
  split <;> exact h

/-- An injection that a write of SRAM words takes keeps the form (R254). -/
theorem Dev.injWritten_wf (d : Dev) (ws : List Nat) (hit : Nat → Bool) : Dev.MemOk d (d.injWritten ws hit) := by
  intro h
  unfold Dev.injWritten
  split
  · exact h
  · extract_lets t m e
    split
    · rw [Dev.injDone_mem]; exact MemU.sErr_wf _ _ _ h
    · rw [Dev.injDone_mem]; exact h

theorem Dev.writeSram_wf (d : Dev) (a : Nat) (bs : List (Nat × Byte)) : Dev.MemOk d (d.writeSram a bs) := by
  unfold Dev.writeSram
  extract_lets words fresh d1 d2
  have h1 : Dev.MemOk d d1 := Dev.MemOk.foldl (fun x w => Dev.MemOk.modMem (Dev.MemOk.refl x)
    (fun m hm => MemU.wordValid_wf (m.erase (8 * w) 8) _ _ (MemU.erase_wf _ _ _ hm))) _ _ (Dev.MemOk.refl d)
  have h2 : Dev.MemOk d d2 := Dev.MemOk.foldl (fun x w => Dev.MemOk.modMem (Dev.MemOk.refl x)
    (fun m hm => MemU.sErr_wf (m.put (a + w.1) [w.2]) _ _ (MemU.put_wf _ _ _ hm))) _ _ h1
  exact h2.trans (Dev.injWritten_wf _ _ _)

/-- A write of the head and tail store keeps the form. -/
theorem Dev.storeWritten_wf (d : Dev) (a n : Nat) : Dev.MemOk d (d.storeWritten a n) := by
  refine Dev.MemOk.trans (b := d.modMem _) (Dev.MemOk.modMem (Dev.MemOk.refl d) (fun m hm => ?_)) (Dev.injWritten_wf _ _ _)
  rw [Memory.wf_iff] at hm ⊢
  exact ⟨hm.1, hm.2.1, hm.2.2.1, hm.2.2.2.1, tabWf_filter _ _ hm.2.2.2.2.1, hm.2.2.2.2.2⟩

/-- A channel's failure adds blocks to the list of the lost and leaves the tables of storage alone. -/
theorem Dev.failChannel_wf (d : Dev) (c k : Nat) : Dev.MemOk d (d.failChannel c k) := by
  intro h
  unfold Dev.failChannel
  split
  · exact h
  extract_lets lost d1 d2 d3 d4
  have h2 : Dev.MemOk d d2 := Dev.MemOk.of_keeps (ps := [.qm, .dram, .graft]) (Dev.MemOk.refl d) (by unfold d2 d1; simp) (by simp)
  have h3 : Dev.MemOk d d3 := h2.modMem (fun m hm => hm)
  clear_value d3
  have h4 : Dev.MemOk d d4 := h3.of_keeps (ps := [.graft]) (by unfold d4; simp) (by simp)
  clear_value d4
  exact h4.of_keeps (ps := [.fault, .mbox, .telem, .graft, .csr, .ctr]) (by simp) (by simp) h

theorem Dev.roleFailed_wf (d : Dev) (c l : Nat) : Dev.MemOk d (d.roleFailed c l) := by
  unfold Dev.roleFailed
  split
  · exact Dev.MemOk.of_keeps (Dev.MemOk.refl d) (Dev.graftTo_keep _ _ _ _) (by simp)
  · split
    · split
      · exact Dev.MemOk.of_keeps (Dev.MemOk.refl d) (Dev.markPin_keep _ _ _) (by simp)
      · exact Dev.MemOk.refl d
    · exact Dev.failChannel_wf _ _ _

theorem Dev.linkFailed_wf (d : Dev) (c l : Nat) (b : Bool) : Dev.MemOk d (d.linkFailed c l b) := by
  unfold Dev.linkFailed
  split
  · exact Dev.MemOk.refl d
  split
  · extract_lets s
    split
    · exact Dev.MemOk.of_keeps (ps := [.graft]) (Dev.MemOk.refl d) (by simp) (by simp)
    · split
      · exact Dev.MemOk.refl d
      · exact Dev.roleFailed_wf _ _ _
  · split
    · exact Dev.MemOk.refl d
    · exact Dev.roleFailed_wf _ _ _

theorem Dev.pinCount_wf (d : Dev) (c p u : Nat) : Dev.MemOk d (d.pinCount c p u).1 := by
  unfold Dev.pinCount
  extract_lets d1 k l l' d2
  have h1 : Dev.MemOk d d1 := Dev.MemOk.of_keeps (Dev.MemOk.refl d) (Dev.markRoll_keep _ _) (by simp)
  have h2 : Dev.MemOk d d2 := h1
  clear_value d1
  split
  · exact h1
  split
  · exact Dev.MemOk.trans (b := d2.modEcc _) h2 (Dev.linkFailed_wf _ _ _ _)
  · exact h2

theorem Dev.rowCopy_wf (d : Dev) (c b r : Nat) : Dev.MemOk d (d.rowCopy c b r) := by
  unfold Dev.rowCopy
  refine Dev.MemOk.foldl (fun a i => ?_) _ _ (Dev.MemOk.refl d)
  extract_lets q clean bad
  have hc : ∀ x : Dev, Dev.MemOk x (clean x) := fun x => Dev.MemOk.modMem (Dev.MemOk.refl x) (fun m hm => MemU.dErr_wf _ _ _ hm)
  have hb : ∀ x : Dev, Dev.MemOk x (bad x) := fun x => by
    unfold bad
    extract_lets a1
    have h1 : Dev.MemOk x a1 := Dev.MemOk.of_keeps (Dev.MemOk.refl x) (Dev.dramBad_keep _ _ _ _ _ _) (by simp)
    clear_value a1
    split
    · exact h1
    · exact (h1.trans (hc a1)).modMem (fun m hm => MemU.lists_wf _ _ _ _ (MemU.put_wf _ _ _ hm))
  clear_value clean bad
  split
  · exact Dev.MemOk.refl a
  split
  · exact hb a
  · exact (hc a).of_keeps (ps := [.fault, .mbox, .telem, .ecc, .csr, .ctr]) (by simp) (by simp)
  · exact hc a
  · split
    rename_i v a1 e
    have h1 : Dev.MemOk a a1 := by
      have : a1 = a.draw.2 := by rw [e]
      rw [this]; exact Dev.MemOk.of_keeps (ps := [.free]) (Dev.MemOk.refl a) (by simp) (by simp)
    split
    · exact h1.trans (hb a1)
    · exact (h1.trans (hc a1)).modMem (fun m hm => MemU.put_wf _ _ _ hm)

theorem Dev.rowGraft_wf (d : Dev) (c b r : Nat) (copy : Dev → Dev) (h : Dev.MemOk d (copy d)) : Dev.MemOk d (d.rowGraft c b r copy) := by
  unfold Dev.rowGraft
  split
  · exact Dev.MemOk.of_keeps (ps := [.fault, .mbox, .telem, .csr, .ctr]) (Dev.MemOk.refl d) (by simp) (by simp)
  · exact Dev.MemOk.of_keeps (ps := [.graft, .ctr]) h (by simp) (by simp)

theorem Dev.draw_wf (d : Dev) : Dev.MemOk d d.draw.2 := id

theorem Dev.readUnitWb_wf (d : Dev) (p src : Nat) (k : Option Nat) (wb : Bool) : Dev.MemOk d (d.readUnitWb p src k wb).2.2 := by
  have hbad : ∀ (x : Dev) (q a e : Nat), Dev.MemOk x (x.dramBad q src a e k) := fun x q a e =>
    Dev.MemOk.of_keeps (Dev.MemOk.refl x) (Dev.dramBad_keep _ _ _ _ _ _) (by simp)
  unfold Dev.readUnitWb
  extract_lets q c e bs d1 un d2 pl
  split
  · exact hbad _ _ _ _
  split
  · exact hbad _ _ _ _
  split
  · split
    · split <;> exact Dev.MemOk.refl d
    · exact Dev.MemOk.refl d
  split
  · exact Dev.MemOk.refl d
  · exact hbad _ _ _ _
  · have h1 : Dev.MemOk d d1 := Dev.MemOk.of_keeps (ps := [.fault, .mbox, .telem, .ecc, .csr, .ctr]) (Dev.MemOk.refl d) (by unfold d1; simp) (by simp)
    have h2 : Dev.MemOk d d2 := by
      unfold d2; split
      · exact h1.trans (Dev.writeBack_wf _ _ _ _)
      · exact h1
    clear_value d2
    split
    rename_i d3 changed h3
    have h3' : Dev.MemOk d d3 := by
      have := Dev.MemOk.foldl_p (γ := Dev × Bool) (a := d) (fun x => x.1) (f := fun acc i =>
        let r := acc.1.pinCount c i (placeUnit q)
        (r.1, acc.2 || r.2)) (fun x i => Dev.pinCount_wf _ _ _ _) un (d2, false) h2
      rw [h3] at this; exact this
    extract_lets d4
    have h4 : Dev.MemOk d d4 := by
      unfold d4; split
      · exact Dev.MemOk.of_keeps h3' (Dev.elogWrite_keep _ _) (by simp)
      · exact h3'
    clear_value d4
    split
    rename_i d5 full h5
    have h5' : Dev.MemOk d d5 := by
      have := Dev.MemOk.of_keeps h4 (Dev.rowCount_keep d4 c q) (by simp)
      rw [h5] at this; exact this
    extract_lets d6
    show Dev.MemOk d d6
    unfold d6; split
    · exact h5'.trans (Dev.rowGraft_wf _ _ _ _ _ (Dev.rowCopy_wf _ _ _ _))
    · exact h5'
  · split
    rename_i v d1 h1
    have h1' : Dev.MemOk d d1 := by
      have := Dev.draw_wf d
      rw [h1] at this; exact this
    split
    · exact h1'.trans (hbad _ _ _ _)
    · exact h1'

theorem Dev.readUnit_wf (d : Dev) (p src : Nat) (k : Option Nat) : Dev.MemOk d (d.readUnit p src k).2.2 := Dev.readUnitWb_wf d p src k true

/-- A write of a whole unit after what was queued for it keeps the form (R225). -/
theorem Dev.writeNow_wf (d : Dev) (p : Nat) (bs : List Byte) (tc c : Nat) : Dev.MemOk d (d.writeNow p bs tc c) :=
  (Dev.MemOk.of_keeps (Dev.MemOk.refl d) (Dev.supersede_keep d p) (by simp)).trans (Dev.writeUnit_wf _ _ _ _ _)

/-- A copy of a unit keeps the form (R251). -/
theorem Dev.copyUnit_wf (d : Dev) (src dst : Nat) : Dev.MemOk d (d.copyUnit src dst).1 := by
  unfold Dev.copyUnit
  split
  rename_i bs bad d0 h0
  have h0' : Dev.MemOk d d0 := by
    have := congrArg (fun x => x.2.2) h0
    simp only at this; rw [← this]
    split
    · exact Dev.MemOk.refl d
    · exact Dev.readUnit_wf d src 3 none
  extract_lets d1
  have h1 : Dev.MemOk d d1 := h0'.of_keeps (Dev.supersede_keep d0 dst) (by simp)
  clear_value d1
  split
  · split
    · exact h1
    · split
      rename_i d2 ok h2
      have h2' : Dev.MemOk d1 d2 := by
        have := Dev.writeUnit_wf d1 dst (List.replicate 64 0) 0 (2 ^ 64)
        rw [h2] at this; exact this
      exact (h1.trans h2').modMem (fun m hm => hm)
  · exact h1.trans (Dev.writeUnit_wf _ _ _ _ _)

/-! ### Read after write -/

theorem tabGet_foldl_byte (p j : Nat) : ∀ (bs : List Byte) (o : Nat) (t : Tab Byte), j < p + o →
    tabGet (fun _ => (0 : Byte)) ((bs.zipIdx o).foldl (fun t x => tabSet (fun _ => (0 : Byte)) t (p + x.2) x.1) t) j =
      tabGet (fun _ => (0 : Byte)) t j
  | [], _, _, _ => rfl
  | b :: bs, o, t, h => by
    simp only [List.zipIdx_cons, List.foldl_cons]
    rw [tabGet_foldl_byte p j bs (o + 1) _ (by omega), tabGet_tabSet_ne _ _ _ (by omega)]

/-- A byte stored reads as what was stored. -/
theorem MemU.put_byte (m : MemU) (p : Nat) (bs : List Byte) (i : Nat) (h : i < bs.length) :
    tabGet (fun _ => (0 : Byte)) (m.put p bs).bytes (p + i) = bs[i] := by
  have : ∀ (bs : List Byte) (o : Nat) (t : Tab Byte) (i : Nat) (h : i < bs.length),
      tabGet (fun _ => (0 : Byte)) ((bs.zipIdx o).foldl (fun t x => tabSet (fun _ => (0 : Byte)) t (p + x.2) x.1) t) (p + o + i) = bs[i] := by
    intro bs
    induction bs with
    | nil => intro o t i h; cases h
    | cons b bs ih =>
      intro o t i h
      simp only [List.zipIdx_cons, List.foldl_cons]
      cases i with
      | zero =>
        rw [Nat.add_zero, tabGet_foldl_byte p _ bs (o + 1) _ (by omega)]
        simp
      | succ i =>
        have e : p + o + (i + 1) = p + (o + 1) + i := by omega
        rw [e, ih (o + 1) _ i (by simpa using h)]
        simp
  exact this bs 0 m.bytes i h

/-- A byte outside those stored reads as before. -/
theorem MemU.put_byte_ne (m : MemU) (p : Nat) (bs : List Byte) (j : Nat) (h : j < p ∨ p + bs.length ≤ j) :
    tabGet (fun _ => (0 : Byte)) (m.put p bs).bytes j = tabGet (fun _ => (0 : Byte)) m.bytes j := by
  have : ∀ (bs : List Byte) (o : Nat) (t : Tab Byte), j < p + o ∨ p + o + bs.length ≤ j →
      tabGet (fun _ => (0 : Byte)) ((bs.zipIdx o).foldl (fun t x => tabSet (fun _ => (0 : Byte)) t (p + x.2) x.1) t) j =
        tabGet (fun _ => (0 : Byte)) t j := by
    intro bs
    induction bs with
    | nil => intro o t h; rfl
    | cons b bs ih =>
      intro o t h
      simp only [List.length_cons] at h
      simp only [List.zipIdx_cons, List.foldl_cons]
      rw [ih (o + 1) _ (by omega), tabGet_tabSet_ne _ _ _ (by omega)]
  exact this bs 0 m.bytes h

end Sys2Proof.Machine
end

