-- ==== Sys2Proof/Laws/Raise.lean ====
section
/-!
SUPPORT. What a fault raise or an event can do to registers, counters, other sources and slot pairs (`Dev.Noted`), and
what a raise leaves in its source (`Dev.Raised`).
-/
namespace Sys2Proof.Machine

theorem Dev.Noted.refl (rs cs ns : List Nat) (a : Dev) : Dev.Noted rs cs ns a a :=
  ⟨fun _ _ _ => rfl, fun _ _ _ => rfl, fun _ _ _ _ => rfl, fun _ _ => rfl⟩

theorem Dev.Noted.trans {rs cs ns : List Nat} {a b c : Dev} (h : Dev.Noted rs cs ns a b) (k : Dev.Noted rs cs ns b c) :
    Dev.Noted rs cs ns a c :=
  ⟨fun i e m => (k.1 i e m).trans (h.1 i e m), fun i e m => (k.2.1 i e m).trans (h.2.1 i e m),
   fun n m e f => (k.2.2.1 n m e f).trans (h.2.2.1 n m e f), fun o i => (k.2.2.2 o i).trans (h.2.2.2 o i)⟩

theorem Dev.Noted.mono {rs cs ns rs' cs' ns' : List Nat} {a b : Dev} (h : Dev.Noted rs cs ns a b) (hr : rs ⊆ rs')
    (hc : cs ⊆ cs') (hn : ns ⊆ ns') : Dev.Noted rs' cs' ns' a b :=
  ⟨fun i e m => h.1 i e (fun x => m (hr x)), fun i e m => h.2.1 i e (fun x => m (hc x)),
   fun n m e f => h.2.2.1 n (fun x => m (hn x)) e f, h.2.2.2⟩

/-- A change of other parts leaves all that `Noted` speaks of. -/
theorem Dev.Noted.of_keeps {rs cs ns : List Nat} {qs : List Part} {a b : Dev} (h : Dev.Keeps qs a b) (h1 : .csr ∉ qs)
    (h2 : .ctr ∉ qs) (h3 : .fault ∉ qs) (h4 : .mbox ∉ qs) : Dev.Noted rs cs ns a b := by
  have e1 : b.csr = a.csr := (h _ h1 : Part.csr.same a b).1
  have e2 : b.ctr = a.ctr := h _ h2
  have e3 : b.fault = a.fault := h _ h3
  have e4 : b.mbox = a.mbox := h _ h4
  exact ⟨fun k _ _ => by rw [e1], fun k _ _ => by rw [e2], fun n _ _ _ => by unfold Dev.src; rw [e3],
    fun o i => by unfold Dev.pair; rw [e4]⟩

theorem Dev.Noted.of_eq {rs cs ns : List Nat} {a b : Dev} (e1 : b.csr = a.csr) (e2 : b.ctr = a.ctr) (e3 : b.fault.src = a.fault.src)
    (e4 : b.mbox.pair = a.mbox.pair) : Dev.Noted rs cs ns a b :=
  ⟨fun k _ _ => by rw [e1], fun k _ _ => by rw [e2], fun n _ _ _ => by unfold Dev.src; rw [e3],
    fun o i => by unfold Dev.pair; rw [e4]⟩

theorem Dev.Noted.setCsr {rs cs ns : List Nat} (a : Dev) (i b o : Nat) (v : Word)
    (h : regKey i b o ∈ rs ∨ eventReg (regKey i b o) = true) : Dev.Noted rs cs ns a (a.setCsr i b o v) :=
  ⟨fun k e m => tabGet_tabSet_ne _ _ _ (fun x => by subst x; rcases h with h | h; exact m h; simp [h] at e),
   fun _ _ _ => rfl, fun _ _ _ _ => rfl, fun _ _ => rfl⟩

theorem Dev.Noted.orCsr {rs cs ns : List Nat} (a : Dev) (i b o m : Nat)
    (h : regKey i b o ∈ rs ∨ eventReg (regKey i b o) = true) : Dev.Noted rs cs ns a (a.orCsr i b o m) :=
  Dev.Noted.setCsr a i b o _ h

theorem Dev.Noted.bump {rs cs ns : List Nat} (a : Dev) (i b o n : Nat)
    (h : regKey i b o ∈ cs ∨ eventCtr (regKey i b o) = true) : Dev.Noted rs cs ns a (a.bump i b o n) :=
  ⟨fun _ _ _ => rfl,
   fun k e m => tabGet_tabMod_ne (fun _ => 0) a.ctr (k := regKey i b o) (j := k) (fun c => (c + n) % 2 ^ 64) (fun x => by
     subst x; rcases h with h | h; exact m h; simp [h] at e),
   fun _ _ _ _ => rfl, fun _ _ => rfl⟩

theorem Dev.Noted.modSrc {rs cs ns : List Nat} (a : Dev) (n : Nat) (f : Source → Source) (h : n ∈ ns ∨ n = 2 ∨ n = 162) :
    Dev.Noted rs cs ns a (a.modSrc n f) :=
  ⟨fun _ _ _ => rfl, fun _ _ _ => rfl,
   fun k m e f => tabGet_tabMod_ne _ _ _ (fun x => by subst x; rcases h with h | h | h; exact m h; exact e h; exact f h),
   fun _ _ => rfl⟩

theorem eventReg_mbox (o : Nat) : eventReg (regKey o bMbox 0x114) = true := by simp [eventReg, regKey, bMbox, bFault]; omega
theorem eventCtr_mbox (o x : Nat) (h : x = 0x508 ∨ x = 0x510 ∨ x = 0x518) : eventCtr (regKey o bMbox x) = true := by
  rcases h with rfl | rfl | rfl <;> simp [eventCtr, regKey, bMbox, bFault] <;> omega

theorem Dev.Noted.arb {rs cs ns : List Nat} (d : Dev) (u i w x : Nat) : Dev.Noted rs cs ns d (d.arb u i w x) :=
  Dev.Noted.of_keeps (Dev.arb_keep d u i w x) (by decide) (by decide) (by decide) (by decide)

theorem Dev.Noted.queueEvent {rs cs ns : List Nat} (d : Dev) (o ty : Nat) (b : List Byte) :
    Dev.Noted rs cs ns d (d.queueEvent o ty b).1 := by
  have hm : ∀ (a : Dev) (f : Mbox → Mbox), Dev.Noted rs cs ns a (a.modMb o f) := fun a f => Dev.Noted.of_eq rfl rfl rfl rfl
  have hb : ∀ (a : Dev) (x : Nat), x = 0x508 ∨ x = 0x510 ∨ x = 0x518 → Dev.Noted rs cs ns a (a.bump 0 bMbox x 1) :=
    fun a x h => Dev.Noted.bump a 0 bMbox x 1 (.inr (eventCtr_mbox 0 x h))
  unfold Dev.queueEvent
  split
  · exact Dev.Noted.refl _ _ _ _
  split
  · exact hb _ _ (by simp)
  extract_lets m
  split
  · exact ((hm _ _).trans (hb _ _ (by simp))).trans (Dev.Noted.orCsr _ _ _ _ _ (.inr (eventReg_mbox _)))
  · exact ((Dev.Noted.arb _ _ _ _ _).trans (hm _ _)).trans (hb _ _ (by simp))

theorem Dev.Noted.foldl {β : Type} {rs cs ns : List Nat} {f : Dev → β → Dev} (h : ∀ b x, Dev.Noted rs cs ns b (f b x)) :
    ∀ (l : List β) (a : Dev), Dev.Noted rs cs ns a (l.foldl f a)
  | [], a => Dev.Noted.refl _ _ _ a
  | x :: l, a => (h a x).trans (Dev.Noted.foldl h l _)

theorem Dev.Noted.foldl_fst {β γ : Type} {rs cs ns : List Nat} {f : Dev × γ → β → Dev × γ} (h : ∀ b x, Dev.Noted rs cs ns b.1 (f b x).1) :
    ∀ (l : List β) (a : Dev × γ), Dev.Noted rs cs ns a.1 (l.foldl f a).1
  | [], a => Dev.Noted.refl _ _ _ a.1
  | x :: l, a => (h a x).trans (Dev.Noted.foldl_fst h l _)

theorem Dev.Noted.postFault {rs cs ns : List Nat} (d : Dev) (n : Nat) (x : Detail) : Dev.Noted rs cs ns d (d.postFault n x).1 :=
  Dev.Noted.foldl_fst (γ := List Nat) (fun _ _ => Dev.Noted.queueEvent _ _ _ _) _ (d, [])

theorem Dev.Noted.logFault {rs cs ns : List Nat} (d : Dev) (n t : Nat) (x : Detail) : Dev.Noted rs cs ns d (d.logFault n t x).1 := by
  unfold Dev.logFault; dsimp only; split <;> exact Dev.Noted.of_eq rfl rfl rfl rfl
theorem Dev.Noted.pinReact {rs cs ns : List Nat} (d : Dev) (n : Nat) : Dev.Noted rs cs ns d (d.pinReact n) := by
  unfold Dev.pinReact; split <;> exact Dev.Noted.of_eq rfl rfl rfl rfl
theorem Dev.Noted.tele {rs cs ns : List Nat} (d : Dev) (k : Nat) (b : List Byte) : Dev.Noted rs cs ns d (d.tele k b) :=
  Dev.Noted.of_eq rfl rfl rfl rfl
theorem Dev.Noted.faultTie {rs cs ns : List Nat} (d : Dev) (n : Nat) : Dev.Noted rs cs ns d (d.faultTie n) := by
  unfold Dev.faultTie; dsimp only; repeat' split
  all_goals exact Dev.Noted.of_eq rfl rfl rfl rfl

/-- What holds of each small change of a raise holds of the raise: `R` is any order on devices, `S` the sources it may touch. -/
theorem Dev.raiseN_rel (R : Dev → Dev → Prop) (S : Nat → Prop) (rf : ∀ d, R d d) (tr : ∀ a b c, R a b → R b c → R a c)
    (s2 : S 2) (s162 : S 162) (htie : ∀ d n, R d (d.faultTie n)) (hsrc : ∀ d n f, S n → R d (d.modSrc n f))
    (hb : ∀ d o n, o = 0x80 ∨ o = 0x90 → R d (d.bump 0 bFault o n)) (ho : ∀ d m, R d (d.orCsr 0 bFault 0x44 m))
    (hn : ∀ d n, R d (d.nmiReact n)) (hp : ∀ d n, R d (d.pinReact n)) (hf : ∀ d n x, R d (d.postFault n x).1)
    (hl : ∀ d n t x, R d (d.logFault n t x).1) :
    ∀ (fuel : Nat) (d : Dev) (n : Nat) (x : Detail), S n → R d (Dev.raiseN fuel d n x)
  | 0, d, _, _, _ => rf d
  | fuel + 1, d0, n, x, sn => by
    have ih := Dev.raiseN_rel R S rf tr s2 s162 htie hsrc hb ho hn hp hf hl fuel
    have fold : ∀ (l : List Nat) (a : Dev), R a (l.foldl (fun a o => Dev.raiseN fuel a 162 { kind := 13, inst := o }) a) := by
      intro l; induction l with
      | nil => exact fun a => rf a
      | cons o l ihl => exact fun a => tr _ _ _ (ih a 162 _ s162) (ihl _)
    unfold Dev.raiseN
    extract_lets d s d1 set gap heldClass suppressed d2 d3 e d4
    have h1 : R d0 d1 := tr _ _ _ (htie _ _) (tr _ _ _ (hsrc _ _ _ sn) (tr _ _ _ (hb _ _ _ (.inl rfl)) (ho _ _)))
    clear_value d1
    split
    · exact h1
    · have h2 : R d0 d2 := by unfold d2; split <;> first | exact tr _ _ _ h1 (hn _ _) | exact h1
      clear_value d2
      have h3 : R d0 d3 := by unfold d3; split <;> first | exact tr _ _ _ h2 (hp _ _) | exact h2
      clear_value d3
      split
      · exact tr _ _ _ h3 (hb _ _ _ (.inr rfl))
      · have h4 : R d0 d4 := tr _ _ _ h3 (hsrc _ _ _ sn)
        clear_value d4
        split
        rename_i d5 dr h
        have h5 : R d0 d5 := by
          have := congrArg Prod.fst h; simp only at this; rw [← this]
          split <;> first | exact tr _ _ _ h4 (hf _ _ _) | exact h4
        clear h
        split
        rename_i d6 ov h
        have h6 : R d0 d6 := by
          have := congrArg Prod.fst h; simp only at this; rw [← this]
          exact tr _ _ _ h5 (hl _ _ _ _)
        clear h
        extract_lets d7
        have h7 : R d0 d7 := by unfold d7; split <;> first | exact tr _ _ _ h6 (ih _ _ _ s2) | exact h6
        clear_value d7
        split
        · exact h7
        · exact tr _ _ _ h7 (fold _ _)

/-- The same for the record of an escalation. -/
theorem Dev.escRecord_rel (R : Dev → Dev → Prop) (rf : ∀ d, R d d) (tr : ∀ a b c, R a b → R b c → R a c)
    (hr : ∀ d n x, n = 2 ∨ n = 162 → R d (Dev.raiseN 4 d n x)) (hb : ∀ d, R d (d.bump 0 bFault 0x88 1))
    (ho : ∀ d m, R d (d.orCsr 0 bFault 0x44 m)) (hf : ∀ d n x, R d (d.postFault n x).1) (hl : ∀ d n t x, R d (d.logFault n t x).1)
    (d : Dev) (n st tk : Nat) : R d (d.escRecord n st tk) := by
  have fold : ∀ (l : List Nat) (a : Dev), R a (l.foldl (fun a o => Dev.raiseN 4 a 162 { kind := 13, inst := o }) a) := by
    intro l; induction l with
    | nil => exact fun a => rf a
    | cons o l ihl => exact fun a => tr _ _ _ (hr a 162 _ (.inr rfl)) (ihl _)
  unfold Dev.escRecord
  extract_lets x
  split
  rename_i d1 dr h
  have h1 : R d d1 := by
    have := congrArg Prod.fst h; simp only at this; rw [← this]
    split <;> first | exact hf _ _ _ | exact rf _
  clear h
  split
  rename_i d2 ov h
  have h2 : R d d2 := by
    have := congrArg Prod.fst h; simp only at this; rw [← this]
    exact tr _ _ _ h1 (hl _ _ _ _)
  clear h
  extract_lets d3 d4
  have h3 : R d d3 := by unfold d3; split <;> first | exact tr _ _ _ h2 (hr _ _ _ (.inl rfl)) | exact h2
  clear_value d3
  exact tr _ _ _ (tr _ _ _ h3 (fold _ _)) (tr _ _ _ (hb _) (ho _ _))

/-- A raise of source `n` touches only what its frame names. -/
theorem Dev.Noted.raiseN {rs cs ns : List Nat} (fuel : Nat) (d : Dev) (n : Nat) (x : Detail) (hn : n ∈ ns ∨ n = 2 ∨ n = 162) :
    Dev.Noted rs cs ns d (Dev.raiseN fuel d n x) :=
  Dev.raiseN_rel (Dev.Noted rs cs ns) (fun n => n ∈ ns ∨ n = 2 ∨ n = 162) (Dev.Noted.refl _ _ _) (fun _ _ _ => Dev.Noted.trans)
    (.inr (.inl rfl)) (.inr (.inr rfl)) Dev.Noted.faultTie (fun d n f h => Dev.Noted.modSrc d n f h)
    (fun d o n h => Dev.Noted.bump d _ _ _ _ (.inr (by rcases h with rfl | rfl <;> decide)))
    (fun d m => Dev.Noted.orCsr d _ _ _ _ (.inr (by decide))) (fun _ _ => Dev.Noted.of_eq rfl rfl rfl rfl)
    Dev.Noted.pinReact Dev.Noted.postFault Dev.Noted.logFault fuel d n x hn

theorem Dev.Noted.escRecord {rs cs ns : List Nat} (d : Dev) (n st tk : Nat) : Dev.Noted rs cs ns d (d.escRecord n st tk) :=
  Dev.escRecord_rel (Dev.Noted rs cs ns) (Dev.Noted.refl _ _ _) (fun _ _ _ => Dev.Noted.trans)
    (fun d n x h => Dev.Noted.raiseN 4 d n x (.inr h)) (fun d => Dev.Noted.bump d _ _ _ _ (.inr (by decide)))
    (fun d m => Dev.Noted.orCsr d _ _ _ _ (.inr (by decide))) Dev.Noted.postFault Dev.Noted.logFault d n st tk

theorem Dev.Noted.raise0 {rs cs ns : List Nat} (d : Dev) (n : Nat) (x : Detail) (hn : n ∈ ns ∨ n = 2 ∨ n = 162) :
    Dev.Noted rs cs ns d (d.raise0 n x) := by
  have h1 : Dev.Noted rs cs ns d (Dev.raiseN 4 d n x) := Dev.Noted.raiseN _ _ _ _ hn
  unfold Dev.raise0; dsimp only
  split
  · exact ((h1.trans (Dev.Noted.escRecord _ _ _ _)).trans (Dev.Noted.modSrc _ n (fun s => { s with esc := none }) hn)).trans
      (Dev.Noted.of_eq rfl rfl rfl rfl)
  · exact h1

theorem Dev.Noted.post {rs cs ns : List Nat} (d : Dev) (o ty : Nat) (b : List Byte) : Dev.Noted rs cs ns d (d.post o ty b) := by
  unfold Dev.post; dsimp only; split
  · exact (Dev.Noted.queueEvent _ _ _ _).trans (Dev.Noted.raise0 _ _ _ (.inr (.inr rfl)))
  · exact Dev.Noted.queueEvent _ _ _ _

theorem Dev.Noted.postAll {rs cs ns : List Nat} (d : Dev) (os : List Nat) (ty : Nat) (b : List Byte) :
    Dev.Noted rs cs ns d (d.postAll os ty b) := Dev.Noted.foldl (fun a o => Dev.Noted.post a o ty b) os d

/-! ### What a raise leaves in its own source -/

/-- Two devices agree on the raise count, the last device time and the detail of source `n`, and on device time. -/
def Dev.SrcEq (n : Nat) (a b : Dev) : Prop :=
  (b.src n).raises = (a.src n).raises ∧ (b.src n).lastDt = (a.src n).lastDt ∧ (b.src n).detail = (a.src n).detail ∧ b.clk = a.clk

theorem Dev.SrcEq.refl (n : Nat) (a : Dev) : Dev.SrcEq n a a := ⟨rfl, rfl, rfl, rfl⟩
theorem Dev.SrcEq.trans {n : Nat} {a b c : Dev} (h : Dev.SrcEq n a b) (k : Dev.SrcEq n b c) : Dev.SrcEq n a c :=
  ⟨k.1.trans h.1, k.2.1.trans h.2.1, k.2.2.1.trans h.2.2.1, k.2.2.2.trans h.2.2.2⟩
theorem Dev.SrcEq.of_eq {n : Nat} {a b : Dev} (h : b.fault.src = a.fault.src) (k : b.clk = a.clk) : Dev.SrcEq n a b := by
  unfold Dev.SrcEq Dev.src; rw [h]; exact ⟨rfl, rfl, rfl, k⟩
/-- What touches no source but FS002 and FS162, nor the clock, leaves the others. -/
theorem Dev.SrcEq.of_noted {n : Nat} {a b : Dev} (h : Dev.Noted [] [] [] a b) (k : b.clk = a.clk) (h2 : n ≠ 2) (h3 : n ≠ 162) :
    Dev.SrcEq n a b := by
  unfold Dev.SrcEq; rw [h.2.2.1 n (by simp) h2 h3]; exact ⟨rfl, rfl, rfl, k⟩
/-- A change of `held`, `esc`, `brst` or `lastPost` alone. -/
theorem Dev.SrcEq.modSrc {n : Nat} (a : Dev) (m : Nat) (f : Source → Source) (h1 : ∀ s, (f s).raises = s.raises)
    (h2 : ∀ s, (f s).lastDt = s.lastDt) (h3 : ∀ s, (f s).detail = s.detail) : Dev.SrcEq n a (a.modSrc m f) := by
  by_cases h : n = m
  · subst h
    have e : (a.modSrc n f).src n = f (a.src n) := tabGet_tabMod_self _ _ _ _
    unfold Dev.SrcEq; rw [e, h1, h2, h3]; exact ⟨rfl, rfl, rfl, rfl⟩
  · have e : (a.modSrc m f).src n = a.src n := tabGet_tabMod_ne _ _ _ h
    unfold Dev.SrcEq; rw [e]; exact ⟨rfl, rfl, rfl, rfl⟩

theorem Dev.Keeps.clk {ps : List Part} {a b : Dev} (h : Dev.Keeps ps a b) (k : Part.clk ∉ ps) : b.clk = a.clk := h _ k
theorem Dev.Keeps.dt {ps : List Part} {a b : Dev} (h : Dev.Keeps ps a b) (k : Part.clk ∉ ps) : b.dt = a.dt := by
  unfold Dev.dt; rw [h.clk k]

/-- Raising any source but FS002 and FS162 counts it, with its device time and detail (R413). -/
theorem Dev.raiseN_raised (fuel : Nat) (d0 : Dev) (n : Nat) (x : Detail) (h2 : n ≠ 2) (h3 : n ≠ 162) :
    Dev.Raised n x d0 (Dev.raiseN (fuel + 1) d0 n x) := by
  have lift : ∀ {a b : Dev}, Dev.Raised n x d0 a → Dev.SrcEq n a b → Dev.Raised n x d0 b := fun h k =>
    ⟨k.1.trans h.1, k.2.1.trans h.2.1, k.2.2.1.trans h.2.2⟩
  have other : ∀ (a : Dev) (m : Nat) (y : Detail), m = 2 ∨ m = 162 → Dev.SrcEq n a (Dev.raiseN fuel a m y) := fun a m y h =>
    Dev.SrcEq.of_noted (Dev.Noted.raiseN _ _ _ _ (.inr h)) ((Dev.raiseN_keep fuel a m y).clk (by decide)) h2 h3
  have fold : ∀ (l : List Nat) (a : Dev), Dev.SrcEq n a (l.foldl (fun a o => Dev.raiseN fuel a 162 { kind := 13, inst := o }) a) := by
    intro l; induction l with
    | nil => exact fun a => Dev.SrcEq.refl n a
    | cons o l ihl => exact fun a => (other a 162 _ (.inr rfl)).trans (ihl _)
  unfold Dev.raiseN
  extract_lets d s d1 set gap heldClass suppressed d2 d3 e d4
  have h0 : Dev.SrcEq n d0 d := Dev.SrcEq.of_noted (Dev.Noted.faultTie _ _) ((Dev.faultTie_keep _ _).clk (by decide)) h2 h3
  have h1 : Dev.Raised n x d0 d1 := by
    have e : (d1.src n) = { d.src n with raises := min ((d.src n).raises + 1) 0xFFFFFFFF, lastDt := d.dt, detail := x } :=
      tabGet_tabMod_self (fun _ => ({} : Source)) d.fault.src n (fun s => { s with
        raises := min ((d.src n).raises + 1) 0xFFFFFFFF, lastDt := d.dt, detail := x })
    unfold Dev.Raised; rw [e]
    refine ⟨?_, ?_, rfl⟩
    · show min ((d.src n).raises + 1) _ = _; rw [h0.1]
    · show d.clk.dt = d0.clk.dt; rw [h0.2.2.2]
  clear_value d1
  split
  · exact h1
  · have h2 : Dev.Raised n x d0 d2 := by unfold d2; split <;> first | exact lift h1 (Dev.SrcEq.of_eq rfl rfl) | exact h1
    clear_value d2
    have h3 : Dev.Raised n x d0 d3 := by
      unfold d3 Dev.pinReact; repeat' split
      all_goals first | exact lift h2 (Dev.SrcEq.of_eq rfl rfl) | exact h2
    clear_value d3
    split
    · exact lift h3 (Dev.SrcEq.of_eq rfl rfl)
    · have h4 : Dev.Raised n x d0 d4 := lift h3 (Dev.SrcEq.modSrc _ _ _ (fun _ => rfl) (fun _ => rfl) (fun _ => rfl))
      clear_value d4
      split
      rename_i d5 dr h
      have h5 : Dev.Raised n x d0 d5 := by
        have := congrArg Prod.fst h; simp only at this; rw [← this]
        split
        · exact lift h4 (Dev.SrcEq.of_noted (Dev.Noted.postFault _ _ _) ((Dev.postFault_keep _ _ _).clk (by decide)) ‹_› ‹_›)
        · exact h4
      clear h
      split
      rename_i d6 ov h
      have h6 : Dev.Raised n x d0 d6 := by
        have := congrArg Prod.fst h; simp only at this; rw [← this]
        exact lift h5 (Dev.SrcEq.of_noted (Dev.Noted.logFault _ _ _ _) ((Dev.logFault_keep _ _ _ _).clk (by decide)) ‹_› ‹_›)
      clear h
      extract_lets d7
      have h7 : Dev.Raised n x d0 d7 := by unfold d7; split <;> first | exact lift h6 (other _ _ _ (.inl rfl)) | exact h6
      clear_value d7
      exact lift h7 (fold _ _)

/-- The same of the raise with the escalation that E = 0 takes at once. -/
theorem Dev.raise0_raised (d : Dev) (n : Nat) (x : Detail) (h2 : n ≠ 2) (h3 : n ≠ 162) : Dev.Raised n x d (d.raise0 n x) := by
  have h1 : Dev.Raised n x d (Dev.raiseN 4 d n x) := Dev.raiseN_raised 3 d n x h2 h3
  have lift : ∀ {a b : Dev}, Dev.Raised n x d a → Dev.SrcEq n a b → Dev.Raised n x d b := fun h k =>
    ⟨k.1.trans h.1, k.2.1.trans h.2.1, k.2.2.1.trans h.2.2⟩
  unfold Dev.raise0; dsimp only
  split
  · refine lift h1 (((Dev.SrcEq.of_noted (Dev.Noted.escRecord _ n 2 8) ((Dev.escRecord_keep _ _ _ _).clk (by decide)) h2 h3).trans
      (Dev.SrcEq.modSrc _ n (fun s => { s with esc := none }) ?_ ?_ ?_)).trans (Dev.SrcEq.of_eq rfl rfl)) <;> exact fun _ => rfl
  · exact h1

end Sys2Proof.Machine
end

