-- ==== Sys2Proof/Tests/Slice0.lean ====
section
/-!
SUPPORT. Tests: operands that `Instr.wf` refuses, states that meet the hypotheses of each statement, and small checks of one
command each, whose expected results come from the spec.
-/
open Sys2Proof
open Sys2Proof.Machine

namespace Sys2Proof.Tests

-- one theorem after another: each waits for the kernel, and a thread per waiting theorem takes too much memory
set_option Elab.async false

/-- A state with this device, no fuse burned and no command waiting. -/
def dv (d : Dev) : State := { dev := d }

/-- A running device in SERVICE: power good, REFCLK valid, PLLs locked, the ring settled, firmware running. -/
def on : Dev := {
  pin := { pwrgd := true, resetN := true, trstN := true, cold := false }
  clk := { mode := .service, dt := 5000000000, dtRun := true, refclk := 1, tbLock := true, hwLock := true, mgLock := true
           tbPll := true, hwPll := true, mgPll := true, ringOn := true, ringSettled := true }
  mbox := { fwState := 1 } }

/-- The same with its clock unit changed. -/
def onClk (f : ClkU → ClkU) : Dev := on.modClk f

/-- The clock monitor has tripped. -/
def held : Dev := onClk (fun c => { c with refOk := false, hold := true, tbLock := false, dtSrc := .ring })

/-! ### States that meet the hypotheses of the statements -/

theorem test_wit_StepTakesFront : (dv on).pending = [] ∧ ({ dev := on, pending := [.vprogHigh] } : State).pending = [.vprogHigh] := by decide
theorem test_wit_ExecAnswersOrFaults : Instr.wf (.laneEnable 143) = true ∧ Instr.wf (.laneEnable 144) = false := by decide
theorem test_wit_OnlyBurnsReachFuses : burns .vprogHigh = false ∧ ∃ t, exec .vprogHigh (dv on) = .next t := ⟨rfl, _, rfl⟩
theorem test_wit_BurnedStaysBurned : ∃ t, step { dev := on, pending := [.vprogHigh] } = .next t := ⟨_, rfl⟩
theorem test_wit_FuseFormKept : ({ dev := on, pending := [.vprogHigh] } : State).fuse.wf = true ∧
    ∃ t, step { dev := on, pending := [.vprogHigh] } = .next t := ⟨rfl, _, rfl⟩

theorem test_wit_PowerAndReset_pins :
    ({} : Dev).pin.pwrgd = false ∧ on.pin.pwrgd = true ∧
    ({ pin := { pwrgd := true } } : Dev).pin.cold = true ∧
    (({ pin := { pwrgd := true }, clk := { ringSettled := true } } : Dev).pin.cold = true ∧
      ({ pin := { pwrgd := true }, clk := { ringSettled := true } } : Dev).clk.ringSettled = true) ∧
    (on.pin.cold = false ∧ 1000 ≤ 1000 ∧ 99 < 100) := by decide
theorem test_wit_PowerAndReset_rails :
    (on.pin.pwrgd = true ∧ 5 < 6) ∧ on.otp.win = none ∧
    (({ on with otp := { win := some 7 } } : Dev).pin.pwrgd = true ∧ ({ on with otp := { win := some 7 } } : Dev).otp.win = some 7) ∧
    (650 ≤ 850 ∧ 850 % 5 = 0 ∧ 850 ≠ on.pin.vreq) ∧ (649 < 650 ∨ on.pin.vreq = 800) := by decide

theorem test_wit_RingAndClockHold_ring :
    (({ clk := { ringOn := true } } : Dev).clk.ringSettled = false ∧ ({ clk := { ringOn := true } } : Dev).boot.env = none) ∧
    (({ clk := { ringOn := true }, boot := { env := some {} } } : Dev).boot.env = some {}) ∧
    ({} : Dev).clk.ringOn = false ∧
    -- BOOT's own start, at 1 ms exactly, and a restart outside BOOT
    (({ clk := { ringOn := true, dtRun := true, dt := 1000000 } } : Dev).clk.mode = .boot ∧
      ({ clk := { ringOn := true, dtRun := true, dt := 1000000 } } : Dev).clk.ringAt + 1000000 ≤ 1000000) ∧
    (let d := onClk (fun c => { c with ringSettled := false, ringCause := 2, dt := 1000000 })
     d.clk.ringOn = true ∧ d.clk.ringSettled = false ∧ d.clk.ringFailed = false ∧ d.clk.ringAt + 1000000 ≤ d.dt ∧
       ¬ (d.clk.mode = .boot ∧ d.clk.ringCause = 0)) ∧
    (on.clk.ringSettled = true ∧ on.clk.refOk = true ∧ held.clk.refOk = false) := by decide
theorem test_wit_RingAndClockHold_hold :
    (on.clk.refOk = true ∧ on.pin.pwrgd = true ∧ on.clk.mode ≠ .boot ∧ ∀ n, n < 144 → (on.port n).st ≠ .fail) ∧
    (({ pin := { pwrgd := true } } : Dev).clk.refOk = true ∧ ({ pin := { pwrgd := true } } : Dev).pin.pwrgd = true ∧
      ({ pin := { pwrgd := true } } : Dev).clk.mode = .boot ∧ ({} : Dev).pin.pwrgd = false) ∧
    (held.clk.refOk = false ∧ held.clk.mode ≠ .boot ∧ held.fault.brstWait = []) ∧
    (let d := onClk (fun c => { c with hold := true })
     d.clk.hold = true ∧ d.clk.refOk = true ∧ d.clk.tbLock = true ∧ d.clk.move = none ∧ d.clk.mode = .service ∧ d.allOut = true) ∧
    on.clk.hold = false := by decide

theorem test_wit_Islands :
    (on.clk.refOk = true ∧ on.pin.pwrgd = true ∧ on.pin.cold = false ∧ on.clk.mode ≠ .retain ∧ on.clk.hold = false) ∧
    (2 < 3 ∧ on.clk.tbLock = true ∧ on.clk.hwLock = true ∧ on.clk.mgLock = true) ∧
    (let d := onClk (fun c => { c with mode := .retain })
     d.clk.mode = .retain ∧ d.clk.refOk = true ∧ d.fault.brstWait = []) ∧ held.clk.refOk = false ∧
    (let d := onClk (fun c => { c with mode := .retain, dt := 1000000 })
     d.mgMayStop = true ∧ d.clk.mgIdleAt + 1000000 ≤ d.dt) ∧
    (pathOk .mgmt = true ∧ on.mayWrite .mgmt = true) ∧ 63 < 64 := by decide

/-- Lane, octet or port `n` of the running device stands so. -/
def atLane (l : Nat) (x : Lane) : Dev := on.modLane l (fun _ => x)
def atPort (n : Nat) (x : Port) : Dev := on.modPort n (fun _ => x)

theorem alone_of_none {d : Dev} {l : Nat} (h : d.portOfLane l = none) : d.LaneAlone l := fun n k => by rw [h] at k; cases k
theorem alone_of_off {d : Dev} {l m : Nat} (h : d.portOfLane l = some m) (k : (d.port m).st = .off) : d.LaneAlone l := fun n j => by
  rw [h] at j; cases j; exact k

theorem test_wit_SensorsAndLayers :
    (159 < 160 ∧ (2400 : Int) = (if on.therm.noTrim then 2320 + 80 else 2400) ∧ ¬ (159 = 31 ∧ on.clk.ringOn = true ∧ on.clk.ringSettled = false) ∧
      on.clk.dtSrc ≠ .frozen ∧ (-640 ≤ (2400 : Int) ∧ (2400 : Int) ≤ 2400) ∧ (on.sensor 159).broken = false ∧ ¬ (-640 ≤ (2401 : Int) ∧ (2401 : Int) ≤ 2400)) ∧
    (on.sensor 159).lastAt + 30000 ≤ (onClk (fun c => { c with dt := 30000 })).dt ∧
    (onClk (fun c => { c with dtSrc := .frozen })).clk.dtSrc = .frozen ∧
    (on.therm.shut = false ∧ on.therm.evalNext ≤ on.dt / 10000) ∧ ({ therm := { shut := true } } : Dev).therm.shut = true ∧
    on.dt / 10000 < ({ on with therm := { evalNext := 500001 } } : Dev).therm.evalNext ∧
    -- a limit that every layer stays below, and one that layer 0 has reached
    (∀ n, n < 21 → (on.evalTemp [] n).1 < ((16 * on.cfgFld 0 bThermal 0x10 24 8 : Nat) : Int)) ∧
    (let d := { on with therm := { envelope := true } }.setCsr 0 bThermal 0x10 0
     ∃ n, n < 21 ∧ ((16 * d.cfgFld 0 bThermal 0x10 24 8 : Nat) : Int) ≤ (d.evalTemp [] n).1) := by decide

theorem test_wit_CalibrationSteps :
    (let d := on.modDom 226 (fun _ => { pending := true })
     226 < 227 ∧ (d.dom 226).suspended = false ∧ (d.dom 226).step = none ∧ (d.dom 226).pending = true ∧ d.calGap 226 = true) ∧
    (let d := (atLane 143 { gap := true }).modDom 143 (fun _ => { pending := true })
     (d.dom 143).step = none ∧ (d.dom 143).pending = true ∧ d.calGap 143 = true) ∧
    (let d := on.modDom 226 (fun _ => { step := some 4999999001, lim := 1000 })
     (d.dom 226).step = some 4999999001 ∧ d.dt < 4999999001 + (d.dom 226).lim ∧ d.calGap 226 = true) ∧
    -- a lane's step whose gap has been withdrawn
    (let d := on.modDom 143 (fun _ => { step := some 4999999001, lim := 1000 })
     (d.dom 143).step = some 4999999001 ∧ d.dt < 4999999001 + (d.dom 143).lim ∧ d.calGap 143 = false) ∧
    -- a step at its limit exactly, as the third bad one
    (let d := on.modDom 226 (fun _ => { step := some 4999999000, lim := 1000, fails := 2 })
     (d.dom 226).step = some 4999999000 ∧ 4999999000 + (d.dom 226).lim ≤ d.dt ∧ 3 ≤ (d.dom 226).fails + 1) ∧
    (on.dom 226).step = none := by decide

theorem test_wit_LaneRequests_alone : 143 < 144 ∧ on.LaneAlone 143 := ⟨by decide, alone_of_none (by decide)⟩
theorem test_wit_LaneRequests :
    (((on.setCsr 136 bLane 0x10 1).lane 143).st = .off ∧ (on.setCsr 136 bLane 0x10 1).clauseOf (143 / 8) ≠ 0) ∧
    ((on.setCsr 136 bLane 0x10 0).clauseOf (143 / 8) = 0) ∧
    (let d := atLane 143 { st := .active, farQuiet := true }
     (d.lane 143).st = .active ∧ d.inFrame 143 (d.lane 143).actAt = false ∧ (d.lane 143).farQuiet = true) ∧
    -- a lane that reached ACTIVE in this very frame
    (let d := atLane 143 { st := .active, actAt := some (on.frameNo 17) }
     (d.lane 143).st = .active ∧ d.inFrame 143 (d.lane 143).actAt = true) ∧
    -- one that went to rest in it
    (let d := atLane 143 { st := .quiet, restFr := some (on.frameNo 17) }
     (d.lane 143).st = .quiet ∧ d.inFrame 143 (d.lane 143).restFr = true) ∧
    (((atLane 143 { st := .active }).lane 143).farQuiet = false ∧ ((atLane 143 { st := .active }).lane 143).farDeep = false) ∧
    ((atLane 143 { st := .active, farDeep := true }).lane 143).farDeep = true ∧
    ((atLane 143 { st := .quiet }).lane 143).st = .quiet ∧
    (((atLane 143 { st := .deep }).modOct 17 (fun o => { o with pllOn := true })).oct (143 / 8)).pllOn = true ∧
    (((atLane 143 { st := .deep }).modOct 17 (fun o => { o with pllOn := true })).lane 143).st = .deep ∧
    ((atLane 143 { st := .fail }).lane 143).st = .fail := by decide

theorem test_wit_LaneTimers :
    (let d := (atLane 143 { st := .detect, timer := some 5000000000, pulses := 1 }).modOct 17 (fun o => { o with pllLock := true })
     d.laneDue 143 .detect = true ∧ 1 ≤ (d.lane 143).pulses ∧ (d.oct (143 / 8)).pllLock = true) ∧
    (atLane 143 { st := .train, timer := some 5000000000 }).laneDue 143 .train = true ∧
    (let d := atLane 143 { st := .lock, timer := some 5000000000 }
     d.laneDue 143 .lock = true ∧ (d.lane 143).fromDeep = false) ∧
    (let d := atLane 143 { st := .lock, timer := some 5000000000, fromDeep := true }
     d.laneDue 143 .lock = true ∧ (d.lane 143).fromDeep = true) ∧
    (atLane 143 { st := .capx, timer := some 5000000000 }).laneDue 143 .capx = true ∧
    (let d := atLane 143 { st := .fail, timer := some 5000000000, failCount := 7 }
     d.laneDue 143 .fail = true ∧ (d.lane 143).waiting = false ∧ (d.lane 143).failCount < 8) ∧
    (let d := atLane 143 { st := .fail, timer := some 5000000000, failCount := 8 }
     d.laneDue 143 .fail = true ∧ (d.lane 143).waiting = false ∧ 8 ≤ (d.lane 143).failCount) ∧
    (let d := atLane 143 { st := .capx, deepBy := some 5000000000 }
     due (d.lane 143).deepBy d.dt = true ∧ ((d.lane 143).st = .lock ∨ (d.lane 143).st = .capx)) ∧
    (let d := atLane 143 { st := .deep, restAt := some 4999999000 }
     (d.lane 143).restAt = some 4999999000 ∧ 4999999000 + 1000 ≤ d.dt) ∧
    (let d := atLane 143 { st := .active, winEnd := some 5000000000 }
     (d.lane 143).st = .active ∧ due (d.lane 143).winEnd d.dt = true) ∧
    due ((atLane 143 { st := .train, timer := some 5000000001 }).lane 143).timer 5000000000 = false := by decide

/-- The message whose payload begins with these bytes, as a scrambler that starts at zeros sends it. -/
def msgOf (b : List Byte) : Nat := scramble 0 (leNat b * 2 ^ 20)

theorem test_wit_LaneReceives :
    (((atLane 143 { st := .train }).lane 143).st = .train ∧ fld (0x80 : Word) 7 1 = 1 ∧
      due ((atLane 143 { st := .train }).lane 143).timer on.dt = false) ∧ ((0 : Word) ≠ ~~~(0x80 : Word)) ∧
    (let d := atLane 143 { st := .train, timer := some 5000000000 }
     (d.lane 143).st = .train ∧ due (d.lane 143).timer d.dt = true) ∧
    (let d := atLane 143 { st := .lock, goodCw := 7, timer := some 5000000001 }
     (d.lane 143).st = .lock ∧ 15 ≤ 15 ∧ (d.lane 143).goodCw = 7 ∧ due (d.lane 143).timer d.dt = false ∧ due (d.lane 143).deepBy d.dt = false) ∧
    (let d := atLane 143 { st := .capx, timer := some 5000000001 }
     let b := leBytes 640 (descramble (d.lin 143).scr (msgOf [1]) / 2 ^ 20)
     (d.lane 143).st = .capx ∧ d.portOfLane 143 = none ∧ allZero (b.take 16) = false ∧ due (d.lane 143).timer d.dt = false ∧
       due (d.lane 143).deepBy d.dt = false) ∧
    -- port 143 of width 1 under clause 0, which the block names
    (let d := (atLane 143 { st := .capx, timer := some 5000000001 }).setCsr 143 bPort 0x10 2
     let b := leBytes 640 (descramble (d.lin 143).scr (msgOf [1, 0, 0, 0, 0, 0, 1]) / 2 ^ 20)
     d.portOfLane 143 = some 143 ∧ leAt b 5 1 % 8 = d.clauseOf (143 / 8) ∧ leAt b 6 1 = d.portWidth 143 ∧ allZero (b.take 16) = false) ∧
    (on.lane 143).st = .off ∧
    (let d := atLane 143 { chkRun := 1, prbsGood := 63 }
     (d.lane 143).chkRun ≠ 0 ∧ (d.lane 143).prbsLock = false ∧ (d.lane 143).prbsGood = 63) ∧
    ((atLane 143 { chkRun := 1, prbsLock := true }).lane 143).prbsLock = true ∧ (on.lane 143).chkRun = 0 := by decide +kernel
theorem test_wit_LaneReceives_message (m : Nat) : lineMessage (m % 2 ^ 20) (m / 2 ^ 20) = m := by unfold lineMessage; omega
theorem test_wit_LaneReceives_alone : ((atLane 143 { st := .capx }).setCsr 143 bPort 0x10 2).LaneAlone 143 :=
  alone_of_off (m := 143) (by decide) (by decide)

theorem test_wit_Octets :
    (let d := on.setSel .mgmt bLane 143
     pathOk .mgmt = true ∧ d.mayWrite .mgmt = true ∧ d.selOf .mgmt bLane = 143 ∧ (4 : Word).toNat % 8 ≤ 4 ∧
       (∀ i, i < 8 → (d.lane (8 * (143 / 8) + i)).st = .off) ∧ (4 : Word).toNat % 8 ≠ d.clauseOf (143 / 8)) ∧
    (let d := (atLane 143 { st := .fail }).setSel .mgmt bLane 136
     d.selOf .mgmt bLane = 136 ∧ ∃ i, i < 8 ∧ (d.lane (8 * (136 / 8) + i)).st ≠ .off) ∧
    4 < (5 : Word).toNat % 8 ∧
    (let d := on.modOct 17 (fun o => { o with pllOn := true })
     17 < 18 ∧ (d.oct 17).pllOn = true ∧ (d.oct 17).pllLock = false ∧ d.clk.refOk = true ∧ d.portWidth (8 * (17 / 2 * 2)) ≠ 16) ∧
    (let d := (atLane 143 { st := .fail }).modOct 17 (fun o => { o with pllOn := true, pllLock := true })
     (d.oct 17).pllLock = true ∧ (∀ i, i < 8 → (d.lane (8 * 17 + i)).st = .off ∨ (d.lane (8 * 17 + i)).st = .fail)) ∧
    -- taps that make 63 exactly, with FIR_MANUAL 1; none with FIR_MANUAL 0
    (let d := (on.setSel .mgmt bLane 143).setCsr 143 bLane 0x20 0x80
     fld (d.laneCtrl 143) 7 1 = 1 ∧ tapsOk (clausePam4 (d.clauseOf (143 / 8))) (tapsOfWord (0x003F0000 : Word).toNat) = true) ∧
    fld (on.laneCtrl 143) 7 1 = 0 ∧ 63 < 64 := by decide
theorem test_wit_Octets_alone : ∀ i, i < 8 → on.LaneAlone (8 * 17 + i) := by
  intro i hi; exact alone_of_none (by revert i; decide)

theorem noBond_on : on.NoBond := by unfold Dev.NoBond; decide

theorem test_wit_PortConfiguration :
    (let d := on.setSel .mgmt bPort 143
     143 < 144 ∧ d.NoBond ∧ pathOk .mgmt = true ∧ d.mayWrite .mgmt = true ∧ d.selOf .mgmt bPort = 143 ∧ (d.port 143).st = .off ∧
     -- width 1, generations 1 to 3, one lane at least; grants of 512 entries exactly
     portCfgRange (0xB42 : Word).toNat = true ∧ d.portClash 143 (0xB42 : Word).toNat = false ∧
     poolsOk (bits (0xB42 : Word).toNat 1 5) (d.csrAt 143 bPort 0x20).toNat (d.csrAt 143 bPort 0x24).toNat = true ∧
     bit (0xB42 : Word).toNat 0 = false ∧ bit (0xB43 : Word).toNat 0 = true ∧
     -- width 16 does not fit at 143; a width of 3; a width of 1 with no generation
     portCfgRange (0xB60 : Word).toNat = true ∧ d.portClash 143 (0xB60 : Word).toNat = true ∧
     ¬ widthOk (bits (6 : Word).toNat 1 5) ∧ widthOk (bits (2 : Word).toNat 1 5) ∧ portCfgRange (2 : Word).toNat = false ∧
     d.portWidth 143 = 0) ∧
    -- and of 513
    (let d := (on.setSel .mgmt bPort 143).setCsr 143 bPort 0x20 257
     (d.port 143).st = .off ∧
       poolsOk (bits (0xB42 : Word).toNat 1 5) (d.csrAt 143 bPort 0x20).toNat (d.csrAt 143 bPort 0x24).toNat = false) ∧
    -- a port that is not OFF: other settings, and its own with reserved bits that ignore writes, ENABLE kept and cleared
    (let d := (atPort 143 { st := .up }).setCsr 143 bPort 0x10 0xB43
     (d.port 143).st ≠ .off ∧ (0xB45 : Word).toNat % 65536 / 2 ≠ (d.csrAt 143 bPort 0x10).toNat / 2 ∧
       portCfgRange (0xFFFF0B43 : Word).toNat = true ∧ (0xFFFF0B43 : Word).toNat % 65536 / 2 = (d.csrAt 143 bPort 0x10).toNat / 2 ∧
       bit (0xFFFF0B43 : Word).toNat 0 = true ∧ bit (0xFFFF0B42 : Word).toNat 0 = false) ∧
    (let d := ((on.setCsr 128 bPort 0x10 32).setCsr 128 bLane 0x10 4).setCsr 136 bLane 0x10 4
     widthOk 16 ∧ d.portWidth 128 = 16 ∧ (d.port 128).st = .off ∧ (d.port 128).partner = none ∧
       d.portClash 128 (d.csrAt 128 bPort 0x10).toNat = false ∧ (d.ptx 128).p3 = none ∧
       ∀ i, i < 16 → (d.lane (128 + i)).st = .off ∧ d.clauseOf ((128 + i) / 8) ≠ 0) ∧
    -- a port of width 16 whose octets' clauses differ
    (let d := (on.setCsr 128 bPort 0x10 32).setCsr 128 bLane 0x10 4
     widthOk 16 ∧ d.portWidth 128 = 16 ∧ (d.port 128).st = .off ∧ d.portClash 128 (d.csrAt 128 bPort 0x10).toNat = true) := by
  unfold widthOk Dev.NoBond; decide

/-- A port of width 1 at 143 under configuration word `v`, in the state `x`. -/
def cfgPort (v : Word) (x : Port) : Dev := (atPort 143 x).setCsr 143 bPort 0x10 v
def helloOf (gens : Byte) : List Byte := leBytes 4 0x9E3C51A7 ++ [gens, 1, 0, 0] ++ leBytes 8 5 ++ List.replicate 16 0
/-- The port's one lane holds a good frame with this payload. -/
def inPort (x : Port) (b : List Byte) : Dev := (cfgPort 0xB43 x).modLin 143 (fun _ => { v := true, fcnt := 7, payload := b })

theorem test_wit_PortFormation :
    (let d := cfgPort 0xB43 { st := .bond, timer := some 5000000000, accepted := 1 }
     d.PortFresh 143 ∧ (∀ m, m < 144 → m ≠ 143 → (d.port m).st ≠ .bond) ∧ d.portTimerDue 143 .bond = true ∧
       d.minLanes 143 ≤ popCount (d.port 143).accepted 16) ∧
    (let d := cfgPort 0xB43 { st := .bond, timer := some 5000000000 }
     d.portTimerDue 143 .bond = true ∧ popCount (d.port 143).accepted 16 < d.minLanes 143) ∧
    (cfgPort 0xB43 { st := .neg, timer := some 5000000000 }).portTimerDue 143 .neg = true ∧
    (let d := inPort { st := .neg, timer := some 5000000001 } (helloOf 0x13)
     let h := (d.lin (d.laneAt 143 0)).payload.take 32
     0 < d.portWidth 143 ∧ (d.lin (d.laneAt 143 0)).v = true ∧ (d.lin (d.laneAt 143 0)).bad = false ∧
     (d.port 143).st = .neg ∧ due (d.port 143).timer d.dt = false ∧ helloValid h = true ∧ (d.port 143).hello = false ∧
       leAt h 4 1 / 16 ≤ d.cfgFld 143 bPort 0x10 8 2 ∧ d.cfgFld 143 bPort 0x10 6 2 ≤ leAt h 4 1 % 16 ∧
       d.cfgFld 143 bPort 0x10 6 2 ≤ d.cfgFld 143 bPort 0x10 8 2 ∧ d.NoBond) ∧
    -- a hello that names generations 3 to 1 is not valid; a lane without a frame; a copy that differs
    (helloValid ((((inPort { st := .neg } (helloOf 0x31)).lin 143).payload).take 32) = false ∧ (on.lin (on.laneAt 143 0)).v = false) ∧
    (let d := inPort { st := .neg, hello := true, chipid := 5, helloG := 0x12 } (helloOf 0x13)
     (d.port 143).hello = true ∧ (d.port 143).helloG ≠ leAt ((d.lin 143).payload.take 32) 4 1) ∧
    -- generation 1 only, before a far end of 2 and 3
    (let d := (inPort { st := .neg } (helloOf 0x23)).setCsr 143 bPort 0x10 0x943
     let h := (d.lin (d.laneAt 143 0)).payload.take 32
     0 < d.portWidth 143 ∧ helloValid h = true ∧ due (d.port 143).timer d.dt = false ∧ d.cfgFld 143 bPort 0x10 8 2 < leAt h 4 1 / 16) ∧
    -- FLIT_V of a far end that has gone on to INIT
    (let d := inPort { st := .init, hello := true, chipid := 5, helloG := 0x13 }
       (leBytes 4 0x9E3C51A7 ++ [0x13, 3, 0xFF, 7] ++ leBytes 8 5 ++ List.replicate 16 0)
     let h := (d.lin (d.laneAt 143 0)).payload.take 32
     (d.port 143).st = .init ∧ (d.port 143).farOn = false ∧ helloValid h = true ∧ (d.port 143).hello = true ∧ (d.port 143).chipid = leAt h 8 8 ∧
       (d.port 143).helloG = leAt h 4 1 ∧ bit (leAt h 5 1) 1 = true) ∧
    (let d := cfgPort 0xB43 { st := .fail, timer := some 5000000000 }
     d.portTimerDue 143 .fail = true ∧ d.cfgFld 143 bPort 0x10 0 1 = 1 ∧ widthOk (d.portWidth 143) ∧
       ∀ i, i < 16 → (d.lane (143 + i)).st ≠ .active) := by unfold widthOk Dev.NoBond Dev.PortFresh; decide

/-- An INIT flit with DONE 1 and grants at the ends of their range. -/
def initBytes : List Byte := mkFlit 3 4096 (initBody false true 0 0 [16384, 18, 16384, 18] [0, 0, 0, 0])

/-- A port of generation 3 in INIT whose far end sends flits: before its own INIT with DONE and after. -/
def initDev (x : Port) : Dev :=
  (inPort { x with st := .init, gen := 3, chipid := 5, accepted := 1, farOn := true } initBytes).modLane 143 (fun y => { y with st := .active })

theorem test_wit_PortFormation_init :
    (let d := initDev {}
     let f := initOf true initBytes
     d.FlitAt 143 0 2 143 0 true 7 initBytes ∧ d.PortFresh 143 ∧ (∀ m, m < 144 → m ≠ 143 → (d.port m).st ≠ .bond) ∧
       (d.port 143).st = .init ∧ (d.port 143).gen = 3 ∧ (d.port 143).initRx = false ∧ (d.port 143).doneSent = false ∧ f.resume = false ∧
       (∀ x, x ∈ [f.pool1, f.pool2, f.pool3] → 18 ≤ x ∧ x ≤ 16384) ∧ f.pool0 ≤ 16384 ∧ (d.port 143).chipid ≠ 0 ∧
       (d.port 143).chipid ≠ 2 ^ 64 - 1 ∧ d.holderOf (d.port 143).chipid = none ∧ d.numberFor (d.port 143).chipid = some 0) ∧
    (let d := initDev { initRx := true, doneSent := true }
     let f := initOf true initBytes
     d.FlitAt 143 0 2 143 0 true 7 initBytes ∧ d.PortFresh 143 ∧ (d.port 143).initRx = true ∧ (d.port 143).doneSent = true ∧
       f.done = true ∧ d.cfgFld 143 bPort 0x10 10 1 = 0 ∧
       (∀ i, i < 16 → (bit (d.port 143).accepted i = true ↔ i < d.portWidth 143 ∧ (d.lane (d.laneAt 143 i)).st = .active)) ∧
       d.portWidth 143 ≤ 16 ∧ d.holderOf (d.port 143).chipid = none ∧ d.numberFor (d.port 143).chipid = some 0) := by
  constructor <;> unfold Dev.FlitAt Dev.PortFresh <;> decide +kernel

/-- A port of this generation and state, its one lane in use, holding flit bytes `b`. -/
def flitDev (x : Port) (b : List Byte) : Dev := inPort { x with rxMask := 1, txMask := 1, accepted := 1 } b

/-- A data flit of VC2 with SEQ 4095. -/
def dataBytes : List Byte := mkFlit 2 0x8FFF [1, 2, 3]
/-- Bytes whose CRC does not hold. -/
def badBytes : List Byte := List.replicate 128 0

theorem test_wit_FlitsReceived_data :
    (let d := (flitDev { st := .up, gen := 2, exp := 4095 } dataBytes).modRx 143 2 (fun r => { r with pool := 1 })
     let f := dataOf 2 true dataBytes
     d.FlitAt 143 0 0 143 0 f.crcOk 7 dataBytes ∧ d.NoBond ∧ d.fault.injPort = none ∧ (d.port 143).st = .up ∧ f.crcOk = true ∧ f.kind = 0 ∧
       f.vc = 2 ∧ 1 < (d.port 143).gen ∧ f.seq = (d.port 143).exp ∧ 0 < d.rxGrant 143 f.vc ∧
       (tabGet (fun _ => ({} : Arriving)) d.qm.arriving 143).left = 0) ∧
    -- a duplicate 2,047 back, and a SEQ that is none
    (let d := flitDev { st := .up, gen := 2, exp := 2046 } dataBytes
     let f := dataOf 2 true dataBytes
     d.FlitAt 143 0 0 143 0 f.crcOk 7 dataBytes ∧ 1 ≤ ((d.port 143).exp + 4096 - f.seq) % 4096 ∧
       ((d.port 143).exp + 4096 - f.seq) % 4096 ≤ 2047 ∧ f.seq ≠ (d.port 143).exp) ∧
    (let d := flitDev { st := .up, gen := 2, exp := 2047 } dataBytes
     let f := dataOf 2 true dataBytes
     d.FlitAt 143 0 0 143 0 f.crcOk 7 dataBytes ∧ f.seq ≠ (d.port 143).exp ∧
       ¬ (1 ≤ ((d.port 143).exp + 4096 - f.seq) % 4096 ∧ ((d.port 143).exp + 4096 - f.seq) % 4096 ≤ 2047) ∧ (d.port 143).nakOut = false) ∧
    -- bytes whose CRC does not hold, with and without a NAK outstanding, and in INIT
    (let d := flitDev { st := .up, gen := 2, nakOut := true } badBytes
     d.FlitAt 143 0 0 143 0 (dataOf 2 false badBytes).crcOk 7 badBytes ∧ (dataOf 2 false badBytes).crcOk = false ∧ (d.port 143).nakOut = true) ∧
    (let d := flitDev { st := .up, gen := 2 } badBytes
     d.FlitAt 143 0 0 143 0 (dataOf 2 false badBytes).crcOk 7 badBytes ∧ (d.port 143).nakOut = false) ∧
    (let d := flitDev { st := .init, gen := 2, farOn := true } badBytes
     d.FlitAt 143 0 0 143 0 (dataOf 2 false badBytes).crcOk 7 badBytes ∧ (d.port 143).st = .init) ∧
    (let d := flitDev { st := .init, gen := 2, farOn := true } dataBytes
     let f := dataOf 2 true dataBytes
     d.FlitAt 143 0 0 143 0 f.crcOk 7 dataBytes ∧ f.crcOk = true ∧ f.kind = 0 ∧ f.vc = 2) := by
  unfold Dev.NoBond
  refine ⟨?_, ?_, ?_, ?_, ?_, ?_, ?_⟩ <;> unfold Dev.FlitAt <;> decide +kernel

/-- A STATUS that acknowledges SEQ 9, and a LANEMAP of mask 1 from frame 9 on. -/
def statusBytes : List Byte := mkFlit 2 4096 (statusBody true false 9 [0, 1, 2, 3])
def lanemapBytes : List Byte := mkFlit 2 4096 (lanemapBody none 1 9)

theorem test_wit_FlitsReceived_control :
    (let d := flitDev { st := .up, gen := 2 } statusBytes
     let g := statusOf true statusBytes
     d.FlitAt 143 0 1 143 0 g.crcOk 7 statusBytes ∧ g.crcOk = true ∧ g.ctype = 1 ∧ g.nak = false ∧ g.ackV = true) ∧
    (let d := flitDev { st := .up, gen := 2, nakOut := true } badBytes
     d.FlitAt 143 0 1 143 0 (statusOf false badBytes).crcOk 7 badBytes ∧ (statusOf false badBytes).crcOk = false ∧
       d.FlitAt 143 0 3 143 0 (lanemapOf false 7 badBytes).crcOk 7 badBytes ∧ (lanemapOf false 7 badBytes).crcOk = false) ∧
    (let d := flitDev { st := .up, gen := 2, plan := some { mask := 1, eff := 9 } } lanemapBytes
     let m := lanemapOf true 7 lanemapBytes
     d.FlitAt 143 0 3 143 0 m.crcOk 7 lanemapBytes ∧ m.crcOk = true ∧ (d.port 143).plan = some { mask := 1, eff := 9 } ∧ m.mask = 1 ∧ m.eff = 9) ∧
    (let d := flitDev { st := .restripe, gen := 2, prop := some { mask := 1, eff := 9 } } lanemapBytes
     let m := lanemapOf true 7 lanemapBytes
     d.FlitAt 143 0 3 143 0 true 7 lanemapBytes ∧ (d.port 143).st = .restripe ∧ (d.port 143).prop = some { mask := 1, eff := 9 } ∧ m.mask = 1 ∧
       (∀ i, i < 144 → (d.lane i).st ≠ .quiet) ∧ d.minLanes 143 ≤ popCount 1 16 ∧ d.portWidth 143 ≤ 16 ∧ 143 + d.portWidth 143 ≤ 144) ∧
    ((on.port 143).st ≠ .up ∧ (on.port 143).st ≠ .restripe ∧ (on.port 143).st ≠ .init) := by
  refine ⟨?_, ?_, ?_, ?_, by decide⟩ <;> unfold Dev.FlitAt <;> decide +kernel

/-- A port of one lane in UP, the lane ACTIVE. -/
def upDev (x : Port) : Dev :=
  (cfgPort 0xB43 { x with st := .up, txMask := 1, rxMask := 1, accepted := 1 }).modLane 143 (fun y => { y with st := .active })

theorem test_wit_FlitsSent :
    ((atPort 143 { st := .neg }).port 143).st = .neg ∧
    -- INIT: before FLIT_AT and from it on
    (let d := atPort 143 { st := .init, flitAt := some (on.frameNo 17 + 1) }
     (d.port 143).st = .init ∧ d.txFlits 143 = false) ∧
    (let d := atPort 143 { st := .init, flitAt := some (on.frameNo 17) }
     (d.port 143).st = .init ∧ d.txFlits 143 = true ∧ d.slotLeft 143 = true ∧ (d.port 143).doneOk = false ∧ (d.port 143).resume = false) ∧
    ((atPort 143 { st := .restripe }).port 143).st = .restripe ∧
    -- UP: no slot left of the ten, and slots left
    (let d := (upDev { gen := 1 }).modPtx 143 (fun t => { t with set := on.frameNo 17 + 1, next := 10 })
     (d.port 143).st = .up ∧ d.slotLeft 143 = false ∧ d.LanesCalm 143) ∧
    (let d := (upDev { gen := 3, statusDue := true }).modPtx 143 (fun t => { t with set := on.frameNo 17 + 1, next := 4 })
     let e := d.modLout 143 (fun x => { x with payload := List.replicate 640 0 })
     e.slotLeft 143 = true ∧ e.LanesCalm 143 ∧ (e.port 143).statusDue = true ∧ (e.ptx 143).set = e.frameNo (143 / 8) + 1 ∧
       (e.lout 143).payload.length = 640 ∧ (e.port 143).gen ≤ 3 ∧ (e.txLanes 143)[(e.ptx 143).next % (e.txLanes 143).length]? = some 143) ∧
    (let d := upDev { replay := [{ seq := 4095 }], replayPos := some 0 }
     d.slotLeft 143 = true ∧ d.LanesCalm 143 ∧ (d.port 143).statusDue = false ∧ (d.port 143).lanemapDue = false ∧ (d.port 143).plan = none ∧
       (d.port 143).replayPos = some 0 ∧ (d.port 143).replay[0]? = some { seq := 4095 }) ∧
    (let x : TxPkt := { ref := .event, rest := List.replicate 61 0, first := false }
     let d := ((upDev { gen := 1 }).modPtx 143 (fun p => { p with p3 := some x })).modTx 143 3 (fun t => { t with held := 1 })
     d.slotLeft 143 = true ∧ d.LanesCalm 143 ∧ (d.port 143).replayPos = none ∧ (d.port 143).replay.length < 512 ∧ (d.ptx 143).p3 = some x ∧
       0 < (d.tx 143 3).held ∧ x.first = false ∧ flitBytes (d.port 143).gen < x.rest.length) ∧
    (∀ v, v < 4 → ((upDev {}).tx 143 v).held = 0) ∧
    due ((atPort 143 { st := .up, statusBy := some 5000000000 }).port 143).statusBy on.dt = true ∧
    (let d := atPort 143 { st := .up, nakOut := true, nakBy := some 5000000000 }
     (d.port 143).nakOut = true ∧ due (d.port 143).nakBy d.dt = true) ∧
    (let d := atPort 143 { st := .up, ackBy := some 5000000000, replay := [{}] }
     due (d.port 143).ackBy d.dt = true ∧ (d.port 143).replay ≠ [] ∧ (d.port 143).replayCount + 1 < d.cfgFld 143 bPort 0x30 16 4) ∧
    (let d := (atPort 143 { st := .up, ackBy := some 5000000000, replay := [{}] }).setCsr 143 bPort 0x30 0x10000
     d.cfgFld 143 bPort 0x30 16 4 ≤ (d.port 143).replayCount + 1) ∧
    (on.port 143).st ≠ .up ∧
    (let f : Frag := { port := 143, vc := 3, ptn := 63 }
     let d := (atPort 143 { st := .up, gen := 3, partner := some 63 }).modTxn (fun t => { t with frags := [f] })
     let e := d.modTx 143 3 (fun t => { t with held := 1 })
     3 < 4 ∧ 1 ≤ 3 ∧ d.txn.frags = [f] ∧ f.begun = false ∧ f.errs = [] ∧ d.portHolds 143 f.ptn = true ∧ d.req? f.id = none ∧
       (d.ptx 143).pkt 3 = none ∧
       flitsOf (e.port 143).gen f.data.length ≤ (e.tx 143 3).held ∧ (d.tx 143 3).held < flitsOf (d.port 143).gen f.data.length) := by
  refine ⟨?_, ?_, ?_, ?_, ?_, ?_, ?_, ?_, ?_, ?_, ?_, ?_, ?_, ?_, ?_⟩ <;> (try unfold Dev.LanesCalm) <;> decide +kernel

theorem test_wit_FlitsSent_pairs (f : Frag) : ∀ k i, k < 64 → i < 8 →
    ((((atPort 143 { st := .up, gen := 3, partner := some 63 }).modTxn (fun t => { t with frags := [f] })).pair k i).port = none) :=
  fun _ _ _ _ => rfl

set_option maxRecDepth 4000 in
theorem test_wit_RestripeAndHold :
    (let d := atPort 143 { st := .restripe, prop := some { mask := 1 }, farProp := some { mask := 1 }, accepted := 1 }
     (d.port 143).st = .restripe ∧ (d.port 143).prop = some { mask := 1 } ∧ (d.port 143).farProp = some { mask := 1 } ∧
       d.minLanes 143 ≤ popCount 1 16 ∧ (d.port 143).plan = none ∧ (∀ i, i < 32 → bit (d.port 143).accepted i = true → bit 1 i = true) ∧
       d.restripeAgreed 143 = true) ∧
    (let d := atPort 143 { st := .up, plan := some { mask := 1 }, accepted := 1 }
     (d.port 143).plan = some { mask := 1 } ∧ (d.port 143).planAns = false) ∧
    (let d := atPort 143 { st := .up, plan := some { mask := 1 }, planAns := true, accepted := 1 }
     (d.port 143).planAns = true ∧ (d.port 143).planRest = none) ∧
    (let d := cfgPort 0xB43 { st := .restripe, timer := some 5000000000, prop := some { mask := 1 } }
     d.portTimerDue 143 .restripe = true ∧ d.restripeAgreed 143 = false ∧ d.activeLanes 143 < d.minLanes 143) ∧
    on.portTimerDue 143 .restripe = false ∧
    (let d := (cfgPort 0xB43 { st := .hold, resume := true, holdEnd := some 5000000000, partner := some 63 }).modPort 0
       (fun _ => { st := .up, partner := some 63 })
     (d.port 143).st = .hold ∧ (d.port 143).resume = true ∧ due (d.port 143).holdEnd d.dt = true ∧ (d.port 143).partner = some 63 ∧
       63 < 64 ∧ 0 ≠ 143 ∧ (d.port 0).partner = some 63 ∧ (d.port 0).st = .up ∧ d.NoBond ∧ (∀ j, j < 144 → (d.port j).waitPm = false) ∧
       (∀ l, l < 160 → (d.lane l).st ≠ .active) ∧ widthOk (d.portWidth 143)) ∧
    due (on.port 143).holdEnd on.dt = false ∧
    (let d := ((atPort 128 { st := .up, rotAt := some 5000000000, stby := some 15, txMask := 0x7FFF, rotIdx := 14 }).setCsr
       128 bPort 0x38 1).modLane 143 (fun x => { x with st := .quiet })
     due (d.port 128).rotAt d.dt = true ∧ d.cfgFld 128 bPort 0x38 0 16 ≠ 0 ∧ (d.port 128).stby = some 15 ∧ (d.port 128).plan = none ∧
       nextLane (d.port 128).txMask (d.port 128).rotIdx = some 0 ∧ (d.lane (128 + 15)).st = .quiet) := by
  unfold widthOk Dev.NoBond; decide

/-- Partner number 63 of the running device stands so. -/
def atPtn (x : Partner) : Dev := on.modPtn 63 (fun _ => x)
set_option maxRecDepth 4000 in
theorem test_wit_Partners :
    (let d := atPtn { st := .leaving, timer := some 5000000000 }
     63 < 64 ∧ (∀ l, l < 176 → (d.lane l).st ≠ .active) ∧ (∀ n, n < 144 → (d.port n).accepted = 0) ∧
       (d.ptn 63).st = .leaving ∧ due (d.ptn 63).timer d.dt = true ∧ d.leaveQuiet 63 = true) ∧
    (let d := atPtn { st := .reclaim, timer := some 5000000000 }
     d.reclaimed 63 = true ∧ d.lawFails 63 = none ∧ (∀ n, n < 144 → (d.port n).waitPm = false) ∧
       (∀ i, i < 8 → (d.pair 64 i).wait = false) ∧ due (d.ptn 63).timer d.dt = true) ∧
    (let d := (atPtn { st := .reclaim }).modQm (fun q => { q with cellFree := 1 })
     d.reclaimed 63 = true ∧ d.lawFails 63 = some (3, 0)) ∧
    (on.ptn 63).st ≠ .reclaim := by decide

/-- Partner 63, CHIPID 77, is attached on port 143 at generation 3. -/
def rq : Dev := (atPort 143 { st := .up, gen := 3, partner := some 63 }).modPtn 63 (fun _ => { st := .attached, chipid := 77 })
theorem rq_from : rq.FromPartner { port := 143 } 63 := by unfold Dev.FromPartner; decide

/-- Last unit of the RAW region of the default layout in DRAM, and of the one in stack SRAM (R153). -/
def lastRaw : Nat := 64 * 1000 * mib - 64
def lastSram : Nat := 0x1001000000 - 64
/-- An image whose table descriptor 0 is a COUNT table of one entry (R200). -/
def countImg : List Byte := List.replicate 0x1E10 0 ++ ([3, 0, 0, 0] ++ leBytes 5 0x1000000000 ++ [0, 0, 0] ++ leBytes 4 1)

set_option maxRecDepth 40000 in
theorem test_wit_RequestsAdmitted :
    (let h : ReqHdr := { port := 143, tag := 4095, addr := lastRaw }
     rq.FromPartner h 63 ∧ rq.TagFree .read h 63 ∧ rq.refusal (rq.requestOf .read h 63) h.plen = none ∧ Opc.read.isRaw = true) ∧
    (let h : ReqHdr := { port := 143, addr := lastSram, plen := 8 }
     rq.refusal (rq.requestOf .atomAdd h 63) h.plen = none ∧ Opc.atomAdd.isRaw = true) ∧
    (let d := { rq with cfg := { active := { bytes := countImg } } }
     let h : ReqHdr := { port := 143, plen := 8 }
     d.refusal (d.requestOf .count h 63) h.plen = none ∧ Opc.count.isTable = true) ∧
    (let h : ReqHdr := { port := 143, vc := Opc.csrRead.vc, addr := csrBase + 0xFFFFFC }
     let w : ReqHdr := { h with plen := 4 }
     rq.TagFree .csrRead h 63 ∧ rq.refusal (rq.requestOf .csrRead h 63) h.plen = none ∧ rq.fenceBlocked (rq.requestOf .csrRead h 63) = false ∧
       rq.csrBlocked (rq.requestOf .csrRead h 63) = false ∧ rq.TagFree .csrWrite w 63 ∧
       rq.refusal (rq.requestOf .csrWrite w 63) w.plen = none) := by
  unfold Dev.FromPartner Dev.TagFree; decide

theorem test_wit_RequestsRefused :
    (let h : ReqHdr := { port := 143, plen := 1 }
     rq.FromPartner h 63 ∧ rq.TagFree .read h 63 ∧ rq.refusal (rq.requestOf .read h 63) h.plen = some .malformed ∧
       (rq.requestOf .read h 63).posted = false ∧ Opc.read ≠ .enqueue) ∧
    (let h : ReqHdr := { port := 143, addr := 0x1002000000 }
     rq.refusal (rq.requestOf .read h 63) h.plen = some .addr) ∧
    (let h : ReqHdr := { port := 143, addr := lastRaw, plen := 64 }
     let d := rq.modClk (fun c => { c with mode := .drain })
     (d.requestOf .write h 63).posted = true ∧ d.refusal (d.requestOf .write h 63) h.plen = some .noService) ∧
    (let h : ReqHdr := { port := 143, addr := lastSram + 64, plen := 64 }
     (rq.requestOf .write h 63).posted = true ∧ rq.refusal (rq.requestOf .write h 63) h.plen = some .denied) ∧
    -- an ENQUEUE refused while the device drains, posted and not
    (let d := rq.modClk (fun c => { c with mode := .drain })
     let p : ReqHdr := { port := 143, vc := 2, addr := 131071, len := 256, plen := 256 }
     let h : ReqHdr := { p with np := true }
     (d.requestOf .enqueue h 63).posted = false ∧ d.TagFree .enqueue h 63 ∧ d.refusal (d.requestOf .enqueue h 63) h.plen = some .noService ∧
       (d.requestOf .enqueue p 63).posted = true ∧ d.refusal (d.requestOf .enqueue p 63) p.plen = some .noService) ∧
    ((rq.modTxn (fun t => { t with tags := [4096 * 63 + 4095] })).tagHeld 63 (4095 % 4096) = true) ∧
    (({ port := 143 } : ReqHdr).vc ≠ 3 ∧ rq.tagHeld 63 (0 % 4096) = false ∧ ({ port := 143, vc := 3 } : ReqHdr).vc = 3) ∧
    (hdrOk { port := 0 } = true ∧ (rq.port 0).partner = none) := by unfold Dev.FromPartner Dev.TagFree; decide

theorem test_wit_RefusalRaisesFs090 :
    (let d := rq.modPort 143 (fun p => { p with gen := 1 })
     let h : ReqHdr := { port := 143, plen := 72 }
     hdrOk h = true ∧ (d.port h.port).partner = some 63 ∧ d.present 63 = true ∧ d.TagFree .writeMask h 63 ∧
       d.refusal (d.requestOf .writeMask h 63) h.plen = some .unsup ∧ d.tagHeld 63 (h.tag % 4096) = false) ∧
    (143 < 144 ∧ (rq.port 143).partner = some 63 ∧ rq.present 63 = true ∧ 15 < 16 ∧ 256 < 257 ∧ 17 ≠ 16 + cmdPlen (padTo 256 [0])) := by
  unfold Dev.TagFree; decide

/-- The same with queue 131,071 standing so, and one cell free. -/
def rqQueue (y : Queue) : Dev := (rq.modQueue 131071 (fun _ => y)).modQm (fun q => { q with cellFree := 1 })
theorem test_wit_QueueRequests :
    (let d := rqQueue { occ := 16383 }
     let h : ReqHdr := { port := 143, vc := Opc.enqueue.vc, addr := 131071, len := 256, plen := 256 }
     d.FromPartner h 63 ∧ d.mem.sErr = [] ∧ d.injArmed = false ∧ d.TagFree .enqueue h 63 ∧ d.refusal (d.requestOf .enqueue h 63) h.plen = none ∧
       (∀ o, o ∈ d.qm.opens → o.id < d.txn.nextId) ∧ (d.queue h.addr).frozen = false ∧
       (d.queue h.addr).occ + (d.queue h.addr).res + ceilDiv h.len 256 ≤ (d.profileOf h.addr).qlimit ∧
       ceilDiv h.len 256 ≤ d.qm.cellFree - d.quarCells ∧
       -- one cell more is over the limit
       (d.profileOf h.addr).qlimit < (d.queue h.addr).occ + (d.queue h.addr).res + ceilDiv 257 256 ∧
       -- and one more than are free
       (rqQueue {}).qm.cellFree - (rqQueue {}).quarCells < ceilDiv 257 256 ∧
       ((rqQueue {}).queue h.addr).occ + ((rqQueue {}).queue h.addr).res + ceilDiv 257 256 ≤ ((rqQueue {}).profileOf h.addr).qlimit) ∧
    (let d := rqQueue { occ := 1, pkts := 1, head := [{ sop := true, eop := true, cbytes := 1 }] }
     let h : ReqHdr := { port := 143, vc := Opc.dequeue.vc, addr := 131071, mod := 1, len := 64 }
     d.TagFree .dequeue h 63 ∧ d.refusal (d.requestOf .dequeue h 63) h.plen = none ∧ d.fenceBlocked (d.requestOf .dequeue h 63) = false ∧
       d.queueBlocked (d.requestOf .dequeue h 63) = false ∧ (d.queue h.addr).frozen = false ∧ d.NoLinkDue h.addr ∧
       (d.queue h.addr).occ ≠ 0 ∧ (d.queue h.addr).mid = [] ∧
       (d.queue h.addr).head ≠ [] ∧ (if h.mod = 0 then headCells (d.queue h.addr).descs else min h.len (headCells (d.queue h.addr).descs)) = 1) ∧
    (let d := rqQueue {}
     let h : ReqHdr := { port := 143, vc := Opc.dequeue.vc, addr := 131071 }
     d.refusal (d.requestOf .dequeue h 63) h.plen = none ∧ (d.queue h.addr).occ = 0 ∧ d.parkRoom 63 = some false ∧
       d.TagFree .qstatus h 63 ∧ d.refusal (d.requestOf .qstatus h 63) h.plen = none ∧ d.fenceBlocked (d.requestOf .qstatus h 63) = false ∧
       d.queueBlocked (d.requestOf .qstatus h 63) = false ∧ d.NoLinkDue h.addr) := by
  unfold Dev.FromPartner Dev.TagFree Dev.NoLinkDue; decide

theorem test_wit_QueueProgress :
    (let o : OpenEnq := { id := 1, q := 131071, len := 256, need := 1, got := 256, cells := [0], issued := 1, ptn := 63 }
     let d := (rqQueue { res := 1, head := List.replicate 7 {} }).modQm (fun q => { q with opens := [o], cellFree := 0, cellInfl := 1 })
     131071 < 131072 ∧ d.mem.sErr = [] ∧ d.injArmed = false ∧ d.qm.opens.filter (fun x => x.q == 131071) = [o] ∧ o.buf = [] ∧ o.got = o.len ∧
       o.issued = o.need ∧ o.out = 0 ∧ o.cells.length = o.need ∧ d.enqFenced o = false ∧ d.queueBlocked o.req = false ∧
       (d.queue 131071).frozen = false ∧ o.spill = [] ∧ o.spillOut = 0 ∧ (∀ p, p ∈ d.qm.arriving → p.2.wait = []) ∧
       d.qm.parks = [] ∧ o.depart = false ∧ (∀ x, x ∈ d.txn.reqs → x.id ≠ o.id) ∧ o.qwm = 0 ∧
       o.need + (if (d.queue 131071).mid = [] ∧ (d.queue 131071).tail = [] then (d.queue 131071).head.length
         else 4 + (d.queue 131071).tail.length) ≤ 8) ∧
    (let p : Park := { id := 1, q := 131071, ptn := 63, end_ := 4999999999 }
     let r : Req := { id := 1, opc := .dequeue, st := .parked, ptn := 63 }
     let d := (rq.modQm (fun q => { q with parks := [p] })).modTxn (fun t => { t with reqs := [r] })
     d.qm.parks.find? (fun x => x.id == 1) = some p ∧ p.end_ < d.dt ∧ d.req? 1 = some r ∧ r.posted = false ∧ r.depart = false) ∧
    (let p : Park := { id := 1, end_ := 5000000000 }
     (rq.modQm (fun q => { q with parks := [p] })).qm.parks.find? (fun x => x.id == 1) = some p ∧ rq.dt ≤ p.end_) ∧
    -- the last moves of a shrink and of channel 63, and none pending
    (let d := (rq.modQm (fun q => { q with moving := true })).modCh 63 (fun x => { x with st := .degraded })
     d.movesPending = true ∧ (d.queue 131071).frozen = false ∧ d.qm.moving = true ∧ (∀ c, c ∈ d.qm.cellUsed → c < d.cellLim) ∧
       (∀ u, u ∈ d.qm.unitUsed → u < d.unitLim) ∧ d.chMoving 63 = true ∧ (∀ x, x ∈ d.qm.cellUsed → x % 64 ≠ 63) ∧
       (∀ u, u ∈ d.qm.unitUsed → u % 64 ≠ 63)) ∧ rq.movesPending = false := by decide

/-- Channel 63 is DEGRADED, and queue 131,071 holds a cell of it. -/
def moveDev : Dev :=
  ((rqQueue { occ := 1, pkts := 1, head := [{ cell := 63, sop := true, eop := true, cbytes := 1, pktlen := 1 }] }).modQm
    (fun q => { q with cellUsed := [63], cellQueued := 1 })).modCh 63 (fun x => { x with st := .degraded })
theorem test_wit_QueueProgress_move :
    (let d := moveDev
     let x : Desc := { cell := 63, sop := true, eop := true, cbytes := 1, pktlen := 1 }
     d.movesPending = true ∧ (d.queue 131071).frozen = false ∧ (d.queue 131071).descs.find? (fun y => d.cellMoves y.cell) = some x ∧
       (d.queue 131071).mid = [] ∧ d.rotate d.qm.cellUsed d.qm.ptrCell d.cellLim false = some (0, 1) ∧
       d.copySlots (d.cellPlace 63) (d.cellPlace 0) = true ∧ (d.bgCopy (d.cellPlace 63) (d.cellPlace 0) (ceilDiv x.cbytes 64)).2 = true) := by decide +kernel
theorem test_wit_QueueProgress_unique (o : OpenEnq) : ∀ x y, x ∈ [o] → y ∈ [o] → x.id = y.id → x = y := by
  intro x y hx hy _; rw [List.mem_singleton.mp hx, List.mem_singleton.mp hy]

/-- The device with one admitted request. -/
def withReq (r : Req) : Dev := rq.modTxn (fun t => { t with reqs := [r] })
theorem test_wit_AccessesIssued :
    (let r : Req := { id := 1, opc := .writeMask, ptn := 63, addr := lastRaw, len := 0, data := leBytes 8 1 ++ List.replicate 64 0, frags := [{}] }
     let d := (withReq r).modTxn (fun t => { t with rsvUsed := [(63, 32704)], shrUsed := 1048576 })
     d.req? 1 = some r ∧ r.opc.isRaw = true ∧ r.opc ≠ .readLong ∧ r.fence = false ∧ r.nextFrag = 0 ∧ r.frags = [{}] ∧ r.begun = false ∧
       r.st = .waiting ∧ r.depart = false ∧ r.status = .ok ∧ r.dpend = 0 ∧ (d.unitAt (r.addr / 64 * 64)).isSome = true ∧
       inSram (64 * (d.unitAt (r.addr / 64 * 64)).getD 0) = false ∧ r.enables ≠ 0 ∧
       tabGet (fun _ => 0) d.txn.rsvUsed r.ptn + 64 ≤ 32768 ∧ d.txn.shrUsed ≤ 1048576 ∧
       -- and one with no byte enabled, which makes no access
       ({ r with data := List.replicate 72 0 } : Req).enables = 0 ∧ r.posted = false ∧ d.earlier r.ord (lastRaw / 64) = false) ∧
    (let r : Req := { id := 1, opc := .write, ptn := 63, addr := lastSram, data := [1], frags := [{}] }
     let d := withReq r
     d.req? 1 = some r ∧ d.unitAt (r.addr / 64 * 64) = some (lastSram / 64) ∧ inSram (64 * (lastSram / 64)) = true ∧ d.mem.sErr = [] ∧
       d.injArmed = false ∧ d.earlier r.ord (lastSram / 64) = false ∧ d.streamBlocked r = false ∧ r.abandons d.dt = false ∧
       r.addr % 64 = 0 ∧ r.posted = false) ∧
    (let r : Req := { id := 1, opc := .atomCas, ptn := 63, addr := lastSram + 60, mod := 1, frags := [{}] }
     r.opc.isAtom = true ∧ r.addr % r.atomSize = 0) ∧
    (let q : Req := { id := 2, ord := 0, opc := .write, ptn := 63, addr := lastSram, frags := [{}] }
     let r : Req := { id := 1, ord := 1, opc := .read, ptn := 63, addr := lastSram, frags := [{}] }
     (rq.modTxn (fun t => { t with reqs := [q, r] })).earlier r.ord (lastSram / 64) = true) ∧
    rq.req? 1 = none := by decide

theorem test_wit_TableOperations :
    (let r : Req := { id := 1, opc := .count, ptn := 63, home := 63, td := [3] }
     let d := withReq r
     d.req? 1 = some r ∧ r.opc.isTable = true ∧ r.ctx = false ∧ r.st = .waiting ∧ r.fence = false ∧ d.ctxBusy r.home < 64 ∧
       (tierChans (r.home / 16)).any d.serving = true ∧ tabGet (fun _ => 0) d.txn.rsvUsed r.ptn + r.tableLen ≤ 32768 ∧
       d.txn.shrUsed ≤ 1048576) ∧
    (let d := { rq with reg := { chargeEpoch := 5000000000 / 1024 }, sla := { eng := [(3, { gate := 15, sum := 129999 })] } }
     3 < 4 ∧ (d.eng 3).gate = 15 ∧ d.dt / 1024 = d.reg.chargeEpoch ∧ d.pickStep (16 * 3 + 15) = none ∧
       (d.eng 3).sum + 1 ≤ 130000 ∧ 130000 < (d.eng 3).sum + 2 ∧
       (d.eng 0).gate = 0 ∧ d.pickStep (16 * 0 + 0) = none ∧ 0 < 15) ∧
    (let r : Req := { id := 1, opc := .count, ptn := 63, home := 62, td := [3, 0, 0, 0] ++ leBytes 5 0x1000000000, ctx := true, ready := true, st := .issued }
     let d := { withReq r with reg := { chargeEpoch := 5000000000 / 1024 }, sla := { eng := [(3, { gate := 14 })] } }
     (d.eng 3).gate = 14 ∧ d.pickStep (16 * 3 + 14) = some r ∧ r.abandons d.dt = false ∧ 14 < 15) ∧
    (let r : Req := { id := 1, opc := .count, ptn := 63, td := [3, 0, 0, 0] ++ leBytes 5 0x1000000000, ctx := true, st := .issued, begun := true }
     let d := withReq r
     d.req? 1 = some r ∧ r.ready = false ∧ r.posted = false ∧ r.spend = 0 ∧ r.sdata = [] ∧ r.fw = none ∧ tdEntry r.td (r.addr / 256) = 0x1000000000 ∧
       0x1000000000 % 16 = 0 ∧ inSram 0x1000000000 = true ∧ (d.placeAt (0x1000000000 / 64 * 64)).map (·.2) = some (0x1000000000 / 64 * 64) ∧
       d.mem.sErr = [] ∧ d.injArmed = false ∧ d.earlier r.ord (placeUnit (0x1000000000 / 64 * 64)) = false ∧ d.streamBlocked r = false) ∧
    rq.req? 1 = none ∧
    (let c : Comp := { src := 67, ref := .table 1 }
     67 < 101 ∧ c.src < 68 ∧ c.slot = .none ∧ ({ c with slot := .reserved } : Comp).slot ≠ .none ∧ rq.txn.comps = [] ∧ rq.txn.reqs = [] ∧
       (withReq { id := 1 }).req? 1 = some { id := 1 } ∧ ({ id := 1 } : Req).fw = none ∧ ({ id := 1 } : Req).depart = false) ∧
    -- an operation that the management owner's last slot pair gave the engines
    (let r : Req := { id := 1, opc := .emLookup, fw := some 519 }
     let c : Comp := { src := 67, ref := .table 1, slot := .reserved }
     let d := ((withReq r).modTxn (fun t => { t with comps := [c] })).modPair 64 7 (fun p => { p with wait := true, work := [1] })
     d.txn.comps = [c] ∧ d.req? 1 = some r ∧ r.fw = some 519 ∧ (d.pair (519 / 8) (519 % 8)).wait = true ∧
       (d.pair (519 / 8) (519 % 8)).work = [1]) := by decide

def onReg (r : RegU) : Dev := { on with reg := r }
theorem test_wit_Regulation :
    (65 < 66 ∧ (onReg { epoch := 5000000000 / 1024 - 1 }).reg.epoch < on.dt / 1024 ∧ on.dt / 1024 ≤ (onReg { epoch := 5000000000 / 1024 }).reg.epoch) ∧
    (let d := onReg { heldChg := [(65, [7])], gapEnd := [(65, 5000000000)], rsv := [{ chipid := 7 }] }
     tabGet (fun _ => ([] : List Nat)) d.reg.heldChg 65 = [7] ∧ 7 ∈ [7] ∧ d.reg.rsv.any (fun e => e.chipid == 7) = true ∧
       tabGet (fun _ => 0) d.reg.gapEnd 65 ≤ d.dt) ∧
    (on.dt < tabGet (fun _ => 0) (onReg { gapEnd := [(65, 5000000001)] }).reg.gapEnd 65 ∨ tabGet (fun _ => ([] : List Nat)) on.reg.heldChg 65 = []) := by
  decide
theorem test_wit_BudgetsFitCapacity : (onReg { epoch := 4882811 }).reg.epoch < on.dt / 1024 ∧
    ∃ t, exec .epochStart (dv (onReg { epoch := 4882811 })) = .next t := ⟨by decide, _, rfl⟩

/-- Channel 63 of the running device stands so. -/
def atCh (x : Chan) : Dev := on.modCh 63 (fun _ => x)
/-- An access to the first unit of channel 63, and the same as one of an enqueue. -/
def accWr : Access := { for_ := .enq 1, unit := 63 * 2 ^ 24, kind := .write, bytes := List.replicate 64 1, mask := 2 ^ 64 - 1 }
def accRd : Access := { for_ := .req 1 0, unit := 63 * 2 ^ 24, kind := .read }

theorem test_wit_ChannelAccesses :
    (let d := (onReg { chargeEpoch := 5000000000 / 1024 }).modTxn (fun t => { t with acc := [accWr] })
     63 < 64 ∧ d.dt / 1024 = d.reg.chargeEpoch ∧ (∀ p, p ∈ d.qm.arriving → p.2.wait = []) ∧ d.pickHand 62 = none ∧ d.pickHand 63 = some accWr ∧
       d.open? 1 = none ∧ d.mem.lost = [] ∧ d.serving 63 = true) ∧
    (let d := (onReg { chargeEpoch := 5000000000 / 1024 }).modTxn (fun t => { t with acc := [accRd], reqs := [{ id := 1 }] })
     d.pickHand 63 = some accRd ∧ accRd.kind ≠ .write ∧ d.req? 1 = some { id := 1 } ∧ ({ id := 1 } : Req).abandons d.dt = false ∧
       d.forward 63 accRd = none) ∧
    (let d := atCh { debt := 8, ptr := 524287 }
     d.chanRuns 63 = true ∧ (d.ch 63).srWait = false ∧ 8 ≤ (d.ch 63).debt ∧ d.actReady 63 ((d.ch 63).ptr % 64) = true) ∧
    (let d := (atCh { wrq := [accWr] }).modMem (fun m => { m with blkValid := [(placeBlk accWr.place, true)] })
     d.chanRuns 63 = true ∧ (d.ch 63).srWait = false ∧ accWr.isFill = false ∧ (d.ch 63).debt = 0 ∧ (d.ch 63).trr = [] ∧ (d.ch 63).gap = none ∧ (d.ch 63).wrq = [accWr] ∧ (d.ch 63).rdq = [] ∧ d.writeAged 63 = true ∧
       d.eligible 63 accWr true = true ∧ accWr.kind = .write ∧ accWr.bytes.length = 64 ∧ d.serving (placeCh (d.phys accWr.place)) = true ∧
       d.blkValid (placeBlk (d.phys accWr.place)) = true ∧ d.injArmed = false) ∧
    (((atCh { st := .selfref }).ch 63).st ≠ .active ∧ ((atCh { st := .selfref }).ch 63).st ≠ .degraded ∧
      ((atCh { st := .selfref }).ch 63).gap ≠ some .idle ∧ ((atCh { st := .selfref }).ch 63).srWait = false ∧ ({} : Dev).clk.mode = .boot) ∧
    ((atCh { failed := true }).ch 63).failed = true ∧ on.writeAged 63 = false := by decide

theorem test_wit_ChannelUpkeep :
    (let d := atCh { refAt := 5000000000 * 524288, debt := 7 }
     d.clk.mode ≠ .boot ∧ ((d.ch 63).st = .active ∨ (d.ch 63).st = .degraded) ∧ (d.ch 63).refAt ≤ d.dt * 524288 ∧ (d.ch 63).debt < 8) ∧
    8 ≤ ((atCh { debt := 8 }).ch 63).debt ∧
    due ((atCh { catchup := some 5000000000 }).ch 63).catchup on.dt = true ∧ ((atCh { catchup := some 5000000000 }).ch 63).nextBand = none ∧
    ((atCh { catchup := some 5000000000, nextBand := some 2 }).ch 63).nextBand = some 2 ∧
    (let d := (atCh { b0Since := some 0, band := 2 }).modClk (fun c => { c with dt := on.cfgFld 63 bDram 0x38 8 8 * 1000000 })
     20 < 21 ∧ 1 + 63 / 4 + 63 / 16 = 19 ∧ (d.ch 63).b0Since = some 0 ∧ 0 + d.cfgFld 63 bDram 0x38 8 8 * 1000000 ≤ d.dt ∧
       (d.ch 63).catchup = none ∧ (d.ch 63).nextBand = none ∧ (d.ch 63).band ≠ 0) ∧
    -- a catch-up under way towards band 1
    (let d := (atCh { b0Since := some 0, band := 2, catchup := some 1, nextBand := some 1 }).modClk (fun c => { c with dt := on.cfgFld 63 bDram 0x38 8 8 * 1000000 })
     (d.ch 63).b0Since = some 0 ∧ 0 + d.cfgFld 63 bDram 0x38 8 8 * 1000000 ≤ d.dt ∧ (d.ch 63).catchup ≠ none ∧
       (d.ch 63).nextBand.getD (d.ch 63).band ≠ 0) ∧
    (on.clk.move = none ∧ on.fault.brstWait = [] ∧ ((atCh { sr := some .sre, srAt := 4999990000 }).ch 63).sr = some .sre ∧
      ((atCh { sr := some .sre }).ch 63).srxNext = false ∧ ((atCh { sr := some .sre, srAt := 4999990000 }).ch 63).srAt + 10000 ≤ on.dt) ∧
    (((atCh { sr := some .srx, st := .selfref }).ch 63).sr = some .srx ∧ ((atCh { sr := some .srx }).ch 63).failed = false ∧ (on.ch 63).sr = none) ∧
    (let d := (atCh { st := .selfref, lastPulse := some 4999999000, pulseAt := 5000000000 * 524288, layerAt := 5000000000 * 524288 }).modClk
       (fun c => { c with dtSrc := .ring })
     (d.ch 63).st = .selfref ∧ d.clk.dtSrc = .ring ∧ (d.ch 63).pulseAt ≤ d.dt * 524288 ∧ (d.ch 63).lastPulse = some 4999999000 ∧
       4999999000 + 1000 ≤ d.dt ∧ (d.ch 63).layerAt ≤ d.dt * 524288) ∧
    (on.ch 63).st ≠ .selfref ∧
    (let d := atCh { idleAt := some (5000000000 - on.cfgFld 63 bDram 0x40 0 10) }
     (d.ch 63).rdq = [] ∧ (d.ch 63).wrq = [] ∧ d.inGap 63 = false ∧ (d.ch 63).idleAt.getD 0 + d.cfgFld 63 bDram 0x40 0 10 ≤ d.dt) ∧
    (let d := on.modDom 225 (fun _ => { pending := true })
     (d.dom (162 + 63)).pending = true ∧ (d.ch 63).lastGap + 1000 * d.cfgFld 63 bDram 0x44 0 16 ≤ d.dt) ∧
    (let d := atCh { gap := some .forced, gapEnd := 5000000000 }
     (d.ch 63).gap = some .forced ∧ (d.ch 63).gapEnd ≤ d.dt) ∧
    (let d := (atCh { gap := some .idle }).modDom 225 (fun _ => { pending := true })
     let res : List LinkRes := List.replicate 58 {}
     d.inGap 63 = true ∧ (d.dom (162 + 63)).pending = true ∧ res.length = 58 ∧ (∀ r, r ∈ res → r.dead = false ∧ d.cfgFld 63 bDram 0x48 16 6 ≤ r.eye)) := by
  decide

theorem test_wit_DataIntegrity :
    (let d := { on with ecc := { markEnd := [(63, 5000000000)], ceEnd := [(64, 5000000000)] }, graft := { rowEnd := [(63, 5000000000)] } }
     winEnd d.ecc.markEnd 63 ≤ d.dt ∧ winEnd d.graft.rowEnd 63 ≤ d.dt ∧ 64 ≤ 64 ∧ winEnd d.ecc.ceEnd 64 ≤ d.dt) ∧
    (let d := { on with ecc := { markEnd := [(63, 5000000001)], ceEnd := [(64, 5000000001)] }, graft := { rowEnd := [(63, 5000000001)] } }
     d.dt < winEnd d.ecc.markEnd 63 ∧ d.dt < winEnd d.graft.rowEnd 63 ∧ d.dt < winEnd d.ecc.ceEnd 64) ∧
    (let d := on.modClk (fun c => { c with dt := 60000000000 * (on.ch 63).groomMin })
     d.groomsDram = true ∧ (d.ch 63).st = .active ∧ (d.ch 63).failed = false ∧
       (d.ch 63).groomStart + 60000000000 * (d.ch 63).groomMin ≤ d.dt ∧ (d.ch 63).groomStart ≤ d.dt ∧ d.groomNext 63 = none ∧
       (d.modMem (fun m => { m with blkValid := [(63 * 262144, true)] })).groomNext 63 = some 0 ∧ d.ecc.dramBehind.contains 63 = false) ∧
    ((atCh { st := .selfref }).ch 63).st = .selfref ∧
    (let d := on.modClk (fun c => { c with dt := 1000000000 * on.ecc.sramSec })
     d.groomsSram = true ∧ d.ecc.sramStart + 1000000000 * d.ecc.sramSec ≤ d.dt ∧ d.ecc.sramDone = false ∧ d.ecc.sramBehind = false ∧
       ({ d with ecc := { sramDone := true } } : Dev).ecc.sramDone = true) ∧
    (on.mem.sErr = [] ∧ on.groomsSram = true ∧ ({ on with ecc := { sramPtr := 576 } } : Dev).ecc.sramPtr < 577 ∧
      577 ≤ ({ on with ecc := { sramPtr := 577 } } : Dev).ecc.sramPtr ∧ ({ on with ecc := { sramPtr := 577 } } : Dev).ecc.sramDone = false ∧
      (∀ f, f ∈ on.txn.frags → f.errs = [])) ∧
    (let d := { on with mem := { sErr := [(0x100000FFFF, 2)], wordValid := [(0x100000FFFF / 8, true)] }, ecc := { ceEnd := [(64, 5000000001)] } }
     d.ecc.sramDone = false ∧ d.groomsSram = true ∧ d.ecc.sramPtr = 0 ∧ d.mem.sErr = [(0x100000FFFF, 2)] ∧ 0x1000000000 ≤ 0x100000FFFF ∧ 0x100000FFFF < 0x1000010000 ∧
       d.wordValid (0x100000FFFF / 8) = true ∧ d.dt < winEnd d.ecc.ceEnd 64 ∧
       tabGet (fun _ => 0) d.ecc.ceWin 64 + 1 ≠ tabGet (fun _ => 256) d.ecc.ceLim 64) := by decide

/-- Transfer channel 30 stands so, beside partner 63 on port 143. -/
def rqXc (x : Xc) : Dev := rq.modXc 30 (fun _ => x)
def xHdr (o : Opc) (plen : Nat) (b : List Byte) : ReqHdr := { port := 143, vc := o.vc, addr := 30, plen := plen, data := b }
theorem test_wit_TransferRequests :
    (let h := xHdr .xferClaim 0 []
     let d := rqXc {}
     d.FromPartner h 63 ∧ h.addr = 30 ∧ 30 < 31 ∧ h.fence = false ∧ d.TagFree .xferClaim h 63 ∧ d.refusal (d.requestOf .xferClaim h 63) h.plen = none ∧
       d.xferBlocked (d.requestOf .xferClaim h 63) = false ∧ (d.xc 30).owner ≠ some 63 ∧ (d.xc 30).st = .free) ∧
    ((rqXc { st := .idle, owner := some 0 }).xc 30).st ≠ .free ∧ ((rqXc { st := .idle, owner := some 0 }).xc 30).owner ≠ some 63 ∧
    (let d := rqXc { st := .idle, owner := some 63 }
     let h := xHdr .xferStart 8 (leBytes 8 (0x1001000000 - 64))
     d.refusal (d.requestOf .xferStart h 63) h.plen = none ∧ (d.xc 30).owner = some 63 ∧ (d.xc 30).st = .idle ∧ d.xAddrOk 30 (leAt h.data 0 8) = true ∧
       d.refusal (d.requestOf .xferAppend (xHdr .xferAppend 0 []) 63) 0 = none ∧ (d.xc 30).st ≠ .chainWait ∧
       d.refusal (d.requestOf .xferRelease (xHdr .xferRelease 0 []) 63) 0 = none) ∧
    (let d := rqXc { st := .run, owner := some 63 }
     d.refusal (d.requestOf .xferStop (xHdr .xferStop 0 []) 63) 0 = none ∧ (d.xc 30).st = .run) := by
  unfold Dev.FromPartner Dev.TagFree; decide

/-- Stack SRAM holds `bs` from the last unit of the RAW region on. -/
def sramHolds (d : Dev) (bs : List Byte) : Dev := d.writeSram lastSram (offsets bs)
/-- A FILL of two elements of 64 bytes at the start of the RAW region of stack SRAM. -/
def fillDesc (nextV : Byte) : List Byte :=
  [1, 0, 0x30, 0] ++ leBytes 4 2 ++ List.replicate 8 0 ++ leBytes 5 0x1000800000 ++ List.replicate 42 0 ++ [nextV]

set_option maxRecDepth 40000 in
theorem test_wit_TransferProgress :
    (let d := sramHolds (rqXc { st := .run, owner := some 63, cur := lastSram }) (fillDesc 0)
     30 < 31 ∧ d.mem.sErr = [] ∧ (d.xc 30).owner = some 63 ∧ (d.xc 30).st = .run ∧ d.xDescHeld 30 = false ∧
       (d.xc 30).ph = .fetch ∧ d.xAddrOk 30 (d.xc 30).cur = true ∧ d.xCheck (d.sramBytes (d.xc 30).cur 64) = none ∧
       xNextV (d.sramBytes (d.xc 30).cur 64) = false) ∧
    (let d := rqXc { st := .run, owner := some 63, cur := lastSram }
     d.xCheck (d.sramBytes (d.xc 30).cur 64) = some 5) ∧
    (let d := sramHolds (rqXc { st := .run, ph := .link, owner := some 63, cur := lastSram }) (fillDesc 0x80)
     (d.xc 30).ph = .link ∧ xNextV (d.sramBytes (d.xc 30).cur 64) = true) ∧
    (let d := rqXc { st := .chainWait, ph := .link, owner := some 63, cur := lastSram, waitAt := some 5000000000 }
     (d.xc 30).st = .chainWait ∧ d.xDescHeld 30 = false ∧ due (d.xc 30).waitAt d.dt = true) ∧
    (let d := rqXc { st := .run, ph := .moving, owner := some 63, desc := fillDesc 0 }
     (d.xc 30).desc = fillDesc 0 ∧ (d.xc 30).st = .run ∧ (d.xc 30).ph = .moving ∧ xOp (fillDesc 0) = 1 ∧ xWd (fillDesc 0) = 64 ∧ xDst (fillDesc 0) % 64 = 0 ∧
       (d.xc 30).pos + 1 < xN (fillDesc 0) ∧ 0x1000800000 = xDst (fillDesc 0) + 64 * (d.xc 30).pos ∧ inSram 0x1000800000 = true ∧
       d.unitAt 0x1000800000 = some (0x1000800000 / 64) ∧ d.injArmed = false ∧
       d.earlier d.txn.nextOrd (0x1000800000 / 64) = false ∧ d.txn.comps = [] ∧
       (d.xc 30).pend = 0 ∧ (d.xc 30).inflight < d.cfgFld 0 bXfer 0x100 0 7) ∧
    -- the same into the first unit of DRAM
    (let b : List Byte := [1, 0, 0x30, 0] ++ leBytes 4 2 ++ List.replicate 56 0
     let d := rqXc { st := .run, ph := .moving, owner := some 63, desc := b }
     xOp b = 1 ∧ xWd b = 64 ∧ xDst b % 64 = 0 ∧ (d.xc 30).pos + 1 < xN b ∧ (d.unitAt (xDst b)).isSome = true ∧
       inSram (64 * (d.unitAt (xDst b)).getD 0) = false) ∧
    (let d := rqXc { owner := some 63, finished := [{ addr := 1, seq := 1 }] }
     (d.xc 30).finished = { addr := 1, seq := 1 } :: [] ∧ ({ addr := 1, seq := 1 } : XcDone).evt = false ∧ 1 ≠ (d.xc 30).seq ∧
       ({ addr := 1, seq := 1 } : XcDone).out = 0) ∧
    -- a descriptor that has been read, its last write outstanding
    (let d := rqXc { owner := some 63, wout := 1, seq := 1, finished := [{ addr := 1, seq := 1 }] }
     (d.xc 30).finished = { addr := 1, seq := 1 } :: [] ∧ 1 = (d.xc 30).seq ∧ (d.xc 30).wout + (d.xc 30).pend ≠ 0) ∧
    (let d := rqXc { st := .draining, ph := .stop, owner := some 63 }
     (d.xc 30).st = .draining ∧ (d.xc 30).ph = .stop ∧ (d.xc 30).finished = [] ∧ (d.xc 30).silent = false ∧ (d.xc 30).inflight = 0 ∧
       (d.xc 30).heldReq = []) ∧
    ((rqXc { owner := some 63 }).xc 30).st ≠ .draining := by decide +kernel

/-- Channel 63 is DEGRADED and stands so for evacuation. -/
def atEvac (x : Evac) : Dev := (atCh { st := .degraded }).modEvac 63 (fun _ => x)
/-- The same, emptied, under an image whose region 0 is so and which has no other. -/
def layout (r : List Byte) : Dev := { atEvac { want := true, moveDone := true } with cfg := { active := { bytes := List.replicate 0x40 0 ++ r ++ [0] } } }
set_option maxRecDepth 40000 in
theorem test_wit_RepairAndWear :
    (let d := atEvac { want := true }
     63 < 64 ∧ (d.evacOf 63).want = true ∧ d.evacuating = none ∧ d.retired 63 = false ∧ d.chQuar 63 = true ∧ d.evacCan = true ∧
       (d.evacOf 63).trig = none) ∧
    ((on.evacOf 63).want = false ∧ on.evacuating = none ∧ on.mayRetire 63 = false) ∧
    (let d := atEvac { want := true, run := true }
     d.evacuating = some 63 ∧ d.clk.mode = .service ∧ d.evacWork 63 = []) ∧
    -- the last block of the channel's RAW slice
    (let b := 63 * 262144 + 1000 * 256 - 1
     let f := (atEvac { want := true, run := true }).modMem (fun m => { m with blkValid := [(b, true)] })
     let e := ((f.evacTarget 0).getD (0, 0)).1
     let d := f.modXc 31 (fun x => { x with st := .run, ph := .moving, desc := copyDesc (4096 * b) (4096 * e) })
     d.evacWork 63 = [(b, b)] ∧ d.blockQuiet b b = true ∧ d.copySlots (4096 * b) (4096 * e) = true ∧ (d.evacTarget d.xfer.evacPtr).isSome = true ∧
       (d.xc 31).st = .run ∧ (d.xc 31).ph = .moving ∧ xSrc (d.xc 31).desc = 4096 * b ∧ xDst (d.xc 31).desc = 4096 * e ∧
       (d.evacUsedOn (e / 262144)).contains e = false ∧ d.chQuar (e / 262144) = false ∧ d.retired (e / 262144) = false ∧
       tabGet (fun _ => 0) d.mem.evac e = 0 ∧ d.xCheck31 (d.xc 31).desc = none ∧ (d.xc 31).desc.length = 64 ∧
       tabGet (fun _ => 0) d.mem.evac b = 0 ∧ d.serving (placeCh (b * 4096)) = true ∧ d.mem.dErr = [] ∧ d.mem.badLink = [] ∧ d.mem.poison = [] ∧
       d.mem.lost = [] ∧ d.injArmed = false) ∧
    -- XC31 before its fetch: nothing in its memory, and the descriptor of a block
    (let d := on.modXc 31 (fun x => { x with st := .run, cur := mib - 64 })
     d.xfer.hwDesc = [] ∧ (d.xc 31).st = .run ∧ (d.xc 31).ph = .fetch ∧ (d.xc 31).cur % 64 = 0 ∧ (d.xc 31).cur < 2 ^ 20) ∧
    (let bs := copyDesc (4096 * (63 * 262144)) 4096
     let d := ({ on with xfer := { hwDesc := [(mib - 64, bs)] } } : Dev).modXc 31 (fun x => { x with st := .run, cur := mib - 64 })
     tabGet (fun _ => []) d.xfer.hwDesc (d.xc 31).cur = bs ∧ bs.length = 64 ∧ d.xCheck31 bs = none) ∧
    -- a reserve that holds what is left, and a layout of one RAW block band without EVAC
    ((layout []).mayRetire 63 = true ∧ (layout []).reserveHolds 63 = true) ∧
    (let d := layout [1, 0, 0, 0, 0, 0, 1, 0]
     d.mayRetire 63 = true ∧ d.reserveHolds 63 = false ∧ (d.evacOf 63).stuck = false ∧ (d.slicesLeft 63).head? = some (63 * 262144) ∧
       ((d.modEvac 63 (fun e => { e with stuck := true })).evacOf 63).stuck = true) ∧
    (let d : Dev := { on with
       graft := { repairBy := some 5000000000 }, boot := { flash := [(0x10008, 0), (0x10009, 0), (0x50008, 0), (0x50009, 0)] } }
     d.graft.repairBy = some 5000000000 ∧ d.repairRec = none) ∧
    (({ on with graft := { wearAt := 4000000000 } } : Dev).graft.wearAt + 1000000000 ≤ on.dt ∧
      on.dt < ({ on with graft := { wearAt := 4000000001 } } : Dev).graft.wearAt + 1000000000) ∧
    on.graft.wearHour + 3600000000000 ≤ (onClk (fun c => { c with dt := 3600000000000 })).dt := by decide +kernel

/-- A command slot image: opcode, sequence, slot, parameters, and EXPIRE_MS. -/
def cmdOf (op slot : Nat) (p : List Byte) (ms : Nat := 0) : List Byte :=
  padTo 256 (leBytes 2 op ++ [7, 0, byte slot, 0] ++ leBytes 2 p.length ++ leBytes 2 ms ++ List.replicate 6 0 ++ p)
/-- Pair `i` of owner `o` stands so. -/
def atPair (d : Dev) (o i : Nat) (x : Pair) : Dev := d.modPair o i (fun _ => x)
/-- Pair 7 of the management owner runs a command. -/
def runs (op : Nat) (p : List Byte) : Dev := atPair on 64 7 { st := .running, cmd := cmdOf op 7 p }

theorem test_wit_Mailboxes :
    (let d := atPair on 64 7 { cmd := cmdOf 0x101 7 [] }
     7 < 8 ∧ d.FullPath .mgmt ∧ pathIx .mgmt = 64 ∧ (d.pair 64 7).st = .free ∧ cmdHeaderOk (padTo 256 (d.pair 64 7).cmd) = true ∧ d.notReady 64 = false) ∧
    (let d := atPair on 64 7 { cmd := [0, 0, 0, 0, 32] }
     cmdHeaderOk (padTo 256 (d.pair 64 7).cmd) = false) ∧
    ((atPair on 64 7 { st := .done }).pair 64 7).st ≠ .free ∧
    (let d := on.modMb 64 (fun m => { m with evq := [{}], lost := 1 })
     bit (1 : Word).toNat 0 = true ∧ (d.mb 64).evq = {} :: [] ∧ (d.mb 64).lost ≠ 0 ∧ bit (0 : Word).toNat 0 = false) ∧
    ((on.modMb 64 (fun m => { m with evq := [{}] })).mb 64).lost = 0 ∧ 63 < 64 ∧
    (let b := cmdOf 0x101 7 []
     143 < 144 ∧ (rq.port 143).partner = some 63 ∧ rq.present 63 = true ∧ 16 = 16 + cmdPlen b ∧ 7 = cmdSlot b ∧ (rq.pair 63 7).st = .free ∧
       cmdHeaderOk b = true ∧ (rq.ptn 63).st = .attached ∧ rq.notReady 63 = false) ∧
    (let d := (atPair rq 63 7 { st := .running }).modMb 63 (fun m => { m with rejects := List.replicate 3 {} })
     (d.pair 63 7).st ≠ .free ∧ (d.mb 63).rejects.length < 4) ∧
    (on.port 143).partner = none := by unfold Dev.FullPath; decide

theorem test_wit_CommandStart :
    (let d := atPair on 65 7 { st := .posted, cmd := cmdOf 0x101 7 [] }
     slotOk 65 7 = true ∧ (d.pair 65 7).st = .posted ∧ d.cmdExpired 65 7 = false ∧ d.canStart 65 = true ∧ d.cmdReady 65 7 = true ∧
       d.earlierCmd 65 7 = false ∧ d.running.length < 16 ∧ d.startRefusal 65 7 = none ∧ (d.mbox.fwState = 1 ∨ d.mbox.fwState = 3)) ∧
    (let d := atPair on 65 7 { st := .posted, cmd := cmdOf 0x999 7 [] }
     d.startRefusal 65 7 = some 1 ∧ (d.pair 65 7).drop = false ∧ d.clk.move = none ∧ d.clk.mode ≠ .retain) ∧
    (let d := (atPair on 65 7 { st := .posted, cmd := cmdOf 0x101 7 [] }).modMbox (fun m => { m with fwState := 2 })
     d.canStart 65 = false) ∧
    (on.pair 65 7).st ≠ .posted ∧
    (atPair on 65 7 { st := .posted, cmd := cmdOf 0x101 7 [] 1, stamp := 4999000000 }).cmdExpired 65 7 = true ∧
    (let d := atPair on 65 7 { st := .running, cmd := cmdOf 0x101 7 [], start := 5000000000 - on.cmdLimit (cmdOf 0x101 7 []) - 1 }
     (d.pair 65 7).ovr = false ∧ (d.pair 65 7).start + d.cmdLimit (d.pair 65 7).cmd < d.dt) ∧
    (let d := on.modMbox (fun m => { m with wdog := some 5000000000 })
     d.mbox.act = .none ∧ due d.mbox.wdog d.dt = true ∧ d.mbox.fwState ≠ 4) ∧
    due on.mbox.wdog on.dt = false := by decide +kernel

/-- The opcodes of the commands that statements speak of. -/
def allOps : List Nat := [
  0x101, 0x102, 0x103, 0x105, 0x106, 0x201, 0x202, 0x301, 0x302, 0x303, 0x304, 0x305, 0x306, 0x307, 0x308, 0x401, 0x402, 0x403, 0x404,
  0x405, 0x406, 0x501, 0x502, 0x601, 0x602, 0x603, 0x604, 0x701, 0x702, 0x703, 0x704, 0x801, 0x802, 0x803, 0x901, 0x902, 0x903, 0xA01,
  0xA02, 0xA03, 0xA04, 0xA05, 0xB01, 0xB02, 0xB03, 0xB04, 0xB05, 0xC01, 0xC02, 0xC03, 0xC04, 0xC05, 0xD01, 0xD02, 0xD03, 0xD04, 0xD05,
  0xD06, 0xE01, 0xE02, 0xE03]
/-- The running device with another clock unit, and pair 7 of the management owner running a command. -/
def runsClk (f : ClkU → ClkU) (op : Nat) (p : List Byte) : Dev := (runs op p).modClk f

theorem test_wit_Ready : ∀ op, op ∈ allOps → (runs op []).Ready 64 7 op := by unfold Dev.Ready; decide

theorem test_wit_SystemQueries :
    ((runs 0x103 []).Ready 64 7 0x103 ∧ leAt ((runs 0x103 []).par 64 7) 0 1 = 0) ∧
    (let d := (runs 0x304 [1, 0, 0, 0, 0, 0, 0, 0, 2, 0]).modCfg (fun c => { c with active := { bytes := [5, 6] } })
     d.Ready 64 7 0x304 ∧ leAt (d.par 64 7) 0 1 = 1 ∧ leAt (d.par 64 7) 4 4 + leAt (d.par 64 7) 8 2 ≤ d.cfg.active.bytes.length) ∧
    (let d := (runs 0x304 [0, 0, 0, 0, 0, 0, 0, 0, 1, 0]).modCfg (fun c => { c with staged := { present := true, bytes := [5] } })
     d.Ready 64 7 0x304 ∧ leAt (d.par 64 7) 0 1 = 0 ∧ d.cfg.staged.present = true) ∧
    (leAt ((runs 0x304 [2]).par 64 7) 0 1 = 2) ∧
    (let d := (runs 0x405 [143]).setCsr 143 bPort 0x10 0xB43
     d.Ready 64 7 0x405 ∧ leAt (d.par 64 7) 0 1 = 143 ∧ d.portWidth 143 ≠ 0) ∧
    ((runs 0x405 [143]).Ready 64 7 0x405 ∧ (runs 0x405 [143]).portWidth 143 = 0) := by unfold Dev.Ready; decide

theorem test_wit_UnitQueries :
    (let d := runs 0x703 (leBytes 4 131071)
     d.Ready 64 7 0x703 ∧ d.queueHolds 64 7 false = false ∧ d.mem.sErr = []) ∧
    (let d := atPair ((runs 0x703 (leBytes 4 131071)).modTxn (fun t => { t with reqs := [{ id := 1, ord := 1, opc := .qstatus, addr := 131071 }] }))
       64 7 { st := .running, cmd := cmdOf 0x703 7 (leBytes 4 131071), ord := 2 }
     d.queueHolds 64 7 false = true ∧ slotOk 64 7 = true) ∧
    (let d := { runs 0x802 (leBytes 8 7) with reg := { rsv := [{ chipid := 7 }] } }
     d.Ready 64 7 0x802 ∧ d.reg.rsv.any (fun e => e.chipid == (if leAt (d.par 64 7) 0 8 = 0 then (d.ptn 64).chipid else leAt (d.par 64 7) 0 8)) = true) ∧
    (runs 0x802 (leBytes 8 7)).reg.rsv.any (fun e => e.chipid == 7) = false ∧
    ((runs 0x803 []).cfg.checked = false ∧ ((runs 0x803 []).modCfg (fun c => { c with checked := true })).Ready 64 7 0x803) ∧
    (let d := (runs 0x803 []).modCfg (fun c => { c with checked := true })
     ((imgRsvs d.cfg.staged.bytes (d.capacity (imgShare d.cfg.staged.bytes)).2.2).map (·.b)).sum ≤ (d.capacity (imgShare d.cfg.staged.bytes)).1) ∧
    (((on.modSensor 159 (fun _ => { broken := true })).sensor 159).broken = true ∧ (on.sensor 159).broken = false ∧
      (on.layer (sensorLayer 159)).suspect = false) ∧
    (let d := runs 0x903 ([1, 0, 0, 0] ++ leBytes 4 0 ++ [7])
     d.Ready 64 7 0x903 ∧ d.teleNext 1 ≤ max (leAt (d.par 64 7) 4 4) (d.teleNext 1 - ringSize 1)) ∧
    (let d := (runs 0x903 ([1, 0, 0, 0] ++ leBytes 4 0 ++ [7])).tele 1 []
     d.Ready 64 7 0x903 ∧ leAt (d.par 64 7) 0 1 = 1 ∧ max (leAt (d.par 64 7) 4 4) (d.teleNext 1 - ringSize 1) < d.teleNext 1 ∧
       (∀ e, e ∈ d.telem.ring → e.2.bad = false)) ∧
    ((runs 0xB01 [63]).Ready 64 7 0xB01 ∧ leAt ((runs 0xB01 [63]).par 64 7) 0 1 < 64 ∧ 64 ≤ leAt ((runs 0xB01 [64]).par 64 7) 0 1) := by
  unfold Dev.Ready; decide +kernel

theorem test_wit_SystemCommands :
    (let d := runs 0x103 ([1, 0] ++ leBytes 2 on.pin.vreq)
     d.Ready 64 7 0x103 ∧ leAt (d.par 64 7) 0 1 = 1 ∧ leAt (d.par 64 7) 2 2 = d.pin.vreq ∧
       leAt ((runs 0x103 [1, 0, 0, 0]).par 64 7) 2 2 ≠ d.pin.vreq) ∧
    (∀ b, b ∈ [0x18, 0x20, 0x30, 8, 9, 7] → (runs 0x105 [byte b]).Ready 64 7 0x105 ∧ leAt ((runs 0x105 [byte b]).par 64 7) 0 1 = b) ∧
    ((on.phyRuns 63 = true ∧ on.serving 63 = true ∧ (on.ch 63).st ≠ .selfref) ∧ (atCh { failed := true }).serving 63 = false ∧
      held.phyRuns 63 = false ∧ (on.modOct 17 (fun o => { o with pllOn := true })).octRuns 17 = true ∧ on.octRuns 17 = false) ∧
    (((on.modXc 31 (fun _ => { st := .run })).xc 31).st = .run ∧ (on.xc 31).st ≠ .run ∧ (on.xc 31).st ≠ .chainWait) ∧
    (∀ k, k < 144 → (on.port k).partner = none) ∧ (∀ l, l < 144 → (on.lane l).st ≠ .active) ∧
    ((on.port 143).st = .off ∧ (atPort 143 { st := .hold, resume := true }).port 143 = { st := .hold, resume := true }) ∧
    ((runs 0x106 []).Ready 64 7 0x106) ∧
    (let d := onClk (fun c => { c with crstAt := some 5000000000 })
     due d.clk.crstAt d.dt = true ∧ d.therm.shut = false ∧ due on.clk.crstAt on.dt = false) ∧
    (let d := runsClk (fun c => { c with mode := .maint }) 0x202 []
     d.Ready 64 7 0x202 ∧ d.clk.mode = .maint ∧ d.clk.hold = false ∧ d.drained true = true ∧
       (d.modTxn (fun t => { t with acc := [accRd] })).drained true = false) ∧
    (let d := { on with otp := { present := 2 ^ 21 } }
     bit d.otp.present 21 = true ∧ d.otp.unst = [] ∧ ({} : Fuses).a = ({} : Fuses).b) := by unfold Dev.Ready; decide +kernel
theorem test_wit_SystemCommands_alone : (runsClk (fun c => { c with mode := .maint }) 0x202 []).RunsAlone 64 7 := by
  have h : ∀ p, p < 66 → ∀ j, j < 8 → ((runsClk (fun c => { c with mode := .maint }) 0x202 []).pair p j).st = .running → (p, j) = (64, 7) := by
    decide +kernel
  exact fun p j hp hj => h p hp j hj

theorem test_wit_ModeTransitions :
    (runs 0x201 [2]).Ready 64 7 0x201 ∧ modeOf (leAt ((runs 0x201 [2]).par 64 7) 0 1) = on.clk.mode ∧
    -- SERVICE to MAINT, and a sleep while a commit waits for its confirm
    (modeOf (leAt ((runs 0x201 [1]).par 64 7) 0 1) = .maint ∧ moveAllowed on.clk.mode .maint = false) ∧
    (Mode.sleeps .retain = true ∧ (on.modCfg (fun c => { c with st := .pending })).cfg.st = .pending) ∧
    (let d := runsClk (fun c => { c with mode := .drain }) 0x201 [2]
     d.Ready 64 7 0x201 ∧ d.clk.mode = .drain ∧ modeOf (leAt (d.par 64 7) 0 1) = .service ∧ d.otp.chipid = 0) ∧
    (let d := { runsClk (fun c => { c with mode := .maint }) 0x201 [2] with otp := { chipid := 2 ^ 64 - 2 } }
     d.Ready 64 7 0x201 ∧ d.clk.mode = .maint ∧ d.otp.chipid ≠ 0 ∧ d.otp.chipid ≠ 2 ^ 64 - 1 ∧ d.clk.censusOff = true ∧
       (d.modClk (fun c => { c with censusOff := false })).clk.censusOff = false) ∧
    (let d := runs 0x201 [3]
     d.clk.mode = .service ∧ modeOf (leAt (d.par 64 7) 0 1) = .drain ∧ d.qm.parks = [] ∧
       -- the same with the programming window open and VPROG up
       ({ d with otp := { win := some 7 }, pin := { d.pin with vprogUp := true } } : Dev).otp.win ≠ none ∧
       ({ d with otp := { win := some 7 }, pin := { d.pin with vprogUp := true } } : Dev).pin.vprogBad = false) ∧
    (let d := (rqXc { st := .chainWait, owner := some 63 })
     30 < 31 ∧ (d.xc 30).owner = some 63 ∧ (d.xc 30).st = .chainWait) ∧
    (let d := runsClk (fun c => { c with mode := .drain }) 0x201 [1]
     d.Ready 64 7 0x201 ∧ modeOf (leAt (d.par 64 7) 0 1) = .maint ∧ d.drained false = true ∧
       (d.modTxn (fun t => { t with acc := [accRd] })).drained false = false) := by
  unfold Dev.Ready; decide
theorem test_wit_ModeTransitions_waits :
    (let d := runsClk (fun c => { c with mode := .drain }) 0x201 [5]
     modeOf (leAt (d.par 64 7) 0 1) = .retain ∧ d.cfg.st ≠ .pending ∧ d.drained true = true ∧ d.serving 63 = true ∧ (d.ch 63).st ≠ .selfref) ∧
    (let m : Move := { from_ := .drain, tgt := .maint, ph := .draining, pair := some 519, by_ := some 5000000000 }
     let d := runsClk (fun c => { c with move := some m, mode := .drain }) 0x201 [1]
     d.clk.move = some m ∧ m.pair = some 519 ∧ 64 = 519 / 8 ∧ 7 = 519 % 8 ∧ (d.pair 64 7).st = .running ∧ (d.pair 64 7).drop = false ∧
       d.clk.mode ≠ .retain ∧ 64 < 66 ∧ due m.by_ d.dt = true ∧ m.ph ≠ .entering ∧ m.shutdown = false ∧ d.clk.hold = false ∧
       d.cfg.back = false ∧ d.drained false = true) ∧
    (let m : Move := { from_ := .drain, tgt := .service, ph := .entering, pair := some 519, by_ := some 5000000000 }
     due m.by_ on.dt = true ∧ m.ph = .entering ∧ due (some 5000000001) on.dt = false) ∧ on.clk.move = none := by
  decide
theorem test_wit_ModeTransitions_may : (runsClk (fun c => { c with mode := .drain }) 0x201 [1]).MaySwitch 64 7 :=
  by
  have h : ∀ p, p < 66 → ∀ j, j < 8 → ((runsClk (fun c => { c with mode := .drain }) 0x201 [1]).pair p j).st = .running → (p, j) = (64, 7) := by
    decide +kernel
  exact ⟨by unfold Dev.Ready; decide, by decide, fun p j hp hj => h p hp j hj⟩

theorem test_wit_Staging :
    (let d := runs 0x301 (leBytes 4 1 ++ leBytes 4 7696)
     d.Ready 64 7 0x301 ∧ d.cfgBusy = false ∧ d.sesOther 64 = false) ∧
    (let d := (atPair on 65 7 { st := .running, cmd := cmdOf 0x301 7 [] }).modCfg (fun c => { c with session := some 64 })
     d.Ready 65 7 0x301 ∧ d.sesOther 65 = true ∧ 65 ≠ 64) ∧
    (let d := (runs 0x302 (leBytes 4 1 ++ leBytes 4 1 ++ [9])).modCfg (fun c => { c with session := some 64, staged := { bytes := [0, 0] } })
     d.Ready 64 7 0x302 ∧ d.cfg.session = some 64 ∧ leAt (d.par 64 7) 0 4 + ((d.par 64 7).drop 8).length ≤ d.cfg.staged.bytes.length) ∧
    ((runs 0x302 []).cfg.session = none ∧ ((runs 0x302 []).modCfg (fun c => { c with session := some 65 })).sesOther 64 = true) ∧
    (let d := (runs 0x303 (leBytes 4 (crc32 [7]))).modCfg (fun c => { c with
       session := some 64, sesLen := 1, sesBytes := [(0, 1)], staged := { bytes := [7] } })
     d.Ready 64 7 0x303 ∧ d.cfg.session = some 64 ∧ d.cfg.sesBytes.length = d.cfg.sesLen ∧ crc32 d.cfg.staged.bytes = leAt (d.par 64 7) 0 4 ∧
       d.cfg.sesBytes.length ≠ 2) := by unfold Dev.Ready; decide +kernel

/-- Byte `i` of an image with generation 1, no region, no table, SHARE 30, profiles with a park time of 1 µs, and nothing else. -/
def plainByte (i : Nat) : Byte :=
  if i = 8 then 1 else if i = 0xE00 then 30 else if 0x2E10 ≤ i ∧ i < 0x3E10 ∧ (i - 0x2E10) % 16 = 8 then 1 else 0
def plainImg : List Byte := (List.range 16208).map plainByte

theorem slice_map_range (f : Nat → Byte) (n o k : Nat) (h : o + k ≤ n) : slice ((List.range n).map f) o k = (List.range k).map (fun j => f (o + j)) := by
  have e : (((List.range n).map f).drop o).take k = (List.range k).map (fun j => f (o + j)) := by
    apply List.ext_getElem
    · simp; omega
    · intro i _ _; simp
  rw [slice, e]; simp
theorem slice_plain (o k : Nat) (h : o + k ≤ 16208) : slice plainImg o k = (List.range k).map (fun j => plainByte (o + j)) := slice_map_range _ _ _ _ h
theorem slice_plain_zero (o k : Nat) (h : o + k ≤ 16208) (z : ∀ j, j < k → plainByte (o + j) = 0) : slice plainImg o k = List.replicate k 0 := by
  rw [slice_plain o k h]
  apply List.ext_getElem
  · simp
  · intro i hi _; simp at hi; simp [z i hi]
theorem plainImg_ne : plainImg.isEmpty = false := by
  have l : plainImg.length = 16208 := by rw [plainImg, List.length_map, List.length_range]
  cases h : plainImg with
  | nil => rw [h] at l; cases l
  | cons _ _ => rfl
theorem plain_region (n : Nat) (h : n < 32) : imgRegion plainImg n = parseRegion (List.replicate 16 0) := by
  rw [imgRegion, plainImg_ne, slice_plain_zero _ _ (by omega) (by intro j _; unfold plainByte; split <;> (try omega); split <;> (try omega); split <;> first | omega | rfl)]
  rfl
theorem plain_td (n : Nat) (h : n < 64) : imgTd plainImg n = List.replicate 64 0 := by
  rw [imgTd, plainImg_ne, slice_plain_zero _ _ (by omega) (by intro j _; unfold plainByte; split <;> (try omega); split <;> (try omega); split <;> first | omega | rfl)]
  rfl
theorem plain_rsv (n : Nat) (h : n < 256) : slice plainImg (0xE10 + 16 * n) 16 = List.replicate 16 0 :=
  slice_plain_zero _ _ (by omega) (by intro j _; unfold plainByte; split <;> (try omega); split <;> (try omega); split <;> first | omega | rfl)
theorem plain_profile (n : Nat) (h : n < 256) : (imgProfile plainImg n).parkUs = 1 := by
  have e : slice plainImg (0x2E10 + 16 * n) 16 = [0, 0, 0, 0, 0, 0, 0, 0, 1, 0, 0, 0, 0, 0, 0, 0] := by
    rw [slice_plain _ _ (by omega)]
    apply List.ext_getElem
    · simp
    · intro i hi _
      simp only [List.length_map, List.length_range] at hi
      simp only [List.getElem_map, List.getElem_range]
      unfold plainByte
      rw [if_neg (by omega), if_neg (by omega)]
      by_cases k : i = 8
      · subst k; rw [if_pos ⟨by omega, by omega, by omega⟩]; rfl
      · rw [if_neg (by omega)]
        have : i = 0 ∨ i = 1 ∨ i = 2 ∨ i = 3 ∨ i = 4 ∨ i = 5 ∨ i = 6 ∨ i = 7 ∨ i = 9 ∨ i = 10 ∨ i = 11 ∨ i = 12 ∨ i = 13 ∨ i = 14 ∨ i = 15 := by omega
        rcases this with h | h | h | h | h | h | h | h | h | h | h | h | h | h | h <;> subst h <;> rfl
  simp only [imgProfile, plainImg_ne]; rw [e]; rfl
theorem recordsBad_none (img : List Byte) (r1 : (List.range 32).find? (regionBad img) = none)
    (r2 : (List.range 64).find? (fun n => !tdValid img (imgTd img n)) = none) (r3 : queueBad img = none) (r4 : regBad img = none) :
    recordsBad img = none := by unfold recordsBad; rw [r1, r2, r3, r4]; rfl
theorem plain_records : recordsBad plainImg = none := by
  have r1 : (List.range 32).find? (regionBad plainImg) = none := by
    rw [List.find?_eq_none]; intro n hn; simp only [List.mem_range] at hn
    have t0 : ((imgRegion plainImg n).type != 0) = false := by rw [plain_region n hn]; rfl
    simp only [regionBad, t0, Bool.false_and, Bool.false_eq_true, not_false_eq_true]
  have r2 : (List.range 64).find? (fun n => !tdValid plainImg (imgTd plainImg n)) = none := by
    rw [List.find?_eq_none]; intro n hn; simp only [List.mem_range] at hn
    have k : (tdKind (imgTd plainImg n) == 0) = true := by rw [plain_td n hn]; rfl
    simp only [tdValid, k, Bool.true_or, Bool.not_true, Bool.false_eq_true, not_false_eq_true]
  have a : imgAssigns plainImg = 0 := by
    simp only [imgAssigns, plainImg_ne, leAt]; rw [slice_plain_zero 16 2 (by omega) (by decide)]; rfl
  have r3 : queueBad plainImg = none := by
    have p : (List.range 256).find? (fun n => let p := (imgProfile plainImg n).parkUs; decide (p < 1 ∨ 524 < p)) = none := by
      rw [List.find?_eq_none]; intro n hn; simp only [List.mem_range] at hn; simp [plain_profile n hn]
    have l : plainImg.length = 16208 := by rw [plainImg, List.length_map, List.length_range]
    unfold queueBad; rw [a, p, l]; rfl
  have sh : imgShare plainImg = 30 := by
    simp only [imgShare, plainImg_ne, leAt]; rw [slice_plain 0xE00 2 (by omega)]; rfl
  have r4 : regBad plainImg = none := by
    have z : zeroAt plainImg 0xE02 14 = true := by
      rw [zeroAt, slice_plain_zero _ _ (by omega) (by decide)]; rfl
    have v : (List.range 256).find? (rsvBad plainImg) = none := by
      rw [List.find?_eq_none]; intro n hn; simp only [List.mem_range] at hn
      have iv : (imgRsv plainImg n).valid = false := by simp only [imgRsv, plainImg_ne]; rw [plain_rsv n hn]; rfl
      have az : allZero (slice plainImg (0xE10 + 16 * n) 16) = true := by rw [plain_rsv n hn]; rfl
      simp only [rsvBad, iv, az, Bool.false_eq_true, if_false, Bool.not_true, not_false_eq_true]
    unfold regBad; rw [sh, z, v]; simp
  exact recordsBad_none _ r1 r2 r3 r4
theorem admission_none (d : Dev) (img : List Byte) (h : ∀ n, imgRsvs img n = []) : (d.admission img).1 = true := by
  simp [Dev.admission, h]
theorem plain_rsvs (n : Nat) : imgRsvs plainImg n = [] := by
  have h : ∀ k, k < 256 → (imgRsv plainImg k).valid = false := by
    intro k hk; simp only [imgRsv, plainImg_ne]; rw [plain_rsv k hk]; rfl
  unfold imgRsvs
  generalize plainImg = p at *
  simp_all
theorem layoutLimit_empty (d : Dev) (old new : List Byte) (h : d.qm.cellFree = d.qm.cellTotal) (k : d.qm.descFree = d.qm.descTotal) :
    d.layoutLimit old new = none := by
  simp [Dev.layoutLimit, h, k]

/-- A device told to commit STAGED, and a device in MAINT that holds a checked STAGED of generation 1. -/
def commitsOf (img : List Byte) : Dev := (runsClk (fun c => { c with mode := .maint }) 0x306 [1]).modCfg (fun c => { c with
  checked := true, staged := { present := true, gen := 1, bytes := img } })
theorem commitRefusal_none (img : List Byte) : (commitsOf img).commitRefusal 64 7 = none := by
  have l : (commitsOf img).layoutLimit (commitsOf img).image img = none := layoutLimit_empty _ _ _ rfl rfl
  have a : leAt ((commitsOf img).par 64 7) 0 4 = 1 := by
    rw [show (commitsOf img).par 64 7 = (runs 0x306 [1]).par 64 7 from rfl]; decide
  unfold Dev.commitRefusal
  rw [a, show (commitsOf img).cfg.staged.bytes = img from rfl]; dsimp only; rw [l]; rfl
theorem commitTest_none (img : List Byte) (r : recordsBad img = none) (h : ∀ n, imgRsvs img n = []) : (commitsOf img).commitTest = none := by
  unfold Dev.commitTest
  rw [show (commitsOf img).cfg.staged.bytes = img from rfl, r]; simp [admission_none _ _ h]
theorem commitsOf_ready (img : List Byte) : (commitsOf img).Ready 64 7 0x306 := by
  have h : (runsClk (fun c => { c with mode := .maint }) 0x306 [1]).Ready 64 7 0x306 := by unfold Dev.Ready; decide
  exact h
theorem test_wit_CommitAndRollback_commit :
    (commitsOf plainImg).Ready 64 7 0x306 ∧ (commitsOf plainImg).clk.mode = .maint ∧ (commitsOf plainImg).qm.shrink = none ∧
    (commitsOf plainImg).qm.moving = false ∧
    (∀ n, ((commitsOf plainImg).port n).partner = none) ∧ (commitsOf plainImg).cfg.st ≠ .committing ∧
    (commitsOf plainImg).commitRefusal 64 7 = none ∧ (commitsOf plainImg).commitTest = none :=
  ⟨commitsOf_ready _, rfl, rfl, rfl, fun _ => rfl, (fun h => by cases h), commitRefusal_none _, commitTest_none _ plain_records plain_rsvs⟩
/-- A device in MAINT that runs command `op`, with its configuration unit changed. -/
def mtCfg (op : Nat) (p : List Byte) (f : CfgU → CfgU) : Dev := (runsClk (fun c => { c with mode := .maint }) op p).modCfg f
theorem test_wit_CommitAndRollback :
    (let d := mtCfg 0x306 [1] (fun c => { c with checked := true, staged := { gen := 1 } })
     d.commitRefusal 64 7 = none ∧ d.commitTest = some (0x303, [3, 0, 0xFF, 0xFF, 0, 0, 0, 0])) ∧
    (mtCfg 0x306 [1] id).commitRefusal 64 7 = some 0x30C ∧
    (let d := mtCfg 0x307 [1] (fun c => { c with st := .pending, active := { gen := 1 }, deadline := 1 })
     d.Ready 64 7 0x307 ∧ d.cfg.st = .pending ∧ leAt (d.par 64 7) 0 4 = d.cfg.active.gen ∧ (d.pair 64 7).stamp < d.cfg.deadline) ∧
    (let d := mtCfg 0x307 [1] (fun c => { c with st := .pending, active := { gen := 1 } })
     d.cfg.deadline ≤ (d.pair 64 7).stamp) ∧
    (let d := mtCfg 0x308 [] (fun c => { c with previous := { present := true } })
     d.Ready 64 7 0x308 ∧ d.cfg.st ≠ .rollingBack ∧ d.cfg.st ≠ .committing ∧ d.cfg.previous.present = true) ∧
    ((mtCfg 0x308 [] id).cfg.previous.present = false ∧ (mtCfg 0x308 [] (fun c => { c with st := .committing })).cfg.st = .committing) ∧
    ((onClk (fun c => { c with mode := .maint })).modCfg (fun c => { c with st := .pending, deadline := 5000000000 })).autoDue = true ∧
    ((mtCfg 0x308 [] id).autoDue = false ∧ (mtCfg 0x308 [] id).cfg.st ≠ .rollingBack) := by unfold Dev.Ready; decide +kernel

set_option maxRecDepth 8000 in
theorem test_wit_LinkCommands :
    (let d := atPair rq 63 7 { st := .running, cmd := cmdOf 0x402 7 [] }
     d.Ready 63 7 0x402 ∧ 63 < 64 ∧ (d.ptn 63).st = .attached ∧ d.qm.parks = [] ∧ (∀ j, j < 8 → (d.pair 63 j).drop = false)) ∧
    (let d := atPair on 63 7 { st := .running, cmd := cmdOf 0x402 7 [] }
     d.Ready 63 7 0x402 ∧ (d.ptn 63).st ≠ .attached) ∧
    (let d := runs 0x403 [63]
     d.Ready 64 7 0x403 ∧ leAt (d.par 64 7) 0 1 = 63 ∧ (d.pair 64 7).wait = false ∧ (d.ptn 63).st = .free ∧
       ((d.modPtn 63 (fun _ => { st := .reclaim })).ptn 63).st = .reclaim ∧
       (d.modPtn 63 (fun _ => { st := .attached })).present 63 = true ∧ (∀ m, m < 144 → (d.port m).partner ≠ some 63)) ∧
    ((atPair on 64 7 { st := .running, cmd := cmdOf 0x403 7 [63], wait := true }).Ready 64 7 0x403 ∧
      ((atPair on 64 7 { st := .running, cmd := cmdOf 0x403 7 [63], wait := true }).pair 64 7).wait = true) := by
  unfold Dev.Ready; decide +kernel
theorem test_wit_LinkCommands_lanes :
    (let d := (runs 0x406 [143]).setCsr 143 bPort 0x10 0xB43
     let e := d.modPort 143 (fun _ => { st := .up })
     d.Ready 64 7 0x406 ∧ leAt (d.par 64 7) 0 1 = 143 ∧ d.portWidth 143 ≠ 0 ∧ (d.port 143).st = .off ∧ (e.port 143).st = .up ∧ e.NoBond ∧
       (runs 0x406 [143]).portWidth 143 = 0) ∧
    (let d := (runs 0x502 [143]).setCsr 136 bLane 0x10 1
     d.Ready 64 7 0x502 ∧ leAt (d.par 64 7) 0 1 = 143 ∧ (d.pair 64 7).wait = false ∧ d.prbsMay 143 = true ∧ (d.lane 143).job = none) ∧
    (runs 0x502 [143]).prbsMay 143 = false ∧
    (let j : PrbsJob := { pair := 519, by_ := 5000000000 }
     let d := (runs 0x502 [143]).modLane 143 (fun _ => { job := some j })
     (d.lane 143).job = some j ∧ 64 = j.pair / 8 ∧ 7 = j.pair % 8 ∧ j.by_ ≤ d.dt ∧ d.dt < 5000000001) := by
  unfold Dev.Ready Dev.NoBond; decide +kernel
theorem test_wit_LinkCommands_noPort : ∀ m, ((runs 0x403 [63]).port m).partner ≠ some 63 := fun _ h => by cases h
theorem test_wit_LinkCommands_alone : ∀ j, j < ((runs 0x406 [143]).setCsr 143 bPort 0x10 0xB43).portWidth 143 →
    ((runs 0x406 [143]).setCsr 143 bPort 0x10 0xB43).LaneAlone (143 + j) := by
  intro j hj
  have w : ((runs 0x406 [143]).setCsr 143 bPort 0x10 0xB43).portWidth 143 = 1 := by decide
  rw [w] at hj; obtain rfl : j = 0 := by omega
  exact alone_of_off (m := 143) (by decide) (by decide)

/-- An image with one TABLE region in stack SRAM, whose table 0 has 16 buckets of 16-byte entries (R202); and one with a trie (R208). -/
def tableImg (td : List Byte) : List Byte :=
  List.replicate 0x40 0 ++ [0x0A, 0, 0, 0, 0, 0, 128, 0] ++ List.replicate (0x1E10 - 0x48) 0 ++ td
def emTd (ro : Byte) : List Byte :=
  [1 + ro, 4, 8, 0] ++ leBytes 5 0x1000000000 ++ [0, 0, 0] ++ leBytes 4 16 ++ leBytes 4 1 ++ leBytes 4 2
def lpmTd : List Byte := [2, 4, 0, 1] ++ leBytes 5 0x1000000000 ++ [0, 0, 0] ++ leBytes 4 1 ++ [8]
/-- The device has request 1, a table operation on that table whose step has been issued, and `bs` stands at `b` in stack SRAM. -/
def opDev (opc : Opc) (td data : List Byte) (b : Nat) (bs : List Byte) : Dev :=
  ((withReq { id := 1, opc := opc, ptn := 63, data := data, td := padTo 64 td, node := tdBase td, ctx := true, st := .issued, begun := true }).modCfg
    (fun c => { c with active := { bytes := tableImg td } })).writeSram b (offsets bs)
def opReq (d : Dev) : Req := (d.req? 1).getD {}
/-- Pair 7 of the management owner runs a table command on that table. -/
def tableDev (td : List Byte) (op : Nat) (p : List Byte) : Dev :=
  (runs op ([0, 0, 0, 0] ++ p)).modCfg (fun c => { c with active := { bytes := tableImg td } })
def key4 : List Byte := [1, 2, 3, 4]
def emB : Nat × Nat := emBuckets (padTo 64 (emTd 0)) key4
theorem test_wit_TableCommands_form :
    (let t := padTo 64 (emTd 0)
     tdKind t = 1 ∧ tdRo t = false ∧ tdRo (padTo 64 (emTd 8)) = true ∧ tdKind lpmTd ≠ 1 ∧ tdKind (List.replicate 64 0) ≠ 2 ∧ emEntry t = 16 ∧
       emB.1 % 64 = 0 ∧ emB.2 % 64 = 0 ∧ inSram emB.1 = true ∧ inSram emB.2 = true ∧ tdBase t % 64 = 0 ∧ 15 + 1 ≤ tdCount t ∧ tdCount t < 15 + 2) := by
  decide +kernel
set_option maxRecDepth 40000 in
theorem test_wit_TableCommands :
    -- a command an engine takes, one on a read-only table, one on another kind, and one that has its outcome
    (let d := tableDev (emTd 0) 0x601 (key4 ++ leBytes 8 0)
     d.Ready 64 7 0x601 ∧ (d.pair 64 7).wait = false ∧ tdKind (d.td 0) = 1 ∧ tdRo (d.td 0) = false ∧ leAt (d.par 64 7) 0 1 = 0) ∧
    (tdRo ((tableDev (emTd 8) 0x602 key4).td 0) = true ∧ tdKind ((tableDev lpmTd 0x603 key4).td 0) = 2 ∧ tdKind ((runs 0x603 []).td 0) = 0) ∧
    (let d := (tableDev (emTd 0) 0x603 key4).modPair 64 7 (fun p => { p with wait := true, eng := some (0, [1]) })
     d.Ready 64 7 0x603 ∧ (d.pair 64 7).wait = true ∧ (d.pair 64 7).eng = some (0, [1])) ∧
    -- a scan of the last bucket: before it, and after it
    (let d := tableDev (emTd 0) 0x604 (leBytes 4 15 ++ leBytes 4 1)
     let a := tdBase (d.td 0) + 64 * 15
     d.Ready 64 7 0x604 ∧ leAt (d.par 64 7) 4 4 = 15 ∧ leAt (d.par 64 7) 8 4 = 1 ∧ (d.pair 64 7).scanAt 0 = 0 ∧ tdKind (d.td 0) = 1 ∧
       15 + 1 ≤ tdCount (d.td 0) ∧ tdCount (d.td 0) < 15 + 2 ∧ d.txn.comps = [] ∧ emEntry (d.td 0) = 16 ∧ tdBase (d.td 0) % 64 = 0 ∧ inSram a = true ∧
       (d.placeAt a).map (·.2) = some a ∧ d.earlier d.txn.nextOrd (placeUnit a) = false ∧ d.mem.sErr = [] ∧
       1 ≤ ((d.modPair 64 7 (fun p => { p with wait := true, work := [1, 0, 0, 1, 0] })).pair 64 7).scanAt 0) := by
  unfold Dev.Ready; decide +kernel

set_option maxRecDepth 40000 in
theorem test_wit_TableCommands_entry :
    let hit := [1, 0, 0, 0] ++ key4 ++ [9]
    let t := padTo 64 (emTd 0)
    let d := opDev .emLookup (emTd 0) key4 emB.2 hit
    let r := opReq d
    let es := bucketEntries t emB.1 (d.sramBytes emB.1 64) ++ bucketEntries t emB.2 (d.sramBytes emB.2 64)
    d.req? 1 = some r ∧ r.td = t ∧ r.data.take (tdKsize t) = key4 ∧ d.mem.sErr = [] ∧ d.injArmed = false ∧ r.ctx = true ∧ r.ready = false ∧
      r.st = .issued ∧ r.begun = true ∧ r.spend = 0 ∧ r.sdata = [] ∧ d.streamBlocked r = false ∧ emEntry t = 16 ∧ emBuckets t key4 = emB ∧ emB.1 ≠ emB.2 ∧
      (d.placeAt emB.1).map (·.2) = some emB.1 ∧ (d.placeAt emB.2).map (·.2) = some emB.2 ∧ d.earlier r.ord (placeUnit emB.1) = false ∧
      d.earlier r.ord (placeUnit emB.2) = false ∧ emFind t key4 es = some (emB.2, padTo 16 hit) ∧
      es.find? (fun x => !bit (leAt x.2 0 1) 0) = some (emB.1, List.replicate 16 0) ∧
      (let e := opDev .emDelete (emTd 0) key4 emB.2 []
       emFind t key4 (bucketEntries t emB.1 (e.sramBytes emB.1 64) ++ bucketEntries t emB.2 (e.sramBytes emB.2 64)) = none) := by decide +kernel

set_option maxRecDepth 40000 in
theorem test_wit_TableCommands_trie :
    let t := padTo 64 lpmTd
    let d := opDev .lpmLookup lpmTd [255, 0, 0, 0] (0x1000000000 + 8 * 255 / 64 * 64) (List.replicate 56 0 ++ leBytes 8 (2 ^ 63))
    let r := opReq d
    let a := tdBase t + 8 * keyBits r.data 0 (tdStride t 1)
    d.req? 1 = some r ∧ r.td = t ∧ r.step = 0 ∧ r.pos = 0 ∧ r.bestV = false ∧ r.best = 0 ∧ r.blen = 0 ∧ r.node = tdBase t ∧
      a = 0x1000000000 + 8 * 255 ∧ a % 8 = 0 ∧ inSram a = true ∧ (d.placeAt (a / 64 * 64)).map (·.2) = some (a / 64 * 64) ∧
      d.earlier r.ord (placeUnit (a / 64 * 64)) = false ∧ leAt (d.sramBytes a 8) 4 4 = 2 ^ 31 ∧ bit (leAt (d.sramBytes a 8) 4 4) 30 = false := by
  decide +kernel

theorem test_wit_QueueCommands :
    (let d := (runs 0x701 (leBytes 4 131071)).modQueue 131071 (fun _ => { frozen := true })
     d.Ready 64 7 0x701 ∧ leAt (d.par 64 7) 0 4 = 131071 ∧ d.mem.sErr = [] ∧ d.injArmed = false ∧ d.queueHolds 64 7 true = false ∧ (d.queue 131071).frozen = true ∧
       (d.queue 0).frozen = false) ∧
    (let d := atPair (on.modQm (fun q => { q with opens := [{ id := 1, q := 131071, ord := 1 }] })) 64 7
       { st := .running, cmd := cmdOf 0x701 7 (leBytes 4 131071), ord := 2 }
     d.queueHolds 64 7 true = true ∧ d.queueHolds 64 7 false = false) ∧
    (let z : Queue := { occ := 2, mid := [(9, [])], frozen := true }
     let d := (runs 0x702 []).modQm (fun q => { q with queue := [(131071, z)], cellUsed := [4, 5], unitUsed := [9] })
     d.Ready 64 7 0x702 ∧ d.txn.reqs = [] ∧ d.qm.opens = [] ∧ d.unitsInUse = [] ∧ d.qm.queue = [(131071, z)] ∧ z.frozen = true ∧
       d.qm.cellUsed.length = z.occ ∧ d.qm.unitUsed.length = z.mid.length ∧ [4].length ≠ z.occ ∧
       on.qm.queue = [] ∧ on.qm.cellUsed = [] ∧ on.qm.unitUsed = []) := by unfold Dev.Ready; decide +kernel

/-- Pair 7 of the management owner runs command `op` while source `n` stands so. -/
def runsSrc (op : Nat) (p : List Byte) (n : Nat) (x : Source) : Dev := (runs op p).modSrc n (fun _ => x)
theorem test_wit_FaultCommands :
    ((runs 0x901 []).Ready 64 7 0x901 ∧ on.clk.mode ≠ .boot ∧ on.FirstAt 10 2) ∧
    (let d := runsSrc 0xA02 [255] 255 { held := true, esc := some 1 }
     d.Ready 64 7 0xA02 ∧ leAt (d.par 64 7) 0 1 = 255 ∧ (d.src 255).esc = some 1 ∧ (d.pair 64 7).stamp < 1 ∧ (d.src 255).held = true ∧
       (d.src 254).held = false ∧ (d.src 254).esc = none) ∧
    (let d := runsSrc 0xA02 [255] 255 { held := true, esc := some 0 }
     (d.src 255).esc = some 0 ∧ 0 ≤ (d.pair 64 7).stamp ∧ 0 ≤ d.dt ∧ bit (d.reactOf 255) 2 = false ∧ bit (d.reactOf 255) 3 = false) ∧
    (let d := runsSrc 0xA02 [45] 45 { held := true }
     leAt (d.par 64 7) 0 1 = 45 ∧ (d.src 45).held = true ∧ (d.src 45).esc = none) ∧
    (leAt ((runs 0xA03 ([255, 1] ++ leBytes 2 60000)).par 64 7) 2 2 = 60000 ∧ reactForbidden 255 1 60000 = false ∧ reactForbidden 255 1 60001 = true) ∧
    leAt ((runs 0xA04 [255]).par 64 7) 0 1 ≠ 162 ∧
    (on.pinsOn = true ∧ ((runs 0xA05 [1]).Ready 64 7 0xA05 ∧ ({ runs 0xA05 [1] with pin := {} } : Dev).pinsOn = false) ∧
      5000000000 ≤ on.dt ∧ leAt ((runs 0xA05 [1]).par 64 7) 0 1 = 1 ∧ leAt ((runs 0xA05 [0]).par 64 7) 0 1 = 0 ∧ on.fault.errMin = none ∧
      ({ on with fault := { errMin := some 5000000001 } } : Dev).fault.errMin = some 5000000001 ∧ on.dt < 5000000001) := by unfold Dev.Ready Dev.FirstAt; decide +kernel

/-- Source `n` stands so, with reactions and escalation time in its register. -/
def atSrc (n : Nat) (x : Source) (react : Word) : Dev := (on.modSrc n (fun _ => x)).setCsr 0 bFault (0x400 + 4 * n) react
theorem test_wit_FaultCollector :
    (let d := atSrc 255 { held := true, esc := some 5000000000 } 0
     255 < 256 ∧ (d.src 255).held = true ∧ due (d.src 255).esc d.dt = true ∧ d.clearAhead 255 = false ∧ bit (d.reactOf 255) 2 = false ∧
       bit (d.reactOf 255) 3 = false) ∧
    (let d := atSrc 121 { held := true, esc := some 5000000000, detail := { inst := 63 } } 0x10004
     bit (d.reactOf 121) 2 = true ∧ (d.src 121).brst = false ∧ d.escMs 121 ≠ 0 ∧ d.serving (d.src 121).detail.inst = true ∧
       d.phyRuns (d.src 121).detail.inst = true ∧ (d.ch (d.src 121).detail.inst).st ≠ .selfref ∧
       (d.modClk (fun c => { c with refOk := false })).phyRuns (d.src 121).detail.inst = false) ∧
    (let d := atSrc 255 { held := true, esc := some 5000000000 } 8
     bit (d.reactOf 255) 2 = false ∧ bit (d.reactOf 255) 3 = true ∧ d.fault.crst = none) ∧
    (on.src 255).held = false ∧
    (on.FullPath .mgmt ∧ on.pinsOn = true ∧ ({} : Dev).pinsOn = false ∧ 255 = 32 * 7 + 31 ∧ due (on.src 255).esc on.dt = false ∧
      reactForbidden 255 (bits (word (1 + 65536 * 60000)).toNat 0 5) (bits (word (1 + 65536 * 60000)).toNat 16 16) = false ∧
      reactForbidden 255 (bits (word (1 + 65536 * 60001)).toNat 0 5) (bits (word (1 + 65536 * 60001)).toNat 16 16) = true) ∧
    (bits (word (2 + 2 ^ 31)).toNat 0 2 = 2 ∧ bit (word (2 + 2 ^ 31)).toNat 31 = true ∧ ({} : Dev).otp.lc = .manufacture) ∧
    (due ({ on with fault := { errMin := some 5000000000 } } : Dev).fault.errMin on.dt = true ∧ due on.fault.errMin on.dt = false) ∧
    (on.censusOn = true ∧ on.fault.injLaw = none ∧ on.lawDiff 3 0xFF 0 = 0 ∧ (on.modQm (fun q => { q with cellFree := 1 })).lawDiff 3 63 3 ≠ 0 ∧
      (held.modClk (fun c => { c with mode := .maint })).censusOn = false) ∧
    (let d : Dev := { on with fault := { crst := some (5000000000, 255), injLaw := some 5 } }
     d.fault.crst = some (5000000000, 255) ∧ d.therm.shut = false ∧ 5000000000 ≤ d.dt ∧ d.dt < 5000000001 ∧ d.fault.injLaw = some 5 ∧
       on.fault.crst = none) := by unfold Dev.FullPath; decide +kernel
set_option maxRecDepth 40000 in
theorem test_wit_TableCommands_full :
    let full := (List.replicate 4 (padTo 16 ([1, 0, 0, 0] ++ [9, 9, 9, 9]))).flatten
    let t := padTo 64 (emTd 0)
    let d := (opDev .emInsert (emTd 0) (key4 ++ leBytes 8 0) emB.1 full).writeSram emB.2 (offsets full)
    let es := bucketEntries t emB.1 (d.sramBytes emB.1 64) ++ bucketEntries t emB.2 (d.sramBytes emB.2 64)
    d.req? 1 = some (opReq d) ∧ d.streamBlocked (opReq d) = false ∧ emFind t key4 es = none ∧ (∀ x, x ∈ es → bit (leAt x.2 0 1) 0 = true) := by
  decide +kernel

/-- The programming window is open and VPROG lies at its voltage. -/
def burning (d : Dev) : Dev := { d with pin := { d.pin with vprogOk := true }, otp := { d.otp with win := some 6000000000 } }
/-- The device in MAINT under `burning` runs `op`, with OTP regions of the mask `pres` present. -/
def runsOtp (op : Nat) (p : List Byte) (pres : Nat) : Dev :=
  burning { runsClk (fun c => { c with mode := .maint }) op p with otp := { present := pres } }

theorem test_wit_RepairCommands_link :
    (∀ q, q ∈ [[64, 0, 0], [63, 47, 0], [63, 47, 1]] → (runs 0xB02 q).Ready 64 7 0xB02) ∧
    (let d := runs 0xB02 [63, 47, 0]
     leAt (d.par 64 7) 0 1 = 63 ∧ leAt (d.par 64 7) 1 1 = 47 ∧ leAt (d.par 64 7) 2 1 = 0 ∧ d.retired 63 = false ∧ (d.ch 63).failed = false ∧
       d.freeSpare 63 47 = some 4 ∧ d.carrier 63 47 = none ∧ (d.modCh 63 (fun _ => { markA := some 0 })).ch 63 = { markA := some 0 }) ∧
    -- every spare of the channel used
    (let d := { runs 0xB02 [63, 47, 0] with graft := { spare := (List.range 8).map (fun n => (63 * 8 + n, { v := true })) } }
     d.freeSpare 63 47 = none ∧ d.freeSpare 63 35 = none ∧ (d.ch 63).marks.length ≠ 2 ∧
       ((d.modCh 63 (fun _ => { markA := some 0, markB := some 1 })).ch 63).marks.length = 2 ∧
       ((d.modCh 63 (fun _ => { markA := some 0 })).ch 63).marks.length = 1 ∧ 35 ∉ ((d.modCh 63 (fun _ => { markA := some 0 })).ch 63).marks) ∧
    (on.clk.mode ≠ .maint ∧ ({ on with otp := { lc := .ended } } : Dev).otp.lc = .ended) ∧
    (let d := runsOtp 0xB02 [63, 47, 1] 32
     d.Ready 64 7 0xB02 ∧ d.clk.mode = .maint ∧ d.otp.lc = .manufacture ∧ d.mayBurn = true ∧ d.emptyEntry {} = some (64 * 5) ∧
       d.TakesBurn {} [] (64 * 5) (linkEntry 63 47 4) ∧ d.carrier 63 47 = none ∧ d.freeSpare 63 47 = some 4 ∧ on.mayBurn = false ∧
       (runsOtp 0xB02 [63, 47, 1] 0).emptyEntry {} = none) := by unfold Dev.Ready Dev.TakesBurn; decide +kernel
theorem test_wit_RepairCommands_others :
    (let d := runs 0xB03 [63]
     d.Ready 64 7 0xB03 ∧ leAt (d.par 64 7) 0 1 = 63 ∧ d.retired 63 = false ∧ d.chQuar 63 = false ∧ d.reserveHolds 63 = true) ∧
    ((atCh { st := .retired }).retired 63 = true ∧ (atCh { st := .degraded }).retired 63 = false ∧ (atCh { st := .degraded }).chQuar 63 = true) ∧
    (let d := onClk id
     let e := { d with dram := { ch := (List.range 63).map (fun c => (c, { failed := true })) } }
     e.retired 63 = false ∧ e.chQuar 63 = false ∧ e.reserveHolds 63 = false) ∧
    (let d := runs 0xB04 (leBytes 4 0x100)
     d.Ready 64 7 0xB04 ∧ bit (leAt (d.par 64 7) 0 4) 8 = true ∧ bit (leAt (d.par 64 7) 0 4) 6 = false ∧ bit (leAt (d.par 64 7) 0 4) 7 = false ∧
       leAt ((runs 0xB04 (leBytes 4 128)).par 64 7) 0 4 = 128 ∧ leAt ((runs 0xB04 (leBytes 4 1)).par 64 7) 0 4 = 1 ∧ d.mayBurn = false ∧
       d.serving 63 = true ∧ d.carrier 63 47 = none ∧ d.freeSpare 63 47 = some 4) := by unfold Dev.Ready; decide +kernel

theorem test_wit_OtpCommands :
    (let d := runsOtp 0xC01 [30, 63, 1] (2 ^ 30)
     d.Ready 64 7 0xC01 ∧ leAt (d.par 64 7) 0 1 = 30 ∧ leAt (d.par 64 7) 1 1 = 63 ∧ leAt (d.par 64 7) 2 1 = 1 ∧ bit d.otp.present 30 = true ∧
       bit d.otp.rlock 30 = false ∧ 63 + 1 ≤ 64 ∧ shadowUsed 30 = true ∧ d.shadow (64 * 30 + 63) = none ∧
       otpJudge (d.otpSense {} (64 * 30 + 63)) = .good 0 ∧ bit d.otp.present 29 = false ∧
       ({ d with otp := { d.otp with shadow := [(64 * 30 + 63, some 5)] } } : Dev).shadow (64 * 30 + 63) = some 5 ∧
       otpJudge ({ d with otp := { d.otp with unst := [(64 * 30 + 63, 3)] } }.otpSense {} (64 * 30 + 63)) = .marginal) ∧
    (let d := runsOtp 0xC02 [3, 20, 1, 0, 7, 0, 0, 0] 8
     d.Ready 64 7 0xC02 ∧ leAt (d.par 64 7) 0 1 = 3 ∧ bit d.otp.wlock 3 = false ∧ bit d.otp.present 3 = true ∧
       bit ({ d with otp := { wlock := 8 } } : Dev).otp.wlock 3 = true) ∧
    (let d := { runsOtp 0xC03 [30, 63, 1] (2 ^ 30) with otp := { win := some 6000000000, shadow := [(64 * 30 + 63, some 5)] } }
     d.Ready 64 7 0xC03 ∧ d.mayBurn = true ∧ bit d.otp.wlock 30 = false ∧ d.shadow (64 * 30 + 63) = some 5 ∧ d.TakesBurn {} [] (64 * 30 + 63) 5 ∧
       -- a bit set already that the shadow has clear, and a bit that does not burn
       (({ a := [(64 * 30 + 63, 2)] } : Fuses).wordA (64 * 30 + 63) ||| ({ a := [(64 * 30 + 63, 2)] } : Fuses).wordB (64 * 30 + 63)) &&& ~~~(5 : Word) ≠ 0 ∧
       (({} : Fuses).wordA (64 * 30 + 63) ||| ({} : Fuses).wordB (64 * 30 + 63)) &&& ~~~(5 : Word) = 0 ∧
       otpJudge (d.otpSense (({} : Fuses).program [{ word := 64 * 30 + 63, a := 1, b := 1 }] (64 * 30 + 63) 5) (64 * 30 + 63)) ≠ .good 5) := by unfold Dev.Ready Dev.TakesBurn; decide +kernel
theorem test_wit_OtpCommands_lock :
    (let d := runsOtp 0xC04 [1, 3] 2
     d.Ready 64 7 0xC04 ∧ leAt (d.par 64 7) 0 1 = 1 ∧ bit (leAt (d.par 64 7) 1 1) 0 = true ∧ bit (leAt (d.par 64 7) 1 1) 1 = true ∧
       bit ({} : Fuses).wlock 1 = false ∧ d.otpSumOk {} 1 = true ∧ d.otpSumOk {} 31 = false ∧ d.mayBurn = true ∧ missOf [] (2048 + 31) = (0, 0) ∧
       bit ({ wlA := 2 ^ 31, wlB := 2 ^ 31, rlA := 2 ^ 31, rlB := 2 ^ 31 } : Fuses).wlock 31 = true ∧
       bit ({ wlA := 2 ^ 31, wlB := 2 ^ 31, rlA := 2 ^ 31, rlB := 2 ^ 31 } : Fuses).rlock 31 = true) ∧
    (let d := runsOtp 0xC05 [1, 0] (2 ^ 13)
     d.Ready 64 7 0xC05 ∧ leAt (d.par 64 7) 0 1 = lcCode .provision ∧ lcAllowed d.otp.lc .provision = true ∧ lcAllowed d.otp.lc .ended = true ∧
       lcAllowed d.otp.lc .field = false ∧ d.otp.lcAbsent = false ∧ d.TakesBurn {} [] (63 + 1) (word (lcMark 0)) ∧
       d.TakesBurn {} [] 67 (word (lcMark 3)) ∧ d.keySlot {} 0 2 = none ∧
       d.keySlot { a := [(64 * 13 + 12, 4)], b := [(64 * 13 + 12, 4)] } 0 2 = some 0) := by unfold Dev.Ready Dev.TakesBurn; decide +kernel

/-- The OTP controller of the running device stands so. -/
def atOtp (u : OtpU) : Dev := { on with otp := u }
/-- The running device with its programming window open to `w` and VPROG up. -/
def windowUp (w : Nat) : Dev := { atOtp { win := some w } with pin := { on.pin with vprogUp := true, vprogBad := false } }
theorem test_wit_OtpController :
    ((atOtp { sweepNext := true }).otp.sweepNext = true ∧ (atOtp { sweepNext := true }).otp.sweep = none ∧ on.otp.sweepNext = false) ∧
    (let d := atOtp { present := 2 ^ 31, sweep := some 2047 }
     2047 < 2048 ∧ 2047 / 64 = 31 ∧ bit d.otp.present 31 = true ∧ d.otp.sweep = some 2047 ∧ 2047 % 64 = 63 ∧
       tabGet (fun _ => 0) d.otp.unst 2047 = 0 ∧ bit ({ wlA := 2 ^ 31, wlB := 2 ^ 31 } : Fuses).wlock 31 = true ∧
       d.otpSumOk { wlA := 2 ^ 31, wlB := 2 ^ 31 } 31 = false ∧ bit d.otp.marginal 31 = false ∧ d.sweepFrom 2048 = 2048) ∧
    ((atOtp { present := 2 ^ 31, sweep := some 2046 }).otp.sweep = some 2046 ∧ 2046 % 64 ≠ 63 ∧ (atOtp { sweep := some 2046 }).otp.sweep ≠ some 2047 ∧
      bit on.otp.present 31 = false ∧ (atOtp { present := 2 ^ 31, sweep := some 2046 }).sweepFrom 2046 < 2048) ∧
    (otpJudge {} = .good 0 ∧ otpJudge { bHi := 1 } = .one 0 ∧ otpJudge { aHi := 1, bHi := 1 } = .marginal) ∧
    ((atOtp { sweep := some 2048 }).otp.sweep = some 2048 ∧ 2048 ≤ (atOtp { sweep := some 2048 }).sweepFrom 2048 ∧ on.otp.sweep = none) ∧
    (due (atOtp { win := some 5000000000 }).otp.win on.dt = true ∧ due on.otp.win on.dt = false ∧
      (atOtp { win := some 5000000000 }).leavesVprog = false ∧ (windowUp 5000000000).leavesVprog = true ∧
      due (windowUp 5000000000).otp.win on.dt = true) := by decide +kernel

theorem test_wit_ProgrammingWindow :
    (let d := onClk (fun c => { c with mode := .maint })
     pathOk .mgmt = true ∧ d.mayWrite .mgmt = true ∧ d.clk.mode = .maint ∧ fld (word (256 * 60 + 1)) 8 8 = 60 ∧ d.otp.win = none ∧
       (burning d).otp.win ≠ none ∧ 64 ≤ pathIx .mgmt) ∧
    (on.mayWrite (.partner 63) = false ∧ fld (word (256 * 61)) 8 8 = 61 ∧ pathIx (.partner 63) < 64) ∧
    (let e := { windowUp 9000000000 with clk := { on.clk with mode := .maint } }
     e.clk.mode = .maint ∧ e.leavesVprog = true ∧ e.otp.win ≠ none ∧ e.PathOpen .jtag ∧ bit (word (256 * 60)).toNat 0 = false ∧
       fld (word (256 * 60)) 8 8 = 60 ∧ (onClk (fun c => { c with mode := .maint })).leavesVprog = false) := by unfold Dev.PathOpen; decide

/-- Pair 7 of the management owner runs a firmware command under this mailbox unit. -/
def runsFw (op : Nat) (p : List Byte) (f : MboxU → MboxU) : Dev := (runs op p).modMbox f
theorem test_wit_FirmwareUpdate_session :
    (let d := runsFw 0xD01 (leBytes 4 8192) (fun m => { m with updOpen := some 65 })
     d.Ready 64 7 0xD01 ∧ d.mbox.trial = false ∧ d.updOther 64 = true ∧ (runsFw 0xD01 [] (fun m => { m with trial := true })).mbox.trial = true ∧
       (runsFw 0xD01 [] id).updOther 64 = false ∧ (atPair on 65 7 { st := .running, cmd := cmdOf 0xD01 7 [] }).Ready 65 7 0xD01 ∧ 65 ≠ 64) ∧
    (let d := runsFw 0xD02 (leBytes 4 4 ++ [4, 0, 0, 0] ++ [1, 2, 3, 4]) (fun m => { m with updOpen := some 64, updLen := 8 })
     d.Ready 64 7 0xD02 ∧ d.mbox.updOpen = some 64 ∧ leAt (d.par 64 7) 0 4 = 4 ∧ ((d.par 64 7).drop 8).length = 4) ∧
    (let d := runsFw 0xD03 [] (fun m => { m with updOpen := some 64 })
     d.Ready 64 7 0xD03 ∧ d.mbox.updOpen = some 64 ∧ d.mbox.updBytes.length = d.mbox.updLen ∧
       (runsFw 0xD03 [] (fun m => { m with updOpen := some 64, updLen := 1 })).mbox.updBytes.length ≠ 1 ∧ on.mbox.updOpen = none) ∧
    (let d := runsFw 0xD04 [] (fun m => { m with updOpen := some 64, updOk := true })
     d.Ready 64 7 0xD04 ∧ d.mbox.act = .none ∧ d.mbox.updOpen ≠ none ∧ d.mbox.updOk = true ∧ on.mbox.updOk = false) ∧
    (let f := fun (m : MboxU) => { m with act := .waiting, actPair := 519, actBy := some 5000000000, fwState := 2 }
     let d := runsFw 0xD04 [] f
     let e := atPair d 65 7 { st := .running, cmd := cmdOf 0x101 7 [] }
     d.Ready 64 7 0xD04 ∧ d.mbox.act = .waiting ∧ d.mbox.actPair = 8 * 64 + 7 ∧ d.mbox.fwState = 2 ∧ d.actQuiet = true ∧
       e.Ready 64 7 0xD04 ∧ e.actQuiet = false ∧ due e.mbox.actBy e.dt = true) := by unfold Dev.Ready; decide +kernel
theorem test_wit_FirmwareUpdate_trial :
    (let d := runsFw 0xD05 (leBytes 2 7) (fun m => { m with trial := true, ver := 7, confirmBy := some 1 })
     d.Ready 64 7 0xD05 ∧ d.mbox.trial = true ∧ leAt (d.par 64 7) 0 2 = d.mbox.ver ∧ d.mbox.confirmBy = some 1 ∧ (d.pair 64 7).stamp < 1 ∧
       ¬ (d.pair 64 7).stamp < 0 ∧ d.fwConfirmAhead = true) ∧
    (let d := on.modMbox (fun m => { m with trial := true, confirmBy := some 5000000000 })
     let e := atPair d 64 7 { st := .running, cmd := cmdOf 0x101 7 [] }
     d.mbox.act = .none ∧ d.mbox.trial = true ∧ d.mbox.fwState = 1 ∧ d.mbox.confirmBy = some 5000000000 ∧ d.fwConfirmAhead = false ∧
       d.exclAhead 5000000000 = false ∧ 5000000000 ≤ d.dt ∧ d.dt < 5000000001 ∧ d.actQuiet = true ∧ e.actQuiet = false ∧ e.fwConfirmAhead = false ∧
       e.exclAhead 5000000000 = false) ∧
    (let d := on.modMbox (fun m => { m with act := .reverting, actBy := some 5000000000 })
     let e := atPair d 64 7 { st := .running, cmd := cmdOf 0x101 7 [] }
     d.mbox.act = .reverting ∧ d.actQuiet = true ∧ e.actQuiet = false ∧ due e.mbox.actBy e.dt = true) := by unfold Dev.Ready; decide +kernel

theorem test_wit_RegisterAccess :
    (on.PathOpen .jtag ∧ on.otp.lc ≠ .ended ∧ hasSelect bLane = true ∧ hasSelect bGlobal = false ∧ 0x3FFC % 4 = 0 ∧ 0x3FFC < 0x4000 ∧
      implemented 255 0x3FFC = false) ∧
    (implemented bReg 0x50 = true ∧ pathIx (.partner 63) < 64 ∧ partnerMay bReg 0x50 = false ∧ partnerIgnored bEcc 0x30 = true) ∧
    (bReg ∈ plainBlocks ∧ implemented bReg 0x50 = true ∧ on.mayWrite .mgmt = true) ∧
    (isLo bMbox 0x500 = true ∧ implemented bMbox 0x500 = true ∧ on.latchOf 64 bMbox = none ∧
      ({ on with mgmt := { on.mgmt with } } : Dev).latchOf 64 bPartner = none ∧ on.latchOf 64 bSlalom = none ∧ on.selOf .mgmt bSlalom = 0) ∧
    (63 < 64 ∧ 15 < 16 ∧ bit (1 : Word).toNat 0 = true ∧ bit (0 : Word).toNat 0 = false ∧ on.clk.mode ≠ .boot ∧ on.clk.mode = .service ∧
      (onClk (fun c => { c with mode := .drain })).clk.mode ≠ .service ∧ on.FirstAt 10 2) := by unfold Dev.PathOpen Dev.FirstAt; decide
theorem test_wit_RegisterAccess_latch : (on.setLatch 64 bMbox (some (0x500, 9))).latchOf 64 bMbox = some (0x500, 9) := by decide

theorem test_wit_AliasViews :
    (pathOk (.partner 63) = true ∧ 0x0A0100 = 0x0A * 0x10000 + 0x100 ∧ 0x100 < 0x4000 ∧ 0x100 % 4 = 0 ∧ rwMask 0x0A 0x100 ≠ 0 ∧
      rwMask 0xFF 0x3FFC = 0 ∧ on.PathOpen (.partner 63) ∧ 3 < 4) := by unfold Dev.PathOpen; decide

theorem test_wit_CsrCommands :
    (let d := runs 0xE01 (leBytes 5 (csrBase - 4) ++ [0, 0, 0, 1])
     d.Ready 64 7 0xE01 ∧ 1 ≤ leAt (d.par 64 7) 8 1 ∧ leAt (d.par 64 7) 0 5 < csrBase) ∧
    (let d := runs 0xE01 (leBytes 5 (csrBase + 0x030400 + 4 * 255) ++ [0, 0, 0, 1])
     leAt (d.par 64 7) 0 5 = csrBase + 0x030400 + 4 * 255 ∧ 255 + leAt (d.par 64 7) 8 1 ≤ 256 ∧ d.latchOf 64 bFault = none) ∧
    (let d := { atPair on 65 7 { st := .running, cmd := cmdOf 0xE01 7 [] } with otp := { lc := .ended } }
     d.Ready 65 7 0xE01 ∧ d.otp.lc = .ended) ∧
    (let d := atPair on 63 7 { st := .running, cmd := cmdOf 0xE02 7 (leBytes 5 (csrBase + 0x0A0000) ++ [0, 0, 0, 2, 0, 0, 0, 63, 0, 0, 0]) }
     d.Ready 63 7 0xE02 ∧ leAt (d.par 63 7) 8 1 = 2 ∧ leAt (d.par 63 7) 0 5 = csrBase + 0x0A0000 ∧ 63 < 64 ∧
       implemented bReg 0x50 = true ∧ partnerMay bReg 0x50 = false ∧ partnerIgnored bReg 0x50 = false) ∧
    (let d := runs 0xE02 (leBytes 5 (csrBase + bReg * 0x10000 + 0x50) ++ [0, 0, 0, 1, 0, 0, 0, 1, 0, 0, 0])
     d.Ready 64 7 0xE02 ∧ leAt (d.par 64 7) 8 1 = 1 ∧ leAt (d.par 64 7) 0 5 = csrBase + bReg * 0x10000 + 0x50 ∧ implemented bReg 0x50 = true ∧
       bReg ∈ plainBlocks) ∧
    (let d := runs 0xE03 (leBytes 5 (csrBase + bThermal * 0x10000 + 0x10) ++ [0, 0, 0, 255, 0, 0, 0, 1, 0, 0, 0])
     d.Ready 64 7 0xE03 ∧ leAt (d.par 64 7) 0 5 = csrBase + bThermal * 0x10000 + 0x10 ∧ implemented bThermal 0x10 = true ∧ d.latchOf 64 bThermal = none) := by
  unfold Dev.Ready; decide

/-- A device in BOOT whose ROM has chosen image 1. -/
def inBoot : Dev := { onClk (fun c => { c with mode := .boot, ringAt := 0 }) with boot := { chosen := some 1 }, mbox := {} }
/-- A running device whose boot list stands so. -/
def listed (b : BootU) : Dev := { on with boot := { b with ready := true } }
theorem test_wit_BootSequence :
    (inBoot.clk.mode = .boot ∧ inBoot.pin.bootHold = 0 ∧ inBoot.therm.shut = false ∧ inBoot.clk.dtRun = true ∧ inBoot.clk.refOk = true ∧
      inBoot.boot.chosen = some 1 ∧ ({} : Dev).clk.mode = .boot ∧ ({} : Dev).boot.chosen = none) ∧
    ((on.modMbox (fun m => { m with fwState := 3 })).mbox.fwState = 3 ∧ on.clk.mode ≠ .boot ∧ on.mbox.fwState ≠ 3 ∧ on.boot.ready = false) ∧
    ((listed { listWait := true, listStat := some 8 }).boot.listStat = some 8 ∧ (listed {}).boot.list = [] ∧ (listed {}).fwUp = true ∧
      (listed {}).boot.ready = true) ∧
    (let img := cmdOf 0x101 0 []
     (listed { list := [img] }).boot.list = [img] ∧ cmdHeaderOk img = true ∧ ((listed { list := [img] }).pair 65 0).st = .free ∧
       listAllows (cmdOpcode img) = true ∧ cmdHeaderOk (cmdOf 0x202 0 []) = true ∧ listAllows (cmdOpcode (cmdOf 0x202 0 [])) = false ∧
       (listed { list := [img], listWait := true, listStat := some 0 }).boot.listStat = some 0 ∧
       ((atPair (listed { list := [img] }) 65 0 { st := .done }).pair 65 0).st = .done) ∧
    (on.pin.bootHold ≠ 1 ∧ refclkOf 0 = 0 ∧ refclkOf 156250 ≠ 0 ∧ ({ pin := { bootHold := 1 } } : Dev).pin.bootHold = 1 ∧
      ({ flashOk := true } : BootEnv).flashOk = true ∧ ({ flashOk := false } : BootEnv).flashOk = false) ∧
    (({ pin := { bootHold := 3 } } : Dev).pin.bootHold = 3 ∧ ({ pin := { bootHold := 5 } } : Dev).pin.bootHold = 5 ∧
      on.heatLimit ≤ ({ temp := on.heatLimit } : BootEnv).temp ∧ ({ temp := on.heatLimit - 1 } : BootEnv).temp < on.heatLimit) := by decide +kernel

theorem test_wit_ManagementPort :
    (on.mgAlive = true ∧ held.mgAlive = false ∧ ({} : Dev).mgAlive = false) ∧
    (bReg < 256 ∧ 0x50 < 0x4000 ∧ 0x50 % 4 = 0 ∧ implemented bReg 0x50 = true ∧ bReg ∈ plainBlocks ∧ csrBase - 4 < csrBase ∧
      pec (leBytes 5 (csrBase + bReg * 0x10000 + 0x50) ++ leBytes 4 1) ≠ 256 ∧ ([1, 2, 3] : List Byte).length < 4 ∧ 255 + 1 ≤ 256 ∧
      on.latchOf 64 bFault = none ∧ on.latchOf 65 bFault = none) ∧
    (on.mgmt.dyn.isNone = true ∧ (on.modMgmt (fun m => { m with dyn := some 9 })).mgmt.dyn.isSome = true) ∧
    (on.pin.pwrgd = true ∧ on.pin.cold = false ∧ on.otp.lc ≠ .ended ∧ (atOtp { lc := .ended }).otp.lc = .ended ∧ ({} : Dev).pin.cold = true) := by
  decide +kernel

/-! ### Operands that are refused: one for each check of WellFormed -/

theorem test_illFormed_refused : ∀ c : Instr, c ∈ [
    .laneEnable 144, .octetPllLock 18, .portEnable 144, .leaveTimerExpiry 64, .fragmentBegin 0 4, .refreshDue 64, .ceWindowEnd 65, .bandDown 21,
    .descFetch 32, .slalomGate 4 0, .resultComplete 101, .enqueueLink 131072, .commandStart 66 0, .commandStart 0 8, .rescaleGapEnd 66,
    .calStepStart 227, .sensorTimeout 160, .escalationExpiry 256, .islandPllLock 3, .faultLogRead .mgmt 32, .elogEntryRead .mgmt 64,
    .otpWordRead 2048 {}, .railOutOfTolerance 7 0, .switchForcedRelease 3, .registerWrite (.partner 64) 0 0, .read { port := 144 },
    .read { port := 0, vc := 4 }, .heldClearWrite .mgmt 8 0, .reactWrite .mgmt 256 0, .censusCheck 0 0 0, .censusCheck 6 0 0, .censusCheck 1 64 0] → c.wf = false := by decide
theorem test_illFormed_faults (s : State) : exec (.laneEnable 144) s = .fault .noSuchInstance ∧
    exec (.registerWrite (.partner 64) 0 0) s = .fault .noSuchInstance ∧ exec (.otpWordRead 2048 {}) s = .fault .noSuchInstance := ⟨rfl, rfl, rfl⟩
theorem test_wellFormed_passes : ∀ c : Instr, c ∈ [
    .laneEnable 143, .octetPllLock 17, .portEnable 143, .leaveTimerExpiry 63, .fragmentBegin 143 3, .refreshDue 63, .ceWindowEnd 64, .bandDown 20,
    .descFetch 31, .slalomGate 3 0, .resultComplete 100, .enqueueLink 131071, .commandStart 65 7, .rescaleGapEnd 65, .calStepStart 226,
    .sensorTimeout 159, .escalationExpiry 255, .islandPllLock 2, .faultLogRead .mgmt 31, .elogEntryRead .mgmt 63, .otpWordRead 2047 {},
    .railOutOfTolerance 6 0, .switchForcedRelease 2, .registerWrite (.partner 63) 0 0, .read { port := 143, vc := 3 },
    .heldClearWrite .mgmt 7 0, .reactWrite .mgmt 255 0, .censusCheck 5 63 3] → c.wf = true := by decide
theorem test_decode_none : decodeTableWord 8 0 = none ∧ (dv on).withFetchWord 8 0 = dv on := ⟨rfl, rfl⟩

/-! ### Worked examples of the spec -/

/-- The example after R149: 0x0E_E012_3440 lies on CH54 at offset 0x3B80_48C0, the next unit on CH53. -/
theorem test_R149_example : (on.placeAt 0x0EE0123440).map (·.2) = some (placeOf 54 0x3B8048C0) ∧
    (on.placeAt 0x0EE0123480).map (fun x => placeCh x.2) = some 53 := by decide
/-- The example of R20 and R149: CH54 lies on D13 at L17, CH37 on D9 at L12. -/
theorem test_R20_example : dramLayer (54 / 4) = 17 ∧ dramLayer (37 / 4) = 12 := by decide
/-- The /48 walk after R211: the key bits of its four levels, and the channels of the entries at levels 2 to 4. -/
theorem test_R208_example :
    (let key : List Byte := [0x2A, 0x0E, 0x5C, 0x10, 0x47, 0xB3, 0, 0x12, 0, 0, 0, 0, 0, 0, 0, 1]
     keyBits key 0 16 = 0x2A0E ∧ keyBits key 16 12 = 0x5C1 ∧ keyBits key 28 12 = 0x047 ∧ keyBits key 40 8 = 0xB3) ∧
    ([0x0EE091AE00, 0x0EED2B8200, 0x0F09627580].map (fun a => (on.placeAt a).map (fun x => placeCh x.2))) = [some 6, some 55, some 0] := by decide
/-- The policer record after R214: CIR, PIR, CBS, PBS, AWARE, and the state given. -/
def policeRec (tc tp last : Nat) : List Byte :=
  leBytes 8 (tc * 2 ^ 24) ++ leBytes 8 (tp * 2 ^ 24) ++ leBytes 4 0x01400000 ++ leBytes 4 0x02800000 ++ leBytes 4 100000 ++ leBytes 4 200000 ++
    leBytes 8 last ++ [1] ++ List.replicate 23 0
theorem test_R213_example :
    policeNew (policeRec 1500 4000 7000000) 7000800 3000 0 = (policeRec 2500 3000 7000800, 1) ∧
    policeNew (policeRec 2500 3000 7000800) 7001000 1500 0 = (policeRec 1250 2000 7001000, 0) ∧
    policeNew (policeRec 1250 2000 7001000) 7001000 2500 1 = (policeRec 1250 2000 7001000, 2) := by decide
/-- The example after R130 (R129): DLINE 125 at stamp 3,000,000 gives 3,001,000, which is not late, and one ns later is. -/
theorem test_R129_example : ({ stamp := 3000000, dline := 125, gen := 3 } : Req).deadline = some 3001000 ∧ lateAt (some 3001000) 3001000 = false ∧
    lateAt (some 3001000) 3001001 = true := by decide
/-- The example of Bandwidth, Deadlines and Admission: Gmin is 49,782 in B0, 46,560 while CH36 catches up in B1, 48,708 in B1. -/
theorem test_R264_example : (on.capacity 30).1 = 49782 ∧ ((on.modCh 36 (fun c => { c with band := 1, catchup := some 1 })).capacity 30).1 = 46560 ∧
    ((on.modCh 36 (fun c => { c with band := 1 })).capacity 30) = (48708, 36, 64) ∧ 600000 / 64 = 9375 := by decide +kernel
/-- The example of R282: with SW 0, element 5 holding 0x13 sets bit 5 of planes 0, 1 and 4. -/
theorem test_R282_example :
    let b : List Byte := [3, 0, 0, 0] ++ leBytes 4 512
    (xTranspose b 0 (fun a => if a = 5 then 0x13 else 0)).map (fun u => u.2.getD 0 0) = [32, 32, 0, 0, 32, 0, 0, 0] := by decide +kernel
/-- The example after R477: a write of 1 through the set alias sets ENABLE and keeps the width. -/
theorem test_R477_example :
    let d := (on.setSel .mgmt bPort 32).setCsr 32 bPort 0x10 0xB42
    d.aliasValue 64 bPort 0x10 1 1 = 0xB43 := by decide
/-- CRC-32 of IEEE 802.3 (R78) gives the check value of its polynomial. -/
theorem test_crc32 : crc32 [0x31, 0x32, 0x33, 0x34, 0x35, 0x36, 0x37, 0x38, 0x39] = 0xCBF43926 := by decide +kernel

end Sys2Proof.Tests
end

section
/-!
PROOFS. O55: what an access by a path does (R8, R253, R254, R473 to R478, R483). First the laws of one read and one write of the CSR range,
then the facts about the registers named _LO, then each kind of access, then the obligation.
-/
namespace Sys2Proof.Machine

/-! ### Where an access goes -/

/-- Offset `a` of the CSR range names register `off` of block `b` through view `al`, view 0 being the register itself (R472, R477). -/
structure RegAddr (a b al off : Nat) : Prop where
  eq : a = b * 0x10000 + al * 0x4000 + off
  blk : b < 256
  view : al < 4
  below : off < 0x4000
  aligned : off % 4 = 0

theorem RegAddr.plain {a b off : Nat} (h : a = b * 0x10000 + off) (hb : b < 256) (hlt : off < 0x4000) (h4 : off % 4 = 0) :
    RegAddr a b 0 off := ⟨by rw [h, Nat.zero_mul, Nat.add_zero], hb, by decide, hlt, h4⟩

theorem RegAddr.inView {a b off : Nat} (h : RegAddr a b 0 off) {al : Nat} (hal : al < 4) : RegAddr (aliasOff a al) b al off := by
  obtain ⟨rfl, hb, -, hlt, h4⟩ := h
  exact ⟨by unfold aliasOff; omega, hb, hal, hlt, h4⟩

theorem RegAddr.inRange {a b al off : Nat} (h : RegAddr a b al off) : ¬(a % 4 ≠ 0 ∨ 0x1000000 ≤ a) := by
  obtain ⟨rfl, hb, hal, hlt, h4⟩ := h
  omega

theorem RegAddr.div {a b al off : Nat} (h : RegAddr a b al off) : a / 0x10000 = b := by
  obtain ⟨rfl, hb, hal, hlt, h4⟩ := h
  omega

theorem RegAddr.viewOf {a b al off : Nat} (h : RegAddr a b al off) : a % 0x10000 / 0x4000 = al := by
  obtain ⟨rfl, hb, hal, hlt, h4⟩ := h
  omega

theorem RegAddr.offOf {a b al off : Nat} (h : RegAddr a b al off) : a % 0x4000 = off := by
  obtain ⟨rfl, hb, hal, hlt, h4⟩ := h
  omega

theorem RegAddr.offOf_plain {a b off : Nat} (h : RegAddr a b 0 off) : a % 0x10000 = off := by
  obtain ⟨rfl, hb, -, hlt, h4⟩ := h
  omega

/-! ### Which paths an access is open to -/

/-- Life-cycle state END does not refuse the path of index `ix` (R467, R475). -/
def Dev.Accepts (d : Dev) (ix : Nat) : Prop := (ix = 65 && d.otp.lc == .ended) = false

theorem pathIx_eq_jtag {p : Path} (hp : pathOk p = true) (h : pathIx p = 65) : p = .jtag := by
  cases p with
  | partner n =>
    have : n < 64 := of_decide_eq_true hp
    simp only [pathIx] at h
    omega
  | mgmt => simp [pathIx] at h
  | jtag => rfl
  | hw => simp [pathIx] at h

theorem Dev.PathOpen.accepts {d : Dev} {p : Path} (h : d.PathOpen p) : d.Accepts (pathIx p) := by
  obtain ⟨hp, hj⟩ := h
  by_cases hx : pathIx p = 65
  · simpa [Dev.Accepts, hx] using hj (pathIx_eq_jtag hp hx)
  · simp [Dev.Accepts, hx]

theorem Dev.mayWrite_notPartner {d : Dev} {p : Path} (h : d.mayWrite p = true) : ¬ pathIx p < 64 := by
  cases p with
  | partner n => simp [Dev.mayWrite] at h
  | mgmt => simp [pathIx]
  | jtag => simp [pathIx]
  | hw => simp [pathIx]

/-! ### One write of the CSR range -/

section
variable {d : Dev} {ix a b al off : Nat}

theorem Dev.csrWrite_reserved (ha : RegAddr a b al off) (hj : d.Accepts ix) (hi : implemented b off = false) (v : Nat) :
    d.csrWrite ix a v = (.ok, d) := by
  unfold Dev.csrWrite
  rw [if_neg ha.inRange, hj]
  simp [ha.div, ha.offOf, hi]

theorem Dev.csrWrite_partnerRefused (ha : RegAddr a b al off) (hi : implemented b off = true) (hx : ix < 64)
    (hm : partnerMay b off = false) (v : Nat) :
    d.csrWrite ix a v = ((if partnerIgnored b off then .ok else .denied), d) := by
  have hj : d.Accepts ix := by simp [Dev.Accepts, Nat.ne_of_lt (Nat.lt_succ_of_lt hx)]
  unfold Dev.csrWrite
  rw [if_neg ha.inRange, hj]
  simp [ha.div, ha.offOf, hi, hx, hm]

theorem Dev.csrWrite_plain (ha : RegAddr a b 0 off) (hj : d.Accepts ix) (hi : implemented b off = true)
    (hm : ix < 64 → partnerMay b off = true) (v : Nat) : d.csrWrite ix a v = (.ok, d.regWrite ix b off v) := by
  have hp : (ix < 64 && !partnerMay b off) = false := by
    by_cases hx : ix < 64
    · simp [hm hx]
    · simp [hx]
  unfold Dev.csrWrite
  rw [if_neg ha.inRange, hj]
  simp only [ha.div, ha.offOf, ha.viewOf, hi, hp]
  rfl

end

/-! ### One read of the CSR range -/

section
variable {d : Dev} {ix a b off : Nat}

/-- The latch of a path after a read of a register: a _LO register leaves its high half, any other read clears it (R478). -/
def Dev.latchAfter (d : Dev) (ix b off : Nat) : Option (Nat × Nat) :=
  if isLo b off then some (off, d.regShows ix b (off + 4)) else none

theorem Dev.csrRead_status (ha : RegAddr a b 0 off) (hj : d.Accepts ix) : (d.csrRead ix a).status = .ok := by
  unfold Dev.csrRead
  rw [if_neg ha.inRange, hj]
  simp [ha.div, ha.offOf_plain, Nat.not_le.mpr ha.below]

theorem Dev.csrRead_dev (ha : RegAddr a b 0 off) (hj : d.Accepts ix) :
    (d.csrRead ix a).dev = (d.setLatch ix b (d.latchAfter ix b off)).readEffect ix b off := by
  unfold Dev.csrRead Dev.latchAfter
  rw [if_neg ha.inRange, hj]
  simp only [ha.div, ha.offOf_plain, Nat.not_le.mpr ha.below]
  by_cases hl : isLo b off = true <;> simp [hl]

theorem Dev.csrRead_value_live (ha : RegAddr a b 0 off) (hj : d.Accepts ix) (hl : d.latchOf ix b = none) :
    (d.csrRead ix a).value = d.rcShows ix b off (d.regShows ix b off) := by
  unfold Dev.csrRead
  rw [if_neg ha.inRange, hj]
  simp [ha.div, ha.offOf_plain, Nat.not_le.mpr ha.below, hl]

theorem Dev.csrRead_value_latched {lo h : Nat} (ha : RegAddr a b 0 (lo + 4)) (hj : d.Accepts ix)
    (hl : d.latchOf ix b = some (lo, h)) : (d.csrRead ix a).value = d.rcShows ix b (lo + 4) h := by
  unfold Dev.csrRead
  rw [if_neg ha.inRange, hj]
  simp [ha.div, ha.offOf_plain, Nat.not_le.mpr ha.below, hl]

end

/-! ### Side effects of a read -/

/-- A read of this register changes nothing but latches: it holds no RC field and is not the last word of a log entry. -/
def ReadsPlain (b off : Nat) : Prop :=
  rcField b off = none ∧ (b = bEcc → off < 0x1000) ∧ (b = bFault → off < 0x800 ∨ 0x1000 ≤ off)

theorem Dev.readEffect_plain {b off : Nat} (h : ReadsPlain b off) (d : Dev) (ix : Nat) : d.readEffect ix b off = d := by
  obtain ⟨hr, he, hf⟩ := h
  have he' : ¬(b = bEcc ∧ 0x1000 ≤ off ∧ off % 32 = 28) := fun c => absurd (he c.1) (by omega)
  have hf' : ¬(b = bFault ∧ 0x800 ≤ off ∧ off < 0x1000 ∧ off % 64 = 60) := fun c => absurd (hf c.1) (by omega)
  unfold Dev.readEffect
  simp [hr, he', hf']

theorem Dev.rcShows_plain {b off : Nat} (h : rcField b off = none) (d : Dev) (ix v : Nat) : d.rcShows ix b off v = v := by
  simp [Dev.rcShows, h]

theorem Dev.readEffect_partner {ix : Nat} (h : ix < 64) (d : Dev) (b off : Nat) : d.readEffect ix b off = d := by
  simp [Dev.readEffect, h]

/-- A read of the RC field of a register uses up the note of the events of its DT (R9). -/
def Dev.rcTaken (d : Dev) (k : Nat) : Dev :=
  { d with rcv := tabMod (fun _ => (0, 0, 0)) d.rcv k (fun e => (e.1, 0, e.2.2)) }

@[simp] theorem Dev.rcTaken_csr (d : Dev) (k : Nat) : (d.rcTaken k).csr = d.csr := rfl
@[simp] theorem Dev.rcTaken_evt (d : Dev) (k : Nat) : (d.rcTaken k).evt = d.evt := rfl
@[simp] theorem Dev.setLatch_csr (d : Dev) (ix b : Nat) (v : Option (Nat × Nat)) : (d.setLatch ix b v).csr = d.csr := rfl
@[simp] theorem Dev.setLatch_evt (d : Dev) (ix b : Nat) (v : Option (Nat × Nat)) : (d.setLatch ix b v).evt = d.evt := rfl

theorem Dev.rcTaken_keeps (ps : List Part) (a d : Dev) (k : Nat) (h : .csr ∈ ps) : Dev.Keeps ps a (d.rcTaken k) ↔ Dev.Keeps ps a d :=
  Dev.Keeps.drop (Dev.setRcv_keep d _) (by simpa using h)

/-- The device with the peak of context `i` set. -/
def Dev.setPeak (d : Dev) (i v : Nat) : Dev := { d with sla := { d.sla with peak := tabSet (fun _ => 0) d.sla.peak i v } }

section
variable (d : Dev) (i v : Nat)

theorem Dev.setPeak_self : tabGet (fun _ => 0) (d.setPeak i v).sla.peak i = v := tabGet_tabSet_self _ _ _ _

theorem Dev.setPeak_ne {q : Nat} (h : q ≠ i) :
    tabGet (fun _ => 0) (d.setPeak i v).sla.peak q = tabGet (fun _ => 0) d.sla.peak q := tabGet_tabSet_ne _ _ _ h

theorem Dev.setPeak_sla : (d.setPeak i v).sla = { d.sla with peak := (d.setPeak i v).sla.peak } := rfl
@[simp] theorem Dev.setPeak_csr : (d.setPeak i v).csr = d.csr := rfl
@[simp] theorem Dev.setPeak_evt : (d.setPeak i v).evt = d.evt := rfl

theorem Dev.setPeak_keeps (ps : List Part) (a : Dev) (h : .sla ∈ ps) : Dev.Keeps ps a (d.setPeak i v) ↔ Dev.Keeps ps a d :=
  Dev.set_sla_keeps ps a d _ h

end

/-- The device with error-log entry `n` read: another entry may take its place (R253). -/
def Dev.freeElog (d : Dev) (n : Nat) : Dev :=
  d.modEcc (fun u => { u with elog := tabMod (fun _ => {}) u.elog n (fun e => { e with unread := false }) })

theorem Dev.freeElog_elogAt_self (d : Dev) (n : Nat) : (d.freeElog n).elogAt n = { d.elogAt n with unread := false } := by
  simp [Dev.elogAt, Dev.freeElog]

theorem Dev.freeElog_elogAt_ne (d : Dev) {n q : Nat} (h : q ≠ n) : (d.freeElog n).elogAt q = d.elogAt q := by
  simp only [Dev.elogAt, Dev.freeElog, Dev.modEcc_ecc, tabGet_tabMod_ne _ _ _ h]

theorem rcField_peak {j : Nat} (hj : j < 16) : rcField bSlalom (0x20 + 4 * j) = some (8, 7) := by
  have hb : ¬ bSlalom = bPartner := by decide
  have ho : ¬ 0x20 + 4 * j = 0x10 := by omega
  have hr : 0x20 ≤ 0x20 + 4 * j ∧ 0x20 + 4 * j ≤ 0x5C := by omega
  simp [rcField, hb, ho, hr]

section
variable {ix : Nat} (hx : ¬ ix < 64) (d : Dev)
include hx

theorem Dev.readEffect_rspDrop {k : Nat} (hk : k = tabGet (fun _ => 0) d.sel (ix * 256 + bPartner)) :
    d.readEffect ix bPartner 0x54 =
      (d.rcTaken (regKey k bPartner 0x54)).modPtn k (fun p => { p with rspDrop := (d.rcNow k bPartner 0x54 0).2 }) := by
  subst hk
  unfold Dev.readEffect
  rw [if_neg hx]
  rfl

theorem Dev.readEffect_roundMax {k : Nat} (hk : k = tabGet (fun _ => 0) d.sel (ix * 256 + bSlalom)) :
    d.readEffect ix bSlalom 0x10 =
      (d.rcTaken (regKey k bSlalom 0x10)).modEng k (fun e => { e with roundMax := (d.rcNow k bSlalom 0x10 0).2 }) := by
  subst hk
  unfold Dev.readEffect
  rw [if_neg hx]
  rfl

/-- `j` counts the contexts of an engine. -/
theorem Dev.readEffect_peak {k j : Nat} (hj : j < 16) (hk : k = tabGet (fun _ => 0) d.sel (ix * 256 + bSlalom)) :
    d.readEffect ix bSlalom (0x20 + 4 * j) =
      (d.rcTaken (regKey k bSlalom (0x20 + 4 * j))).setPeak (16 * k + j) (d.rcNow k bSlalom (0x20 + 4 * j) 0).2 := by
  subst hk
  have hf : rcField bSlalom (0x20 + 4 * j) = some (8, 7) := rcField_peak hj
  have ho : ¬ 0x20 + 4 * j = 0x10 := by omega
  have hq : (0x20 + 4 * j - 0x20) / 4 = j := by omega
  have hb : ¬ bSlalom = bPartner := by decide
  unfold Dev.readEffect
  rw [if_neg hx, hf, Option.isSome_some, if_pos rfl]
  simp only [if_neg hb, if_neg ho, hq]
  rfl

theorem Dev.readEffect_elog {n : Nat} (hn : n < 64) :
    d.readEffect ix bEcc (0x1000 + 32 * n + 28) =
      d.freeElog n := by
  have hf : rcField bEcc (0x1000 + 32 * n + 28) = none := rfl
  have hc : bEcc = bEcc ∧ 0x1000 ≤ 0x1000 + 32 * n + 28 ∧ (0x1000 + 32 * n + 28) % 32 = 28 := ⟨rfl, by omega, by omega⟩
  have hq : (0x1000 + 32 * n + 28 - 0x1000) / 32 = n := by omega
  unfold Dev.readEffect
  rw [if_neg hx, hf, if_neg (by decide), if_pos hc, hq]
  rfl

end

/-! ### RC fields (R8, R9) -/

theorem clearBits_add_bits (x lo w : Nat) : clearBits x ((2 ^ w - 1) * 2 ^ lo) + bits x lo w * 2 ^ lo = x := by
  have h : x &&& (2 ^ w - 1) * 2 ^ lo = bits x lo w * 2 ^ lo := by
    apply Nat.eq_of_testBit_eq
    intro i
    simp only [bits, Nat.testBit_and, Nat.testBit_mul_two_pow, Nat.testBit_mod_two_pow, Nat.testBit_div_two_pow, Nat.testBit_two_pow_sub_one]
    by_cases hi : lo ≤ i
    · simp [hi, Bool.and_comm]
    · simp [hi]
  unfold clearBits
  rw [h, Nat.sub_add_cancel (h ▸ Nat.and_le_left)]

theorem Dev.rcShows_reads (d : Dev) {ix b off lo w k : Nat} (hf : rcField b off = some (lo, w))
    (hk : k = tabGet (fun _ => 0) d.sel (ix * 256 + b)) (live : Nat) :
    d.RcReads k b off lo w live (d.rcShows ix b off live) (d.rcNow k b off 0).2 := by
  subst hk
  intro e he
  constructor
  · intro hne
    have hw : bits live lo w % 2 ^ w = bits live lo w := Nat.mod_mod _ _
    simp only [Dev.rcShows, Dev.rcNow, hf, ← he, if_neg hne, hw, clearBits_add_bits, and_self]
  · intro heq
    simp only [Dev.rcShows, Dev.rcNow, hf, ← he, if_pos heq, and_self]

theorem Dev.regShows_peak {d : Dev} {ix j : Nat} (hj : j < 16) :
    d.regShows ix bSlalom (0x20 + 4 * j) = d.rdSlalom (tabGet (fun _ => 0) d.sel (ix * 256 + bSlalom)) (0x20 + 4 * j) := by
  have hi : ∀ i < 16, implemented bSlalom (0x20 + 4 * i) = true := by decide
  have ho : ¬ 0x20 + 4 * j = 0 := by omega
  unfold Dev.regShows
  simp only [hi j hj, ho, decide_false, Bool.false_and]
  rfl

/-! ### Registers named _LO (R478) -/

/-- What holds of every run of _LO registers: pairs lie below the set, clear and toggle views, hold no RC field, and are no part of a log. -/
theorem loRuns_plain : ∀ r ∈ loRuns, r.2.2.1 + 4 < 0x4000 ∧ (r.1 = bPartner → r.2.2.1 + 4 < 0x54 ∨ 0x54 < r.2.1) ∧
    (r.1 = bSlalom → 0x5C < r.2.1) ∧ (r.1 = bEcc → r.2.2.1 + 4 < 0x1000) ∧ (r.1 = bFault → r.2.2.1 + 4 < 0x800 ∨ 0x1000 ≤ r.2.1) := by
  decide

/-- The high halves of a run are no _LO registers of another run of its block. -/
theorem loRuns_apart : ∀ r ∈ loRuns, 8 ∣ r.2.2.2 ∧ ∀ q ∈ loRuns, q.1 = r.1 →
    r.2.2.1 + 4 < q.2.1 ∨ q.2.2.1 < r.2.1 + 4 ∨ q.2.1 % 8 = r.2.1 % 8 := by
  decide

theorem isLo_iff {b off : Nat} : isLo b off = true ↔
    ∃ r ∈ loRuns, r.1 = b ∧ r.2.1 ≤ off ∧ off ≤ r.2.2.1 ∧ (off - r.2.1) % r.2.2.2 = 0 := by
  simp [isLo, List.any_eq_true, and_assoc]

theorem isLo_below {b off : Nat} (h : isLo b off = true) : off + 4 < 0x4000 := by
  obtain ⟨r, hr, -, -, hhi, -⟩ := isLo_iff.mp h
  have := (loRuns_plain r hr).1
  omega

theorem readsPlain_of_run {r : Nat × Nat × Nat × Nat} (hr : r ∈ loRuns) {off : Nat} (hlo : r.2.1 ≤ off) (hhi : off ≤ r.2.2.1 + 4) :
    ReadsPlain r.1 off := by
  obtain ⟨-, hp, hs, he, hf⟩ := loRuns_plain r hr
  refine ⟨?_, fun c => by have := he c; omega, fun c => by have := hf c; omega⟩
  have h1 : ¬(r.1 = bPartner ∧ off = 0x54) := fun c => by have := hp c.1; omega
  have h2 : ¬(r.1 = bSlalom ∧ off = 0x10) := fun c => by have := hs c.1; omega
  have h3 : ¬(r.1 = bSlalom ∧ 0x20 ≤ off ∧ off ≤ 0x5C) := fun c => by have := hs c.1; omega
  simp only [rcField, if_neg h1, if_neg h2, if_neg h3]

theorem isLo_readsPlain {b off : Nat} (h : isLo b off = true) : ReadsPlain b off ∧ ReadsPlain b (off + 4) := by
  obtain ⟨r, hr, rfl, hlo, hhi, -⟩ := isLo_iff.mp h
  exact ⟨readsPlain_of_run hr hlo (by omega), readsPlain_of_run hr (by omega) (by omega)⟩

theorem isLo_next {b off : Nat} (h : isLo b off = true) : isLo b (off + 4) = false := by
  obtain ⟨r, hr, hb, hlo, hhi, hm⟩ := isLo_iff.mp h
  rw [Bool.eq_false_iff]
  intro h'
  obtain ⟨q, hq, hqb, hqlo, hqhi, hqm⟩ := isLo_iff.mp h'
  have hr8 : (off - r.2.1) % 8 = 0 := Nat.mod_eq_zero_of_dvd (Nat.dvd_trans (loRuns_apart r hr).1 (Nat.dvd_of_mod_eq_zero hm))
  have hq8 : (off + 4 - q.2.1) % 8 = 0 := Nat.mod_eq_zero_of_dvd (Nat.dvd_trans (loRuns_apart q hq).1 (Nat.dvd_of_mod_eq_zero hqm))
  have := (loRuns_apart r hr).2 q hq (hqb.trans hb.symm)
  omega

/-! ### Whole writes of registers -/

theorem Dev.storeReg_written (d : Dev) (inst b off x : Nat) : d.RegWritten inst b off x (d.storeReg inst b off x) := by
  unfold Dev.storeReg
  cases hr : regInfo b off with
  | none => exact ⟨fun r h => absurd (hr.symm.trans h) (by simp), fun _ => rfl, fun _ _ => rfl⟩
  | some r =>
    by_cases ho : rangeOk b off x = true
    · simp only [ho, Bool.not_true, Bool.false_eq_true, if_false]
      refine ⟨fun q hq _ => ?_, fun h => ?_, fun k hk => d.setCsr_key_ne _ (by simpa using hk)⟩
      · obtain rfl : r = q := Option.some.inj (hr.symm.trans hq)
        exact d.setCsr_csrAt_self _ _ _ _
      · rcases h with h | h
        · exact absurd (hr.symm.trans h) (by simp)
        · exact absurd (ho.symm.trans h) (by simp)
    · simp only [ho, Bool.not_false, if_true]
      exact ⟨fun _ _ h => absurd h ho, fun _ => rfl, fun _ _ => rfl⟩

theorem Dev.RegWritten.of_csr {inst b off x : Nat} {d e t : Dev} (h : d.RegWritten inst b off x e) (hc : t.csr = e.csr) :
    d.RegWritten inst b off x t := by
  simpa only [Dev.RegWritten, Dev.csrAt, Dev.RegsBut, hc] using h

theorem Dev.regWrite_plainBlock {b off : Nat} (hb : b ∈ plainBlocks) (ho : off ≠ 0 ∨ hasSelect b = false) (d : Dev) (ix v : Nat) :
    d.regWrite ix b off v = d.storeReg (instOf b off (tabGet (fun _ => 0) d.sel (ix * 256 + b))) b off v := by
  have hs : (off = 0 && hasSelect b) = false := by
    rcases ho with h | h <;> simp [h]
  unfold Dev.regWrite
  simp only [hs]
  simp only [plainBlocks, List.mem_cons, List.not_mem_nil, or_false] at hb
  rcases hb with rfl | rfl | rfl | rfl | rfl | rfl | rfl | rfl <;> rfl

theorem Dev.regWrite_select {b : Nat} (hb : hasSelect b = true) (d : Dev) (p : Path) (v : Nat) :
    d.regWrite (pathIx p) b 0 v = d.setSel p b (v % 2 ^ selWidth b) := by
  unfold Dev.regWrite Dev.setSel
  simp [hb]

/-- INJ_CFG is written in MAINT and SERVICE only (R254). -/
theorem Dev.regWrite_injCfg (d : Dev) (ix v : Nat) : d.regWrite ix bEcc 0x30 v =
    if d.clk.mode == .maint || d.clk.mode == .service then d.storeReg 0 bEcc 0x30 v else d := rfl

theorem hasSelect_implemented {b : Nat} (h : hasSelect b = true) : implemented b 0 = true ∧ b < 256 := by
  simp only [hasSelect, List.contains_eq_mem, List.mem_cons, List.not_mem_nil, or_false, decide_eq_true_eq] at h
  rcases h with rfl | rfl | rfl | rfl | rfl | rfl | rfl | rfl <;> decide

/-! ### What an access leaves -/

theorem Dev.accRecord_accessed {d e : Dev} (h : e.mgmt = d.mgmt) (st : Status) (v : Nat) : d.Accessed st v (e.accRecord st v) := by
  simp only [Dev.Accessed, Dev.accRecord, Dev.modMgmt_mgmt, h]

@[simp] theorem Dev.accRecord_ptn (d : Dev) (st : Status) (v k : Nat) : (d.accRecord st v).ptn k = d.ptn k := rfl
@[simp] theorem Dev.accRecord_eng (d : Dev) (st : Status) (v k : Nat) : (d.accRecord st v).eng k = d.eng k := rfl
@[simp] theorem Dev.accRecord_sla (d : Dev) (st : Status) (v : Nat) : (d.accRecord st v).sla = d.sla := rfl
@[simp] theorem Dev.accRecord_csr (d : Dev) (st : Status) (v : Nat) : (d.accRecord st v).csr = d.csr := rfl
@[simp] theorem Dev.accRecord_evt (d : Dev) (st : Status) (v : Nat) : (d.accRecord st v).evt = d.evt := rfl

section
variable {i : Instr} {s : State} {p : Path} {a v : Nat} {P : State → Prop}

/-- A command that is one write completes with what the write does, its answer recorded. -/
theorem Completes.write {st : Status} {e : Dev} (hi : exec i s = guardNext (pathOk p) (fun d => d.pathWrite p a v) s) (hp : s.dev.PathOpen p)
    (hw : s.dev.csrWrite (pathIx p) a v = (st, e)) (h : P { s with dev := e.accRecord st 0 }) : Completes i s P := by
  refine Completes.next _ hi hp.1 ?_
  simpa only [Dev.pathWrite, hw] using h

/-- A write that changes nothing leaves its status only. -/
theorem Completes.write_idle {st : Status} (hi : exec i s = guardNext (pathOk p) (fun d => d.pathWrite p a v) s) (hp : s.dev.PathOpen p)
    (hw : s.dev.csrWrite (pathIx p) a v = (st, s.dev)) :
    Completes i s (fun t => s.dev.Accessed st 0 t.dev ∧ Keeps [.mgmt] s t) :=
  Completes.write hi hp hw ⟨Dev.accRecord_accessed rfl _ _, Keeps.of_dev (s.dev.accRecord_keep _ _)⟩

/-- A command that is one read of a register completes with the value read and the effect of the read. -/
theorem Completes.read {b off : Nat} {z : Nat} {e : Dev} (hi : exec i s = guardNext (pathOk p) (fun d => d.pathRead p a) s) (hp : s.dev.PathOpen p)
    (ha : RegAddr a b 0 off) (hv : (s.dev.csrRead (pathIx p) a).value = z)
    (he : (s.dev.setLatch (pathIx p) b (s.dev.latchAfter (pathIx p) b off)).readEffect (pathIx p) b off = e)
    (h : s.dev.Accessed .ok z (e.accRecord .ok z) → P { s with dev := e.accRecord .ok z }) : Completes i s P := by
  have hm : e.mgmt = s.dev.mgmt := he ▸ Dev.readEffect_keep _ _ _ _ .mgmt (by decide)
  refine Completes.next _ hi hp.1 ?_
  simpa only [Dev.pathRead, Dev.csrRead_status ha hp.accepts, Dev.csrRead_dev ha hp.accepts, hv, he] using h (Dev.accRecord_accessed hm _ _)

end

/-! ### The snapshot (R483) -/

theorem fld_bit0 (v : Word) : fld v 0 1 = 1 ↔ bit v.toNat 0 = true := by
  simp [fld, bits, bit, Nat.testBit_zero]

theorem Dev.PathOpen.notEnded {d : Dev} {p : Path} (h : d.PathOpen p) : (p == .jtag && d.otp.lc == .ended) = false := by
  by_cases hj : p = .jtag
  · simp [hj, h.2 hj]
  · simp [hj]

/-- An arbitration where nothing else came at this DT records no order (R259). -/
theorem Dev.arb_firstAt {d : Dev} {unit inst : Nat} (h : d.FirstAt unit inst) (who aux : Nat) :
    (d.arb unit inst who aux).telem.ring = d.telem.ring ∧ (d.arb unit inst who aux).telem.next = d.telem.next := by
  unfold Dev.arb
  simp only [if_neg (show ¬ _ = _ from h), and_self]

theorem Dev.arb_snapSeq (d : Dev) (unit inst who aux : Nat) : (d.arb unit inst who aux).telem.snapSeq = d.telem.snapSeq := by
  unfold Dev.arb
  dsimp only
  split <;> rfl

theorem Dev.snapshot_boot {d : Dev} (h : d.clk.mode = .boot) (src : Nat) : d.snapshot src = d := by
  simp [Dev.snapshot, h]

section
variable {d : Dev} (h : d.clk.mode ≠ .boot) (src : Nat)
include h

theorem Dev.snapshot_telem : (d.snapshot src).telem = { (d.arb 10 2 src 0).telem with
    ctrHold := d.ctr, audHold := d.audits.foldl (fun a x => tabSet audZero a x.1 x.2) []
    snapSeq := (d.telem.snapSeq + 1) % 2 ^ 32, snapDt := d.dt, snapSrc := src } := by
  have hb : (d.clk.mode == .boot) = false := by simpa using h
  simp only [Dev.snapshot, hb, Bool.false_eq_true, if_false, Dev.modTelem_telem, Dev.arb_snapSeq]

end

/-! ### The accesses of R8, R253, R254, R476, R478 and R483 -/

section
variable {s : State} {p : Path} (hp : s.dev.PathOpen p)
include hp

theorem selectWrite_sets {b : Nat} (hb : hasSelect b = true) (v : Word) : Completes (.selectWrite p b v) s (fun t =>
    tabGet (fun _ => 0) t.dev.sel (pathIx p * 256 + b) = v.toNat % 2 ^ selWidth b ∧
    (∀ q : Nat, q ≠ pathIx p * 256 + b → tabGet (fun _ => 0) t.dev.sel q = tabGet (fun _ => 0) s.dev.sel q) ∧
    s.dev.Accessed .ok 0 t.dev ∧ Keeps [.sel, .mgmt] s t) := by
  obtain ⟨hi, hlt⟩ := hasSelect_implemented hb
  have ha : RegAddr (b * 0x10000) b 0 0 := .plain (Nat.add_zero _).symm hlt (by decide) rfl
  have hw := Dev.csrWrite_plain ha hp.accepts hi (fun _ => by simp [partnerMay, hb]) v.toNat
  rw [Dev.regWrite_select hb] at hw
  have he : exec (.selectWrite p b v) s = guardNext (pathOk p) (fun d => d.pathWrite p (b * 0x10000) v.toNat) s := by
    change guardNext _ (fun d => if hasSelect b then d.pathWrite p (b * 0x10000) v.toNat else d) s = _
    simp only [hb, if_true]
  exact Completes.write he hp hw
    ⟨tabGet_tabSet_self _ _ _ _, fun q hq => tabGet_tabSet_ne _ _ _ hq, Dev.accRecord_accessed rfl _ _, Keeps.of_dev (by simp)⟩

theorem selectWrite_none {b : Nat} (hb : hasSelect b = false) (v : Word) : exec (.selectWrite p b v) s = .next s := by
  have he : exec (.selectWrite p b v) s = _ := (guardNext_pos hp.1 : execSelectWrite p b v s = _)
  rw [he]
  simp [hb]

theorem partnerWrite_leaves {a b off : Nat} (ha : RegAddr a b 0 off) (hi : implemented b off = true) (hx : pathIx p < 64)
    (hm : partnerMay b off = false) (v : Word) {c : Instr} (hc : c = .registerWrite p a v ∨ c = .setAliasWrite p a v ∨
      c = .clearAliasWrite p a v ∨ c = .toggleAliasWrite p a v) :
    Completes c s (fun t => s.dev.Accessed (if partnerIgnored b off then .ok else .denied) 0 t.dev ∧ Keeps [.mgmt] s t) := by
  rcases hc with rfl | rfl | rfl | rfl
  · exact Completes.write_idle rfl hp (Dev.csrWrite_partnerRefused ha hi hx hm _)
  · exact Completes.write_idle rfl hp (Dev.csrWrite_partnerRefused (ha.inView (by decide)) hi hx hm _)
  · exact Completes.write_idle rfl hp (Dev.csrWrite_partnerRefused (ha.inView (by decide)) hi hx hm _)
  · exact Completes.write_idle rfl hp (Dev.csrWrite_partnerRefused (ha.inView (by decide)) hi hx hm _)

theorem registerWrite_stores {a b off : Nat} (ha : RegAddr a b 0 off) (hi : implemented b off = true) (hb : b ∈ plainBlocks)
    (ho : off ≠ 0 ∨ hasSelect b = false) (hw : s.dev.mayWrite p = true) (v : Word) : Completes (.registerWrite p a v) s (fun t =>
      s.dev.RegWritten (instOf b off (s.dev.selOf p b)) b off v.toNat t.dev ∧ s.dev.Accessed .ok 0 t.dev ∧ Keeps [.csr, .mgmt] s t) := by
  have hwr := Dev.csrWrite_plain ha hp.accepts hi (fun hx => absurd hx (Dev.mayWrite_notPartner hw)) v.toNat
  rw [Dev.regWrite_plainBlock hb ho] at hwr
  have hk := s.dev.storeReg_keep (instOf b off (s.dev.selOf p b)) b off v.toNat
  exact Completes.write rfl hp hwr ⟨(s.dev.storeReg_written _ _ _ _).of_csr rfl, Dev.accRecord_accessed (hk .mgmt (by decide)) _ _,
    Keeps.of_dev (by simp)⟩

theorem loRead_latches {a b off : Nat} (ha : RegAddr a b 0 off) (hlo : isLo b off = true) (hl : s.dev.latchOf (pathIx p) b = none) :
    Completes (.loReadLatch p a) s (fun t => s.dev.Accessed .ok (s.dev.regShows (pathIx p) b off) t.dev ∧
      t.dev.latchOf (pathIx p) b = some (off, s.dev.regShows (pathIx p) b (off + 4)) ∧
      (∀ (q : Nat) (c : Nat), (q, c) ≠ (pathIx p, b) → c < 256 → t.dev.latchOf q c = s.dev.latchOf q c) ∧ Keeps [.latch, .mgmt] s t) := by
  have hr := (isLo_readsPlain hlo).1
  have hv := Dev.csrRead_value_live ha hp.accepts hl
  rw [Dev.rcShows_plain hr.1] at hv
  refine Completes.read rfl hp ha hv (Dev.readEffect_plain hr _ _) fun hacc => ⟨hacc, ?_, fun q c hq hc => ?_, Keeps.of_dev (by simp)⟩
  · have hlatch : s.dev.latchAfter (pathIx p) b off = some (off, s.dev.regShows (pathIx p) b (off + 4)) := if_pos hlo
    exact (tabGet_tabSet_self _ _ _ _).trans hlatch
  · have hkey : q * 256 + c ≠ pathIx p * 256 + b := by
      have := ha.blk
      intro h
      exact hq (Prod.ext (by simp only; omega) (by simp only; omega))
    exact tabGet_tabSet_ne _ _ _ hkey

theorem hiRead_takesLatch {a b off h : Nat} (ha : RegAddr a b 0 off) (hlo : isLo b off = true)
    (hl : s.dev.latchOf (pathIx p) b = some (off, h)) : Completes (.loReadLatch p (a + 4)) s (fun t =>
      s.dev.Accessed .ok h t.dev ∧ t.dev.latchOf (pathIx p) b = none ∧ Keeps [.latch, .mgmt] s t) := by
  have hr := (isLo_readsPlain hlo).2
  have ha' : RegAddr (a + 4) b 0 (off + 4) :=
    ⟨by rw [ha.eq, Nat.add_assoc], ha.blk, ha.view, isLo_below hlo, by rw [Nat.add_mod_right, ha.aligned]⟩
  have hv := Dev.csrRead_value_latched ha' hp.accepts hl
  rw [Dev.rcShows_plain hr.1] at hv
  refine Completes.read rfl hp ha' hv (Dev.readEffect_plain hr _ _) fun hacc => ⟨hacc, ?_, Keeps.of_dev (by simp)⟩
  have hlatch : s.dev.latchAfter (pathIx p) b (off + 4) = none := if_neg (by simp [isLo_next hlo])
  exact (tabGet_tabSet_self _ _ _ _).trans hlatch

/-- A read of an RC field of the selected unit `k`, whose register shows `live`: the value read is of R9, and `e` is what the read leaves. -/
theorem rcRead_completes {P : State → Prop} {a b off lo w k live : Nat} {e : Dev} (ha : RegAddr a b 0 off) (hf : rcField b off = some (lo, w))
    (hl : s.dev.latchOf (pathIx p) b = none) (hk : k = s.dev.selOf p b) (hs : s.dev.regShows (pathIx p) b off = live)
    (he : (s.dev.setLatch (pathIx p) b (s.dev.latchAfter (pathIx p) b off)).readEffect (pathIx p) b off = e)
    (h : ∀ z, s.dev.RcReads k b off lo w live z (s.dev.rcNow k b off 0).2 → s.dev.Accessed .ok z (e.accRecord .ok z) →
      P { s with dev := e.accRecord .ok z }) : Completes (.rcFieldRead p a) s P := by
  subst hs
  exact Completes.read rfl hp ha (Dev.csrRead_value_live ha hp.accepts hl) he (h _ (s.dev.rcShows_reads hf hk _))

theorem rspDropRead_clears {k : Nat} (hl : s.dev.latchOf (pathIx p) bPartner = none) (hk : k = s.dev.selOf p bPartner) :
    Completes (.rcFieldRead p 0x0A0054) s (fun t =>
      ∃ (z : Nat) (rest : Nat), s.dev.RcReads k bPartner 0x54 24 8 (s.dev.ptAudit2 k) z rest ∧ s.dev.Accessed .ok z t.dev ∧ s.dev.PtnsBut k t.dev ∧
      t.dev.ptn k = (if pathIx p < 64 then s.dev.ptn k else { s.dev.ptn k with rspDrop := rest }) ∧
      t.dev.csr = s.dev.csr ∧ t.dev.evt = s.dev.evt ∧ Keeps [.ptn, .csr, .latch, .mgmt] s t) := by
  have ha : RegAddr 0x0A0054 bPartner 0 0x54 := .plain rfl (by decide) (by decide) rfl
  have hs : s.dev.regShows (pathIx p) bPartner 0x54 = s.dev.ptAudit2 k := by subst hk; rfl
  by_cases hx : pathIx p < 64
  · exact rcRead_completes hp ha rfl hl hk hs (Dev.readEffect_partner hx _ _ _)
      fun _ hr hacc => ⟨_, _, hr, hacc, fun _ _ => rfl, (if_pos hx).symm, rfl, rfl, Keeps.of_dev (by simp)⟩
  · exact rcRead_completes hp ha rfl hl hk hs (Dev.readEffect_rspDrop hx _ hk)
      fun _ hr hacc => ⟨_, _, hr, hacc, fun _ hm => Dev.modPtn_ptn_ne _ _ hm, (Dev.modPtn_ptn_self _ _ _).trans (if_neg hx).symm,
        rfl, rfl, Keeps.of_dev (by simp [Dev.rcTaken_keeps])⟩

theorem roundMaxRead_clears {k : Nat} (hl : s.dev.latchOf (pathIx p) bSlalom = none) (hk : k = s.dev.selOf p bSlalom) :
    Completes (.rcFieldRead p 0x180010) s (fun t =>
      ∃ (z : Nat) (rest : Nat), s.dev.RcReads k bSlalom 0x10 24 8 (s.dev.rdSlalom k 0x10) z rest ∧ s.dev.Accessed .ok z t.dev ∧
      (∀ q : Nat, q ≠ k → t.dev.eng q = s.dev.eng q) ∧
      t.dev.eng k = (if pathIx p < 64 then s.dev.eng k else { s.dev.eng k with roundMax := rest }) ∧
      t.dev.csr = s.dev.csr ∧ t.dev.evt = s.dev.evt ∧ Keeps [.sla, .csr, .latch, .mgmt] s t) := by
  have ha : RegAddr 0x180010 bSlalom 0 0x10 := .plain rfl (by decide) (by decide) rfl
  have hs : s.dev.regShows (pathIx p) bSlalom 0x10 = s.dev.rdSlalom k 0x10 := by subst hk; rfl
  by_cases hx : pathIx p < 64
  · exact rcRead_completes hp ha rfl hl hk hs (Dev.readEffect_partner hx _ _ _)
      fun _ hr hacc => ⟨_, _, hr, hacc, fun _ _ => rfl, (if_pos hx).symm, rfl, rfl, Keeps.of_dev (by simp)⟩
  · exact rcRead_completes hp ha rfl hl hk hs (Dev.readEffect_roundMax hx _ hk)
      fun _ hr hacc => ⟨_, _, hr, hacc, fun _ hm => Dev.modEng_eng_ne _ _ hm, (Dev.modEng_eng_self _ _ _).trans (if_neg hx).symm,
        rfl, rfl, Keeps.of_dev (by simp [Dev.rcTaken_keeps])⟩

theorem peakRead_clears {k j : Nat} (hj : j < 16) (hl : s.dev.latchOf (pathIx p) bSlalom = none) (hk : k = s.dev.selOf p bSlalom) :
    Completes (.rcFieldRead p (0x180020 + 4 * j)) s (fun t =>
      ∃ (z : Nat) (rest : Nat), s.dev.RcReads k bSlalom (0x20 + 4 * j) 8 7 (s.dev.rdSlalom k (0x20 + 4 * j)) z rest ∧ s.dev.Accessed .ok z t.dev ∧
      tabGet (fun _ => 0) t.dev.sla.peak (16 * k + j) = (if pathIx p < 64 then tabGet (fun _ => 0) s.dev.sla.peak (16 * k + j) else rest) ∧
      (∀ q : Nat, q ≠ 16 * k + j → tabGet (fun _ => 0) t.dev.sla.peak q = tabGet (fun _ => 0) s.dev.sla.peak q) ∧
      t.dev.sla = { s.dev.sla with peak := t.dev.sla.peak } ∧ t.dev.csr = s.dev.csr ∧ t.dev.evt = s.dev.evt ∧
      Keeps [.sla, .csr, .latch, .mgmt] s t) := by
  have ha : RegAddr (0x180020 + 4 * j) bSlalom 0 (0x20 + 4 * j) := .plain (by simp only [bSlalom]; omega) (by decide) (by omega) (by omega)
  have hs : s.dev.regShows (pathIx p) bSlalom (0x20 + 4 * j) = s.dev.rdSlalom k (0x20 + 4 * j) := by
    subst hk; exact Dev.regShows_peak hj
  by_cases hx : pathIx p < 64
  · exact rcRead_completes hp ha (rcField_peak hj) hl hk hs (Dev.readEffect_partner hx _ _ _)
      fun _ hr hacc => ⟨_, _, hr, hacc, (if_pos hx).symm, fun _ _ => rfl, rfl, rfl, rfl, Keeps.of_dev (by simp)⟩
  · exact rcRead_completes hp ha (rcField_peak hj) hl hk hs (Dev.readEffect_peak hx _ hj hk)
      fun _ hr hacc => ⟨_, _, hr, hacc, (Dev.setPeak_self _ _ _).trans (if_neg hx).symm, fun _ hm => Dev.setPeak_ne _ _ _ hm,
        Dev.setPeak_sla _ _ _, by simp, by simp, Keeps.of_dev (by simp [Dev.rcTaken_keeps, Dev.setPeak_keeps])⟩

theorem elogRead_frees {n : Nat} (hn : n < 64) : Completes (.elogEntryRead p n) s (fun t =>
    t.dev.elogAt n = (if pathIx p < 64 then s.dev.elogAt n else { s.dev.elogAt n with unread := false }) ∧
    (∀ q : Nat, q ≠ n → t.dev.elogAt q = s.dev.elogAt q) ∧ t.dev.ecc = { s.dev.ecc with elog := t.dev.ecc.elog } ∧
    Keeps [.ecc, .latch, .mgmt] s t) := by
  have ha : RegAddr (0x280000 + 0x1000 + 32 * n + 28) bEcc 0 (0x1000 + 32 * n + 28) :=
    .plain (by simp only [bEcc]; omega) (by decide) (by omega) (by omega)
  have he : exec (.elogEntryRead p n) s = guardNext (pathOk p) (fun d => d.pathRead p (0x280000 + 0x1000 + 32 * n + 28)) s := by
    have hok : (pathOk p && elogOk n) = pathOk p := by simp [elogOk, hn]
    exact congrArg (fun ok => guardNext ok (fun d => d.pathRead p (0x280000 + 0x1000 + 32 * n + 28)) s) hok
  by_cases hx : pathIx p < 64
  · exact Completes.read he hp ha rfl (Dev.readEffect_partner hx _ _ _) fun _ => ⟨(if_pos hx).symm, fun _ _ => rfl, rfl, Keeps.of_dev (by simp)⟩
  · exact Completes.read he hp ha rfl (Dev.readEffect_elog hx _ hn)
      fun _ => ⟨(Dev.freeElog_elogAt_self _ _).trans (if_neg hx).symm, fun _ hm => Dev.freeElog_elogAt_ne _ hm, rfl, Keeps.of_dev (by simp [Dev.freeElog])⟩

theorem injWrite_stores (hw : s.dev.mayWrite p = true) (hm : s.dev.clk.mode = .maint ∨ s.dev.clk.mode = .service) {c : Instr} {x : Nat}
    (hc : exec c s = guardNext (pathOk p) (fun d => d.pathWrite p 0x280030 x) s) : Completes c s (fun t =>
      t.dev.csrAt 0 bEcc 0x30 = word (x &&& 0xFF3F) ∧ s.dev.RegsBut [regKey 0 bEcc 0x30] t.dev ∧ s.dev.Accessed .ok 0 t.dev ∧
      Keeps [.csr, .mgmt] s t) := by
  have ha : RegAddr 0x280030 bEcc 0 0x30 := .plain rfl (by decide) (by decide) rfl
  have hwr := Dev.csrWrite_plain ha hp.accepts (by decide) (fun hx => absurd hx (Dev.mayWrite_notPartner hw)) x
  have hon : (s.dev.clk.mode == .maint || s.dev.clk.mode == .service) = true := by simpa using hm
  rw [Dev.regWrite_injCfg, if_pos hon] at hwr
  obtain ⟨hset, -, hbut⟩ := s.dev.storeReg_written 0 bEcc 0x30 x
  have hreg : (s.dev.storeReg 0 bEcc 0x30 x).csrAt 0 bEcc 0x30 = word (x &&& 0xFF3F) := by
    rw [hset ⟨0x28, 0x30, 0xFF3F, 0, 0⟩ (by decide) rfl]
    simp [clearBits]
  have hk := s.dev.storeReg_keep 0 bEcc 0x30 x
  exact Completes.write hc hp hwr ⟨hreg, hbut, Dev.accRecord_accessed (hk .mgmt (by decide)) _ _, Keeps.of_dev (by simp)⟩

theorem injWrite_ignored (hm : pathIx p < 64 ∨ (s.dev.clk.mode ≠ .maint ∧ s.dev.clk.mode ≠ .service)) {c : Instr} {x : Nat}
    (hc : exec c s = guardNext (pathOk p) (fun d => d.pathWrite p 0x280030 x) s) :
    Completes c s (fun t => s.dev.Accessed .ok 0 t.dev ∧ Keeps [.mgmt] s t) := by
  have ha : RegAddr 0x280030 bEcc 0 0x30 := .plain rfl (by decide) (by decide) rfl
  by_cases hx : pathIx p < 64
  · exact Completes.write_idle hc hp (Dev.csrWrite_partnerRefused ha (by decide) hx (by decide) x)
  · have hoff : (s.dev.clk.mode == .maint || s.dev.clk.mode == .service) = false := by simpa using hm.resolve_left hx
    have hwr := Dev.csrWrite_plain ha hp.accepts (by decide) (fun h => absurd h hx) x
    rw [Dev.regWrite_injCfg, hoff] at hwr
    exact Completes.write_idle hc hp hwr

theorem snapGo_eq (v : Word) : exec (.snapGo p v) s = .next { s with dev := if bit v.toNat 0 then s.dev.snapshot (pathIx p) else s.dev } := by
  have he : exec (.snapGo p v) s = _ := (guardNext_pos hp.1 : execSnapGo p v s = _)
  rw [he]
  simp only [hp.notEnded, Bool.not_false, Bool.and_true, decide_eq_true_eq, fld_bit0]

theorem snapGo_snapshots {v : Word} (hv : bit v.toNat 0 = true) (hm : s.dev.clk.mode ≠ .boot) : Completes (.snapGo p v) s (fun t =>
    t.dev.telem.ctrHold = s.dev.ctr ∧ t.dev.telem.snapSeq = (s.dev.telem.snapSeq + 1) % 2 ^ 32 ∧ t.dev.telem.snapDt = s.dev.dt ∧
    t.dev.telem.snapSrc = pathIx p ∧
    (s.dev.FirstAt 10 2 → t.dev.telem.ring = s.dev.telem.ring ∧ t.dev.telem.next = s.dev.telem.next) ∧ Keeps [.telem] s t) := by
  have he := snapGo_eq hp v
  rw [if_pos hv] at he
  refine ⟨_, he, ?_⟩
  simp only [Dev.snapshot_telem hm, true_and]
  exact ⟨fun hf => Dev.arb_firstAt hf _ _, Keeps.of_dev (s.dev.snapshot_keep _)⟩

theorem snapGo_ignored {v : Word} (h : bit v.toNat 0 = false ∨ s.dev.clk.mode = .boot) : exec (.snapGo p v) s = .next s := by
  rw [snapGo_eq hp v]
  rcases h with h | h
  · simp [h]
  · simp [Dev.snapshot_boot h]

end

/-- Settles O55: each clause is the law of its kind of access above, at the address that the statement names. -/
theorem registerAccess : Obligations.RegisterAccess := by
  unfold Obligations.RegisterAccess
  intro s p x b off a n j k v hx hp ha h4 hb
  subst hx
  have addr : off < 0x4000 → RegAddr a b 0 off := fun hlt => .plain ha hb hlt h4
  refine ⟨fun hs => selectWrite_sets hp hs v, fun hs => selectWrite_none hp hs v, ?_, ?_, ?_, ?_, ?_, ?_, ?_, ?_, ?_, ?_, ?_⟩
  · exact fun hlt hi => Completes.write_idle rfl hp (Dev.csrWrite_reserved (addr hlt) hp.accepts hi _)
  · intro hlt hi hx hm y hy c hc
    subst hy
    exact partnerWrite_leaves hp (addr hlt) hi hx hm v hc
  · exact fun hlt hi hpl ho hw => registerWrite_stores hp (addr hlt) hi hpl ho hw v
  · intro hlo _
    have hlt := addr (Nat.lt_of_le_of_lt (Nat.le_add_right _ _) (isLo_below hlo))
    exact ⟨loRead_latches hp hlt hlo, fun h => hiRead_takesLatch hp hlt hlo⟩
  · exact fun hl hk => rspDropRead_clears hp hl hk
  · exact fun hl hk => ⟨roundMaxRead_clears hp hl hk, fun hj => peakRead_clears hp hj hl hk⟩
  · exact fun hn => elogRead_frees hp hn
  · exact fun hv hm => snapGo_snapshots hp hv hm
  · exact fun h => snapGo_ignored hp h
  · exact fun hw hm => ⟨injWrite_stores hp hw hm rfl, injWrite_stores hp hw hm rfl⟩
  · rintro hm c (rfl | rfl)
    · exact injWrite_ignored hp hm rfl
    · exact injWrite_ignored hp hm rfl

end Sys2Proof.Machine
end

section
/-!
PROOFS. O42: in some states MODE_TIMEOUT of a DOZE exit leaves its MODE_SET without an answer. A lane that rests again makes its port in FAIL
try again (R71, R97), and the fresh start of a port frees the slot pair whose response has begun on it (R106): here the pair that asked for
the transition. First what a fresh start does to such a pair, then what a lane that rests does, then the way back into DOZE, then the state
that refutes the statement.
-/
namespace Sys2Proof.Machine

/-! ### A mailbox response begun on a port -/

/-- The response of pair `i` of partner `k` has begun on VC3 of port `n` and is not wholly sent (R106). -/
structure Dev.ResponseBegun (d : Dev) (n k i : Nat) : Prop where
  present : d.present k = true
  begun : ∃ x, (d.ptx n).p3 = some x ∧ x.ref = .rsp i ∧ x.partner = k ∧ x.first = false

theorem Dev.ResponseBegun.of_keeps {ps : List Part} {a b : Dev} {n k i : Nat} (h : a.ResponseBegun n k i) (hk : Dev.Keeps ps a b)
    (hx : .ptx ∉ ps) (hp : .ptn ∉ ps) : b.ResponseBegun n k i := by
  have hptx : b.link.ptx = a.link.ptx := hk .ptx hx
  have hptn : b.link.ptn = a.link.ptn := (hk .ptn hp).1
  obtain ⟨hpres, hbegun⟩ := h
  constructor
  · simpa only [Dev.present, Dev.ptn, hptn] using hpres
  · simpa only [Dev.ptx, hptx] using hbegun

theorem Dev.Keeps.pair {ps : List Part} {a b : Dev} (h : Dev.Keeps ps a b) (hm : .mbox ∉ ps) (o i : Nat) : b.pair o i = a.pair o i := by
  have hmbox : b.mbox = a.mbox := h .mbox hm
  simp only [Dev.pair, hmbox]

theorem Dev.Keeps.lane {ps : List Part} {a b : Dev} (h : Dev.Keeps ps a b) (hl : .lane ∉ ps) (l : Nat) : b.lane l = a.lane l := by
  have hlane : b.link.lane = a.link.lane := h .lane hl
  simp only [Dev.lane, hlane]

theorem Dev.rspDropped_pair (d : Dev) (k o i : Nat) : (d.rspDropped k).pair o i = d.pair o i := by
  obtain ⟨-, -, -, hpost⟩ := Dev.Noted.post (rs := []) (cs := []) (ns := [])
    ((d.rcNote k bPartner 0x54 (d.ptn k).rspDrop (fun v => min 255 (v + 1))).modPtn k (fun p => { p with rspDrop := min 255 (p.rspDrop + 1) }))
    k 5 ([byte k, 0] ++ leBytes 2 1)
  exact hpost o i

section
variable {d : Dev} {n k i : Nat}

theorem Dev.dropVc3_frees (h : d.ResponseBegun n k i) : (d.dropVc3 n).pair k i = {} := by
  obtain ⟨hpres, x, hx, href, rfl, hfirst⟩ := h
  have hdrop : d.dropVc3 n = (d.modPair x.partner i (fun _ => {})).rspDropped x.partner := by
    simp [Dev.dropVc3, hx, hfirst, hpres, href]
  rw [hdrop, Dev.rspDropped_pair, Dev.modPair_pair_self]

theorem Dev.portClear_frees (h : d.ResponseBegun n k i) : (d.portClear n).pair k i = {} :=
  Dev.dropVc3_frees (h.of_keeps (Dev.dropArriving_keep d n) (by decide) (by decide))

theorem Dev.portBond_fresh_frees (h : d.ResponseBegun n k i) : (d.portBond n true).pair k i = {} := by
  have hbond : Dev.Keeps [.port] (((d.portDown n).modPort n (fun p => { p with st := .bond })).portClear n) (d.portBond n true) := by
    simp [Dev.portBond]
  rw [hbond.pair (by decide)]
  exact Dev.portClear_frees (h.of_keeps (ps := [.port, .csr]) (by simp) (by decide) (by decide))

end

/-! ### A port in BOND without an ACTIVE lane -/

/-- A fold whose every step leaves its start as it is. -/
theorem foldl_idle {α β : Type} {f : α → β → α} {a : α} (h : ∀ b, f a b = a) : ∀ l : List β, l.foldl f a = a
  | [] => rfl
  | b :: l => by rw [List.foldl_cons, h b, foldl_idle h l]

theorem Dev.portCollect_idle {d : Dev} (h : ∀ l, (d.lane l).st ≠ .active) (n : Nat) : Dev.Keeps [.port] d (d.portCollect n) := by
  unfold Dev.portCollect
  extract_lets w d1
  have h1 : d1 = d := by
    refine foldl_idle (fun j => ?_) _
    simp [h]
  rw [h1]
  split
  · exact Dev.Keeps.refl _ d
  · split
    · exact Dev.portNeg_keep d n
    · exact Dev.Keeps.refl _ d

theorem Dev.portRebond_idle {d : Dev} (h : ∀ l, (d.lane l).st ≠ .active) (n : Nat) :
    Dev.Keeps [.port] (d.portBond n true) (d.portRebond n true) := by
  refine Dev.portCollect_idle (fun l => ?_) n
  rw [(Dev.portBond_keep d n true).lane (by decide)]
  exact h l

theorem Dev.portRebond_lane {d : Dev} (h : ∀ l, (d.lane l).st ≠ .active) (n m : Nat) : (d.portRebond n true).lane m = d.lane m :=
  ((Dev.portRebond_idle h n).lane (by decide) m).trans ((Dev.portBond_keep d n true).lane (by decide) m)

theorem Dev.portRebond_fresh_frees {d : Dev} {n k i : Nat} (hb : d.ResponseBegun n k i) (h : ∀ l, (d.lane l).st ≠ .active) :
    (d.portRebond n true).pair k i = {} :=
  ((Dev.portRebond_idle h n).pair (by decide) k i).trans (Dev.portBond_fresh_frees hb)

/-! ### A lane that rests -/

theorem Dev.sendLsig_st (d : Dev) (l sig m : Nat) : ((d.sendLsig l sig).lane m).st = (d.lane m).st := by
  unfold Dev.sendLsig
  rw [(Dev.laneSend_keep _ l).lane (by decide)]
  by_cases hm : m = l
  · simp [hm]
  · rw [Dev.modLane_lane_ne _ _ hm]

theorem Dev.laneRest_st (d : Dev) (l m : Nat) (s : LaneSt) (sig : Nat) :
    ((d.laneRest l s sig).lane m).st = if m = l then s else (d.lane m).st := by
  unfold Dev.laneRest
  extract_lets d1
  have h1 : (d1.lane m).st = if m = l then s else (d.lane m).st := by
    rw [(Dev.linDrop_keep _ l).lane (by decide), Dev.sendLsig_st]
    by_cases hm : m = l
    · simp [hm, Lane.goTo]
    · rw [Dev.modLane_lane_ne _ _ hm, if_neg hm]
  split
  · rw [(Dev.octStop_keep d1 _).lane (by decide), h1]
  · exact h1

theorem Dev.laneQuiet_of_active {d : Dev} {l : Nat} (ha : (d.lane l).st = .active) (hf : d.inFrame l (d.lane l).actAt = false)
    (hq : (d.lane l).farQuiet = true) : d.laneQuiet l = d.laneRest l .quiet 1 := by
  simp [Dev.laneQuiet, ha, hf, hq]

theorem Dev.laneQuiet_atRest {d : Dev} {l : Nat} (ha : (d.lane l).st ≠ .active) (hd : (d.lane l).st ≠ .deep) : d.laneQuiet l = d := by
  unfold Dev.laneQuiet
  extract_lets x
  split
  · contradiction
  · contradiction
  · rfl

/-- Lanes that are asked to rest in QUIET, one after the other (R375). -/
def Dev.quietAll (d : Dev) (ls : List Nat) : Dev := ls.foldl (fun (a : Dev) l => a.laneDo l (fun x => x.laneQuiet l)) d

theorem Dev.laneDo_quiet_atRest {d : Dev} {l : Nat} (ha : (d.lane l).st ≠ .active) (hd : (d.lane l).st ≠ .deep) :
    Dev.Keeps [.telem, .therm, .ctr] d (d.laneDo l (fun x => x.laneQuiet l)) := by
  simp [Dev.laneDo, Dev.laneNotify, Dev.laneQuiet_atRest ha hd]

theorem Dev.quietAll_atRest (ls : List Nat) {d : Dev} (h : ∀ l, (d.lane l).st ≠ .active ∧ (d.lane l).st ≠ .deep) :
    Dev.Keeps [.telem, .therm, .ctr] d (d.quietAll ls) := by
  induction ls generalizing d with
  | nil => exact Dev.Keeps.refl _ d
  | cons l ls ih =>
    have h1 := Dev.laneDo_quiet_atRest (h l).1 (h l).2
    exact h1.trans (ih (fun m => by rw [h1.lane (by decide)]; exact h m))

/-- Port `n` of lane `l` stands in FAIL, enabled: it tries again as the lane changes its state (R71, R97). -/
structure Dev.Retries (d : Dev) (l n : Nat) : Prop where
  port : d.portOfLane l = some n
  fails : (d.port n).st = .fail
  enabled : d.cfgFld n bPort 0x10 0 1 = 1

theorem Dev.Retries.of_keeps {ps : List Part} {a b : Dev} {l n : Nat} (h : a.Retries l n) (hk : Dev.Keeps ps a b) (hp : .port ∉ ps)
    (hc : .csr ∉ ps) : b.Retries l n := by
  have hport : b.link.port = a.link.port := hk .port hp
  have hcsr : b.csr = a.csr := (hk .csr hc).1
  obtain ⟨hof, hfail, hon⟩ := h
  constructor
  · simpa only [Dev.portOfLane, Dev.portWidth, Dev.cfgFld, Dev.csrAt, hcsr] using hof
  · simpa only [Dev.port, hport] using hfail
  · simpa only [Dev.cfgFld, Dev.csrAt, hcsr] using hon

theorem Dev.linkLaneChange_retries {d : Dev} {l n : Nat} (h : d.Retries l n) : d.linkLaneChange l = d.portRebond n true := by
  simp [Dev.linkLaneChange, h.port, h.fails, h.enabled]

/-- Lane `l` is the one lane in ACTIVE, none is in DEEP, and it may rest in QUIET at once (R59, R60). -/
structure Dev.LastActive (d : Dev) (l : Nat) : Prop where
  active : (d.lane l).st = .active
  mayRest : (d.lane l).farQuiet = true
  notAsked : d.inFrame l (d.lane l).actAt = false
  others : ∀ m, m ≠ l → (d.lane m).st ≠ .active ∧ (d.lane m).st ≠ .deep

theorem Dev.LastActive.of_keeps {ps : List Part} {a b : Dev} {l : Nat} (h : a.LastActive l) (hk : Dev.Keeps ps a b) (hl : .lane ∉ ps)
    (ho : .oct ∉ ps) (ht : .clk ∉ ps) (hc : .csr ∉ ps) : b.LastActive l := by
  have hlane := hk.lane hl
  have hoct : b.link.oct = a.link.oct := hk .oct ho
  have hcsr : b.csr = a.csr := (hk .csr hc).1
  obtain ⟨hact, hmay, hfree, hoth⟩ := h
  constructor
  · rw [hlane, hact]
  · rw [hlane, hmay]
  · simpa only [Dev.inFrame, Dev.frameNo, Dev.clauseOf, Dev.cfgFld, Dev.csrAt, Dev.oct, hlane, hoct, hcsr, hk.dt ht] using hfree
  · simpa only [hlane] using hoth

section
variable {d : Dev} {l n k i : Nat} (hl : d.LastActive l) (hr : d.Retries l n)
include hl

theorem Dev.LastActive.allRest (m : Nat) : ((d.laneRest l .quiet 1).lane m).st ≠ .active ∧ ((d.laneRest l .quiet 1).lane m).st ≠ .deep := by
  rw [Dev.laneRest_st]
  by_cases hm : m = l
  · simp [hm]
  · rw [if_neg hm]
    exact hl.others m hm

include hr

theorem Dev.laneDo_lastQuiet : d.laneDo l (fun x => x.laneQuiet l) = ((d.laneRest l .quiet 1).portRebond n true).gapsNow l := by
  have hst : ((d.laneRest l .quiet 1).lane l).st = .quiet := by rw [Dev.laneRest_st, if_pos rfl]
  have hchange := Dev.linkLaneChange_retries (hr.of_keeps (Dev.laneRest_keep d l .quiet 1) (by decide) (by decide))
  simp [Dev.laneDo, Dev.laneNotify, Dev.laneQuiet_of_active hl.active hl.notAsked hl.mayRest, hl.active, hst, LaneSt.inService, hchange]

theorem Dev.quietAll_frees (hb : d.ResponseBegun n k i) (ls : List Nat) : ((d.quietAll (l :: ls)).pair k i) = {} := by
  have hrest := hl.allRest
  have hgaps := Dev.gapsNow_keep ((d.laneRest l .quiet 1).portRebond n true) l
  have hothers := Dev.quietAll_atRest ls (d := ((d.laneRest l .quiet 1).portRebond n true).gapsNow l) (fun m => by
    rw [hgaps.lane (by decide), Dev.portRebond_lane (fun m => (hrest m).1)]
    exact hrest m)
  have hcons : d.quietAll (l :: ls) = (((d.laneRest l .quiet 1).portRebond n true).gapsNow l).quietAll ls := by
    rw [← Dev.laneDo_lastQuiet hl hr]
    rfl
  rw [hcons, hothers.pair (by decide), hgaps.pair (by decide)]
  exact Dev.portRebond_fresh_frees (hb.of_keeps (Dev.laneRest_keep d l .quiet 1) (by decide) (by decide)) (fun m => (hrest m).1)

end

/-! ### Back into DOZE (R327, R375) -/

theorem Dev.modeEvent_pair (d : Dev) (os : List Nat) (old new : Mode) (cause owner : Nat) (fb : Bool) (hold o i : Nat) :
    (d.modeEvent os old new cause owner fb hold).pair o i = d.pair o i := by
  obtain ⟨-, -, -, hpair⟩ := Dev.Noted.postAll (rs := []) (cs := []) (ns := []) d os 0x61
    ([byte (modeCode old), byte (modeCode new), byte cause, byte owner] ++ leBytes 4 (b2n fb) ++ leBytes 8 d.dt ++ leBytes 8 hold)
  exact hpair o i

theorem Dev.moveBack_doze_pair {d : Dev} {m : Move} (hf : m.from_ = .doze) (hp : m.ph = .entering) (hq : d.clk.dozeDeep = false) (o i : Nat) :
    (d.moveBack m).pair o i = (d.sreAll.quietAll (List.range 144)).pair o i := by
  have hports : Dev.Keeps [.port, .csr] (d.sreAll.quietAll (List.range 144))
      (allPorts.foldl (fun (a : Dev) n => a.portRest n) (d.sreAll.quietAll (List.range 144))) := by
    simp
  rw [← hports.pair (by decide)]
  simp only [Dev.moveBack, hp, hf, hq]
  exact Dev.modeEvent_pair ..

theorem Dev.fin_notRunning_pair {d : Dev} {o i : Nat} (hs : (d.pair o i).st ≠ .running) (hm : d.clk.move = none) (status : Nat)
    (result : List Byte) (k j : Nat) : (d.fin o i status result).pair k j = d.pair k j := by
  have hrun : ((d.pair o i).st == .running) = false := by simpa using hs
  have hgo : d.moveTry = d := by simp [Dev.moveTry, hm]
  have hfin : Dev.Keeps [.clk] d (d.fin o i status result) := by
    simp [Dev.fin, hrun, hgo]
  exact hfin.pair (by decide) k j

theorem Dev.moveTimeout_due {d : Dev} {m : Move} {p : Nat} (hm : d.clk.move = some m) (hdue : due m.by_ d.dt = true)
    (hpair : m.pair = some p) :
    d.moveTimeout = ((d.moveBack m).modClk (fun c => { c with move := none })).fin (p / 8) (p % 8) 0x0202 [] := by
  simp [Dev.moveTimeout, hm, hdue, hpair]

/-- WAIT_MS of a DOZE exit has passed, and lane 0, which rests again, frees the pair that asked: nothing is left to answer. -/
theorem Dev.moveTimeout_frees {d : Dev} {m : Move} {n p : Nat} (hm : d.clk.move = some m) (hdue : due m.by_ d.dt = true)
    (hpair : m.pair = some p) (hfrom : m.from_ = .doze) (hph : m.ph = .entering) (hq : d.clk.dozeDeep = false) (hl : d.LastActive 0)
    (hr : d.Retries 0 n) (hb : d.ResponseBegun n (p / 8) (p % 8)) : d.moveTimeout.pair (p / 8) (p % 8) = {} := by
  have hsre := Dev.sreAll_keep d
  have hback : (d.moveBack m).pair (p / 8) (p % 8) = {} := by
    have hrange : List.range 144 = 0 :: List.range' 1 143 := by decide
    rw [Dev.moveBack_doze_pair hfrom hph hq, hrange]
    exact Dev.quietAll_frees (hl.of_keeps hsre (by decide) (by decide) (by decide) (by decide))
      (hr.of_keeps hsre (by decide) (by decide)) (hb.of_keeps hsre (by decide) (by decide)) _
  rw [Dev.moveTimeout_due hm hdue hpair, Dev.fin_notRunning_pair _ rfl]
  · exact hback
  · intro hrun
    have hfree : PairSt.free = .running := (congrArg Pair.st hback).symm.trans hrun
    cases hfree

/-! ### The state that refutes the statement -/

/-- A DOZE exit at its limit, asked for by pair 0 of partner 0. Lane 0 has been woken. Port 0, which consists of it, is enabled and stands in
FAIL; the response of the pair has begun on it, its partner is attached and has no port. -/
def dozeExitLate : Dev where
  clk := { mode := .doze, move := some { from_ := .doze, tgt := .service, ph := .entering, by_ := some 0, pair := some 0 } }
  mbox := { pair := [(0, { st := .running, cmd := leBytes 2 0x0201 })] }
  link := {
    lane := [(0, { st := .active, farQuiet := true })]
    port := [(0, { st := .fail })]
    ptx := [(0, { p3 := some { ref := .rsp 0, first := false } })]
    ptn := [(0, { st := .attached })] }
  csr := [(regKey 0 bPort 0x10, 0xB43)]

theorem dozeExitLate_lastActive : dozeExitLate.LastActive 0 where
  active := rfl
  mayRest := rfl
  notAsked := rfl
  others m hm := by
    have hoff : dozeExitLate.lane m = {} := if_neg (Ne.symm hm)
    rw [hoff]
    decide

theorem dozeExitLate_retries : dozeExitLate.Retries 0 0 where
  port := by decide
  fails := rfl
  enabled := by decide

theorem dozeExitLate_responseBegun : dozeExitLate.ResponseBegun 0 0 0 where
  present := rfl
  begun := ⟨_, rfl, rfl, rfl, rfl⟩

theorem dozeExitLate_noPartner (n : Nat) : (dozeExitLate.port n).partner = none := by
  by_cases hn : n = 0
  · subst hn; rfl
  · have hoff : dozeExitLate.port n = {} := if_neg (Ne.symm hn)
    rw [hoff]

theorem dozeExitLate_freed : dozeExitLate.moveTimeout.pair 0 0 = {} :=
  Dev.moveTimeout_frees (p := 0) rfl rfl rfl rfl rfl rfl dozeExitLate_lastActive dozeExitLate_retries dozeExitLate_responseBegun

theorem exec_modeTimeout (s : State) : exec .modeTimeout s = .next { s with dev := s.dev.moveTimeout } := guardNext_pos rfl

theorem Dev.Answered.done {o i status : Nat} {result : List Byte} {a b : Dev} (h : a.Answered o i status result b) : (b.pair o i).st = .done :=
  congrArg Pair.st h

/-- Refutes O42: its clause on MODE_TIMEOUT of a transition that is entering asks that no port belongs to a partner, but not that no mailbox
response has begun on a port. In `dozeExitLate` the return into DOZE frees the pair that asked, so it is not DONE with MODE_TIMEOUT. -/
theorem not_modeTransitions : ¬ Obligations.ModeTransitions := by
  unfold Obligations.ModeTransitions
  intro h
  obtain ⟨-, htimeout, -⟩ := h { State.reset with dev := dozeExitLate } 0 0 _ rfl
  obtain ⟨-, hentering, -⟩ := htimeout _ 0 rfl rfl rfl rfl rfl rfl (by decide) (by decide)
  obtain ⟨t, hexec, -, -, hanswered, -⟩ := hentering rfl rfl dozeExitLate_noPartner
  rw [exec_modeTimeout] at hexec
  obtain rfl := Host.Outcome.next.inj hexec
  have hdone := hanswered.done
  dsimp only at hdone
  rw [dozeExitLate_freed] at hdone
  cases hdone

end Sys2Proof.Machine
end
